-- ==== Sys2Proof/Word.lean ====
section
/-! DEFINITION. The word types of the LQF-1152 and their plainest arithmetic (00_scope.md R5, R8, R9). -/

namespace Sys2Proof

/-- A byte of memory, of a packet or of a register file. -/
abbrev Byte := BitVec 8

/-- A 32-bit register word. -/
abbrev Word := BitVec 32

/-- A 64-bit scalar register or counter. -/
abbrev DWord := BitVec 64

/-- A byte string, lowest address first. -/
abbrev Bytes := List Byte

/-- Bits [lo + w - 1 : lo] of a number (R8). -/
def natFld (x lo w : Nat) : Nat := x / 2 ^ lo % 2 ^ w

/-- The same bits of a bit vector, as a number (R8). -/
def fieldOf {n : Nat} (x : BitVec n) (lo w : Nat) : Nat := natFld x.toNat lo w

/-- One bit of a bit vector. -/
def bitOf {n : Nat} (x : BitVec n) (i : Nat) : Bool := x.getLsbD i

/-- 1 for true, 0 for false. -/
def b2n (b : Bool) : Nat := if b then 1 else 0

end Sys2Proof
end

