-- ==== Sys2Proof/Syntax.lean ====
section
/-! DEFINITION. The commands of the block: one constructor per row of spec/opcode_table.json, with the row's
operands. A descriptor row carries the queue that starts it and the descriptor's 64 bytes (R236); a sequencer row
carries the physical core and every field of its word (R125); a packet row carries the port and the packet (R295);
a register row carries the host port and the value written; a timer row names the unit whose time has come. -/

namespace Sys2Proof

/-- A host port H0..H3 (R4). -/
abbrev HostId := Fin 4
/-- A queue Q0..Q63 of a host port (R4). -/
abbrev QueueId := Fin 64
/-- A partition 0..3 (R20). -/
abbrev PartId := Fin 4
/-- A physical core P0..P127 (R4). -/
abbrev CoreId := Fin 128
/-- A logical core L0..L119 (R4). -/
abbrev LogicalId := Fin 120
/-- A Jilan port J0..J31 (R4). -/
abbrev PortId := Fin 32
/-- A lane L0..L7 of a port (R4). -/
abbrev LaneId := Fin 8
/-- A stack S0..S11 (R4). -/
abbrev StackId := Fin 12
/-- A pseudo-channel, numbered 32 k + c for Sk.Cc (R407). -/
abbrev ChannelId := Fin 384
/-- A management port M0 or M1 (R4). -/
abbrev MgmtId := Fin 2
/-- A scalar register s0..s31 (R124). -/
abbrev SReg := BitVec 5
/-- The 64 bytes of a descriptor as one little-endian number (R236). -/
abbrev Desc := BitVec 512
/-- A 256-byte flit as one little-endian number (R263). -/
abbrev Flit := BitVec 2048

/-- A transport packet as it arrives: the header fields of R295 less PTYPE, which the row names, the virtual channel
it arrived on, its data bytes, and per data byte range the poison of R297 (start, length). -/
structure Packet where
  /-- Virtual channel of arrival (R268). -/
  vc : Nat
  /-- Sub-code (R296). -/
  sub : Nat
  /-- Device ID of the sender. -/
  src : Nat
  /-- Device ID of the receiver, or 0xF_FFFF. -/
  dst : Nat
  /-- Sender's generation (R5). -/
  gen : Nat
  /-- Group family (R301). -/
  group : Nat
  /-- Type-specific address. -/
  addr : Nat
  /-- Message ID or CSEQ. -/
  msg : Nat
  /-- Bits [31:0] of the sender's SLICE_CRC. -/
  imptag : Nat
  /-- LEN data bytes. -/
  data : Bytes
  /-- Poisoned byte ranges (R297). -/
  poison : List (Nat × Nat)
  deriving DecidableEq, Repr, Inhabited

/-- A management frame from a manager: the header of R443 and the body. -/
structure Frame where
  /-- VERSION. -/
  version : Nat
  /-- Source MAC address. -/
  srcMac : Nat
  /-- VLAN ID of the tag, 0 for an untagged frame (R442). -/
  vlan : Nat
  /-- EtherType (R442). -/
  etype : Nat
  /-- Whether the destination is the port's own MAC, MGMT_DST or the broadcast address (R442). -/
  forUs : Bool
  /-- The 32 header bytes. -/
  header : Bytes
  /-- The body of BLEN bytes. -/
  body : Bytes
  deriving DecidableEq, Repr, Inhabited

/-- What a read of a granule meets (R172). -/
inductive EccOutcome where
  /-- A clean read. -/
  | clean
  /-- A correctable error. -/
  | corrected
  /-- Uncorrectable, and a reread is clean or correctable. -/
  | transient
  /-- Uncorrectable in all three rereads. -/
  | uncorrectable
  deriving DecidableEq, Repr, Inhabited

/-- The outcome of a field-test block (R392). -/
inductive BlockOutcome where
  /-- The block's result is its expected signature. -/
  | match_
  /-- It differs, and the rerun matches. -/
  | transient
  /-- It differs, and the rerun fails again. -/
  | confirmed
  deriving DecidableEq, Repr, Inhabited

/-- What a rail answers to a PMBus poll (R422): nothing, or a power in W, with READ_VOUT in mV for VCORE. -/
structure RailAnswer where
  /-- The rail answered. -/
  ok : Bool
  /-- Milliseconds since its last answer when it did not. -/
  silentMs : Nat
  /-- Power in W. -/
  watts : Nat
  /-- READ_VOUT in mV. -/
  mv : Nat
  deriving DecidableEq, Repr, Inhabited

/-- The data of a write TLP (08 R222; 06 R173). -/
structure Tlp where
  /-- Its bytes. -/
  bytes : Bytes
  /-- EP: the TLP is poisoned. -/
  ep : Bool
  deriving DecidableEq, Repr, Inhabited

/-- Where and how wide a register read is (08 R223). -/
structure Access where
  /-- Offset (log 6). -/
  off : Nat
  /-- Bytes. -/
  size : Nat
  deriving DecidableEq, Repr, Inhabited

/-- A core that recomputes a capture, with what it gets wrong in word 1 of the report (11 R337). -/
structure Recompute where
  /-- The physical core. -/
  core : CoreId
  /-- The bits that it gets wrong. -/
  wrong : Word
  deriving DecidableEq, Repr, Inhabited

/-- What one lane reports at the end of a 100 ms window (R286). -/
structure LaneWindow where
  /-- Symbols corrected. -/
  symCorr : Nat
  /-- Corrected codewords. -/
  cwCorr : Nat
  /-- Uncorrectable codewords. -/
  cwUncorr : Nat
  /-- Bits received. -/
  bits : Nat
  deriving DecidableEq, Repr, Inhabited

/-- A command of the block. -/
inductive Instr where
  -- Descriptors (08_host_queues.md R237, R239)
  | nop (hp : HostId) (q : QueueId) (d : Desc)
  | copy (hp : HostId) (q : QueueId) (d : Desc)
  | fill (hp : HostId) (q : QueueId) (d : Desc)
  | launch (hp : HostId) (q : QueueId) (d : Desc)
  | allReduce (hp : HostId) (q : QueueId) (d : Desc)
  | reduceScatter (hp : HostId) (q : QueueId) (d : Desc)
  | allGather (hp : HostId) (q : QueueId) (d : Desc)
  | broadcast (hp : HostId) (q : QueueId) (d : Desc)
  | allToAll (hp : HostId) (q : QueueId) (d : Desc)
  | collBarrier (hp : HostId) (q : QueueId) (d : Desc)
  | put (hp : HostId) (q : QueueId) (d : Desc)
  | get (hp : HostId) (q : QueueId) (d : Desc)
  | stepBegin (hp : HostId) (q : QueueId) (d : Desc)
  | stepOpen (p : PartId)
  | phase (hp : HostId) (q : QueueId) (d : Desc)
  | stepEnd (hp : HostId) (q : QueueId) (d : Desc)
  | stepComputed (p : PartId)
  | adamw (hp : HostId) (q : QueueId) (d : Desc)
  | sgdMomentum (hp : HostId) (q : QueueId) (d : Desc)
  | lion (hp : HostId) (q : QueueId) (d : Desc)
  | prog (hp : HostId) (q : QueueId) (d : Desc)
  | ssq (hp : HostId) (q : QueueId) (d : Desc)
  | amax (hp : HostId) (q : QueueId) (d : Desc)
  | scaleCommit (hp : HostId) (q : QueueId) (d : Desc)
  | snapshotEager (hp : HostId) (q : QueueId) (d : Desc)
  | snapshotCow (hp : HostId) (q : QueueId) (d : Desc)
  | snapshotQuiesce (hp : HostId) (q : QueueId) (d : Desc)
  | capturePoint (p : PartId)
  | restore (hp : HostId) (q : QueueId) (d : Desc)
  | restoreFromStorage (hp : HostId) (q : QueueId) (d : Desc)
  | drain (hp : HostId) (q : QueueId) (d : Desc)
  | fence (hp : HostId) (q : QueueId) (d : Desc)
  | wait (hp : HostId) (q : QueueId) (d : Desc)
  | signalAdd (hp : HostId) (q : QueueId) (d : Desc)
  | signalSet (hp : HostId) (q : QueueId) (d : Desc)
  | setW (hp : HostId) (q : QueueId) (d : Desc)
  | setSample (hp : HostId) (q : QueueId) (d : Desc)
  | query (hp : HostId) (q : QueueId) (d : Desc)
  | failStep (hp : HostId) (q : QueueId) (d : Desc)
  | run (hp : HostId) (q : QueueId) (d : Desc)
  | interval (hp : HostId) (q : QueueId) (d : Desc)
  | testReport (hp : HostId) (q : QueueId) (d : Desc)
  | inject (hp : HostId) (q : QueueId) (d : Desc)
  -- Queue and host-port events (08_host_queues.md)
  | descriptorFetchFail (hp : HostId) (q : QueueId)
  | coalTime (hp : HostId) (q : QueueId)
  | doorbell (hp : HostId) (q : QueueId) (v : Word)
  | queueEnable (hp : HostId) (q : QueueId)
  | queueDisable (hp : HostId) (q : QueueId)
  | queueReset (hp : HostId) (q : QueueId)
  | hostLinkDown (hp : HostId)
  | hostPortReset (hp : HostId)
  | perstN (hp : HostId)
  | ideFail (hp : HostId)
  | doeRequest (hp : HostId) (req : Bytes)
  | bar4Access (hp : HostId) (off : Nat) (write : Bool) (len : Nat) (data : Tlp)
  -- Core sequencer (05_core_sequencer.md R125, R126)
  | csqAdd (c : CoreId) (rd ra rb : SReg)
  | csqSub (c : CoreId) (rd ra rb : SReg)
  | csqAnd (c : CoreId) (rd ra rb : SReg)
  | csqOr (c : CoreId) (rd ra rb : SReg)
  | csqXor (c : CoreId) (rd ra rb : SReg)
  | csqSll (c : CoreId) (rd ra rb : SReg)
  | csqSrl (c : CoreId) (rd ra rb : SReg)
  | csqSra (c : CoreId) (rd ra rb : SReg)
  | csqMul (c : CoreId) (rd ra rb : SReg)
  | csqMulhu (c : CoreId) (rd ra rb : SReg)
  | csqDiv (c : CoreId) (rd ra rb : SReg)
  | csqRem (c : CoreId) (rd ra rb : SReg)
  | csqSlt (c : CoreId) (rd ra rb : SReg)
  | csqSltu (c : CoreId) (rd ra rb : SReg)
  | csqMin (c : CoreId) (rd ra rb : SReg)
  | csqMax (c : CoreId) (rd ra rb : SReg)
  | csqMinu (c : CoreId) (rd ra rb : SReg)
  | csqMaxu (c : CoreId) (rd ra rb : SReg)
  | csqAddi (c : CoreId) (rd ra : SReg) (imm : BitVec 14)
  | csqAndi (c : CoreId) (rd ra : SReg) (imm : BitVec 14)
  | csqOri (c : CoreId) (rd ra : SReg) (imm : BitVec 14)
  | csqXori (c : CoreId) (rd ra : SReg) (imm : BitVec 14)
  | csqSlli (c : CoreId) (rd ra : SReg) (imm : BitVec 14)
  | csqSrli (c : CoreId) (rd ra : SReg) (imm : BitVec 14)
  | csqSrai (c : CoreId) (rd ra : SReg) (imm : BitVec 14)
  | csqSlti (c : CoreId) (rd ra : SReg) (imm : BitVec 14)
  | csqSltiu (c : CoreId) (rd ra : SReg) (imm : BitVec 14)
  | csqLui (c : CoreId) (rd : SReg) (imm : BitVec 19)
  | csqLd8 (c : CoreId) (rd ra : SReg) (imm : BitVec 14)
  | csqLd16 (c : CoreId) (rd ra : SReg) (imm : BitVec 14)
  | csqLd32 (c : CoreId) (rd ra : SReg) (imm : BitVec 14)
  | csqLd64 (c : CoreId) (rd ra : SReg) (imm : BitVec 14)
  | csqLdu8 (c : CoreId) (rd ra : SReg) (imm : BitVec 14)
  | csqLdu16 (c : CoreId) (rd ra : SReg) (imm : BitVec 14)
  | csqLdu32 (c : CoreId) (rd ra : SReg) (imm : BitVec 14)
  | csqSt8 (c : CoreId) (rs ra : SReg) (imm : BitVec 14)
  | csqSt16 (c : CoreId) (rs ra : SReg) (imm : BitVec 14)
  | csqSt32 (c : CoreId) (rs ra : SReg) (imm : BitVec 14)
  | csqSt64 (c : CoreId) (rs ra : SReg) (imm : BitVec 14)
  | csqBeq (c : CoreId) (rs ra : SReg) (imm : BitVec 14)
  | csqBne (c : CoreId) (rs ra : SReg) (imm : BitVec 14)
  | csqBlt (c : CoreId) (rs ra : SReg) (imm : BitVec 14)
  | csqBge (c : CoreId) (rs ra : SReg) (imm : BitVec 14)
  | csqBltu (c : CoreId) (rs ra : SReg) (imm : BitVec 14)
  | csqBgeu (c : CoreId) (rs ra : SReg) (imm : BitVec 14)
  | csqJal (c : CoreId) (rd : SReg) (imm : BitVec 19)
  | csqJalr (c : CoreId) (rd ra : SReg) (imm : BitVec 14)
  | csqCsrr (c : CoreId) (rd ra : SReg) (imm : BitVec 14)
  | csqCsrw (c : CoreId) (rs ra : SReg) (imm : BitVec 14)
  | csqSemsig (c : CoreId) (rs ra : SReg) (imm : BitVec 14)
  | csqSemwait (c : CoreId) (rs ra : SReg) (imm : BitVec 14)
  | csqSemtake (c : CoreId) (rs ra : SReg) (imm : BitVec 14)
  | csqSemtest (c : CoreId) (rd ra : SReg) (imm : BitVec 14)
  | csqBar (c : CoreId) (rd ra : SReg) (imm : BitVec 14)
  | barrierRelease (launch : Nat) (scope : Bool) (group : Fin 16)
  | csqTissue (c : CoreId) (rd ra rb : SReg) (fn : BitVec 9)
  | csqHalt (c : CoreId) (rd ra : SReg) (imm : BitVec 14)
  | programStart (launch : Nat) (l : LogicalId)
  -- Core units (03, 04, 05)
  | matrixInstruction (c : CoreId) (array : Bool)
  | streamInstruction (c : CoreId)
  | load (c : CoreId)
  | store (c : CoreId)
  | xcore (c : CoreId)
  | forme (c : CoreId)
  | coreSubstitution (l : LogicalId)
  -- Memory and stack engines (06, 07, 17)
  | ttGo (hp : HostId)
  | ttUpdateDone (p : PartId)
  | regionClass (hp : HostId) (w : Fin 35) (v : Word)
  | sctIdx (hp : HostId) (v : Word)
  | sctWr (hp : HostId)
  | patrolScrub (k : StackId) (line : Nat) (seen : List EccOutcome)
  | rowRemap (ch : ChannelId) (line : Nat)
  | stackTemperature (k : StackId) (temp : BitVec 12)
  | cowCopy (p : PartId)
  -- Transport (10_jilan_transport.md)
  | rmaOpen (j : PortId) (pk : Packet)
  | rmaGrant (j : PortId) (pk : Packet)
  | rmaRefuse (j : PortId) (pk : Packet)
  | rmaData (j : PortId) (pk : Packet)
  | rmaAck (j : PortId) (pk : Packet)
  | collReady (j : PortId) (pk : Packet)
  | collData (j : PortId) (pk : Packet)
  | planes (j : PortId) (pk : Packet)
  | heldPacketTimeout (j : PortId) (vc : Fin 8)
  | hsWrite (j : PortId) (pk : Packet)
  | hsRead (j : PortId) (pk : Packet)
  | drReady (j : PortId) (pk : Packet)
  | drDurable (j : PortId) (pk : Packet)
  | drCommitted (j : PortId) (pk : Packet)
  | drError (j : PortId) (pk : Packet)
  | chunkResend (p : PartId) (chunk : Nat)
  | drCommittedTimeout (p : PartId)
  | rdData (j : PortId) (pk : Packet)
  | rdEnd (j : PortId) (pk : Packet)
  -- Proof and reprint (11_proof_and_reprint.md)
  | stop (j : PortId) (pk : Packet)
  | safePointMissed (p : PartId) (unit : BitVec 16)
  | report (j : PortId) (pk : Packet)
  | rootCollectTimeout (p : PartId)
  | decision (j : PortId) (pk : Packet)
  | decisionTimeout (p : PartId)
  | poll (j : PortId) (pk : Packet)
  | rollbackDone (p : PartId)
  | joinDone (p : PartId)
  | replayEnd (p : PartId)
  | up (j : PortId) (pk : Packet)
  | proven (j : PortId) (pk : Packet)
  | stepRetire (p : PartId) (step : Nat)
  | pulse (j : PortId) (pk : Packet)
  | pulseSend (p : PartId)
  | neighbourLost (p : PartId) (rank : Nat)
  | digest (j : PortId) (pk : Packet)
  | sampleRecompute (p : PartId) (second third : Recompute)
  | mirrorOpen (j : PortId) (pk : Packet)
  | grad (j : PortId) (pk : Packet)
  | mirrorDone (j : PortId) (pk : Packet)
  | seal (j : PortId) (pk : Packet)
  | scale (j : PortId) (pk : Packet)
  | ownRestore (j : PortId) (pk : Packet)
  | scaleRestore (j : PortId) (pk : Packet)
  | mirrorFill (j : PortId) (pk : Packet)
  | shadowFill (j : PortId) (pk : Packet)
  | stateXferEnd (j : PortId) (pk : Packet)
  -- Links (09_jilan_links.md)
  | dataFlit (j : PortId) (f : Flit)
  | idleFlit (j : PortId) (f : Flit)
  | invalidFlit (j : PortId)
  | nak (j : PortId) (f : Flit)
  | nakRepeat (j : PortId)
  | replayStart (j : PortId) (f : Flit)
  | recover (j : PortId)
  | ident (j : PortId) (f : Flit)
  | identSend (j : PortId)
  | laneMap (j : PortId) (f : Flit)
  | retrainReq (j : PortId) (f : Flit)
  | retrainAck (j : PortId) (f : Flit)
  | creditInit (j : PortId) (f : Flit)
  | signalDetect (j : PortId) (lanes : BitVec 8)
  | fecAlignment (j : PortId) (lanes : BitVec 8)
  | fecAlignmentLoss (j : PortId) (lane : LaneId)
  | signalLoss (j : PortId) (lanes : BitVec 8)
  | equaliseTimeout (j : PortId)
  | identTimeout (j : PortId)
  | recoverTimeout (j : PortId)
  | retrainComplete (j : PortId) (eyes : BitVec 128)
  | retrainTimeout (j : PortId)
  | epochWaitTimeout (j : PortId)
  | berWindow (j : PortId) (seen : List LaneWindow)
  | uncorrectableBurst (j : PortId) (lane : LaneId)
  | retrainCountReset (j : PortId) (lane : LaneId)
  | retrain (hp : HostId) (j : PortId)
  | cntclr (hp : HostId) (j : PortId)
  | portEnWrite (hp : HostId) (j : PortId) (en : Bool)
  -- Faults (13_faults_and_resets.md)
  | healthTick
  | fieldTestSlot
  | observationTestDue (unit : BitVec 16)
  | fieldTestBlock (unit : BitVec 16) (outcome : BlockOutcome)
  | testStarved (unit : BitVec 16)
  | csqWatchdog (c : CoreId)
  | tileWatchdog (c : CoreId) (unit : Fin 4)
  | hostQueueWatchdog (hp : HostId) (q : QueueId) (didx : BitVec 16)
  | engineWatchdog (k : StackId)
  | creditHighWatchdog (j : PortId)
  | creditLowWatchdog (j : PortId)
  | transportWatchdog (p : PartId)
  | galleyEscalation (g : Fin 16)
  | coreReset (hp : HostId) (v : Word)
  | partReset (hp : HostId) (v : Word)
  | warm (hp : HostId) (planned : Bool)
  | cold (hp : HostId) (planned : Bool)
  | fltReadmit (hp : HostId)
  | trigger (hp : HostId)
  | dumpDone (unreadable : List (BitVec 16))
  | dumpFlashCopy
  | release (hp : HostId)
  -- Power (14_power_clocks_thermal.md)
  | powerPeriod (galleyWatts : List Nat) (ioWatts : Nat)
  | calibration (measured estimated : Nat)
  | opStepDown (p : PartId)
  | opStepUp (p : PartId)
  | vcoreSettled (readMv : Option Nat)
  | droop (g : Fin 16)
  | sensorRead (temps : List Nat)
  | avsFail (confirmedMv : Nat)
  | avsRetry (acked : Bool)
  | pmbusPoll (rails : List RailAnswer)
  | pshare (hp : HostId) (p : PartId) (v : Word)
  -- Management (15_management_security.md)
  | standbyTakeover (micros : Nat)
  | standbyReturn (booted : Bool)
  | heartbeat
  | health
  | telemetry
  | mgrHb (m : MgmtId) (f : Frame)
  | mgmtLost (p : PartId)
  | stoppressFrame (m : MgmtId) (f : Frame)
  | eventReq (m : MgmtId) (f : Frame)
  | strike (m : MgmtId) (f : Frame)
  | readmit (m : MgmtId) (f : Frame)
  | freezeLift (m : MgmtId) (f : Frame)
  | dump (m : MgmtId) (f : Frame)
  | mgmtReset (m : MgmtId) (f : Frame)
  | takeover (m : MgmtId) (f : Frame)
  | bootPref (m : MgmtId) (f : Frame)
  | owner (m : MgmtId) (f : Frame)
  | mctpRequest (req : Bytes)
  | fwChunk (hp : HostId)
  | fwVerify (hp : HostId)
  | fwActivate (hp : HostId)
  | mbSvnCommit (hp : HostId)
  | dumpRead (hp : HostId)
  | svnCommit (hp : HostId)
  | frzLift (hp : HostId) (v : Word)
  | hsfrz (hp : HostId) (v : Word)
  -- Event recorder (16_event_recorder.md)
  | flush
  | evrRdSeq (hp : HostId) (high : Word)
  | evrFreeze (hp : HostId)
  | evrUnfreeze (hp : HostId)
  | freezeMax
  | clear (hp : HostId)
  -- Registers (17_register_interface.md)
  | unlock (hp : HostId) (v : Word)
  | unlockLapse (hp : HostId)
  | indDataRead (hp : HostId)
  | indDataWrite (hp : HostId) (v : Word)
  | latchedRead (hp : HostId) (at_ : Access)
  | bitAliasWrite (hp : HostId) (off : Nat) (v : Word)
  | asyncMask (hp : HostId) (v : Word)
  | coreMap (hp : HostId) (l : LogicalId) (v : Word)
  | registerWrite (hp : HostId) (off : Nat) (size : Nat) (v : DWord)
  -- Start-up, pins (18_startup_and_lands.md)
  | start (hp : HostId)
  | startUpBarrier (hp : HostId)
  | boot (smbAddr : BitVec 3)
  | ready
  | resetN (longPulse : Bool)
  | resetForce
  | pwrfailN (longPulse : Bool)
  | pwrfailHold
  | powerLoss
  | refclkLoss
  | hostLinkUp (hp : HostId) (rate : Nat) (width : Nat)
  | mgmtLinkUp (m : MgmtId)
  | mgmtLinkDown (m : MgmtId)
  | internalHeartbeat
  | restorePartnerTimeout (p : PartId)
  deriving DecidableEq, Repr

end Sys2Proof
end

