-- ==== Sys2Proof/Decode.lean ====
section
/-! DEFINITION. The command that a word of spec/opcode_table.json spells. No row of the table gives bits (every row's
`fields` is empty), so no word spells a command. -/

namespace Sys2Proof

/-- The command spelt by a word of the table's bits: none, because the table gives no row any bits. -/
def decodeTableWord (_nbits _w : Nat) : Option Instr := none

end Sys2Proof
end

