-- ==== Sys2Proof/Machine/State.lean ====
section
/-! DEFINITION. The state of the LQF-1152 as plain data: every register, buffer, counter, mode and pin the spec gives
the module, and the queue of commands that are waiting. Reset values are those of a device-cold reset; a value that
the spec does not give names its log entry. Sparse tables are lists of (index, value) with strictly rising indexes
that leave out every entry equal to its reset value. -/

namespace Sys2Proof.Machine

/-- A sparse table: an index that is not listed holds the table's reset value. -/
abbrev Map (α : Type) := List (Nat × α)

/-- Why the model stops with a fault. -/
inductive Fault where
  /-- A memory event (PATROL_SCRUB, ROW_REMAP) names a line that the spec says does not exist (06 R154, R155: a
  physical address at or above 0x114_0000_0000, or a line of another stack). Safe: the device has no such line. -/
  | noSuchLine
  deriving DecidableEq, Repr

/-- Why the model gives a command no meaning. -/
inductive Refusal where
  /-- The command's arm is not written yet; raised by Dispatch alone. Safe. -/
  | notModelled (mnemonic : String)
  deriving DecidableEq, Repr

/-- A byte string with its poisoned ranges (start, length). -/
structure Blob where
  /-- The bytes. -/
  data : Bytes
  /-- Poisoned ranges. -/
  pz : List (Nat × Nat)
  deriving DecidableEq, Repr, Inhabited

/-! ### Cores (03, 04, 05) -/

/-- One accumulator bank of an array with the chain it holds (03 R62 to R64, R74, R75, R78). -/
structure Bank where
  /-- FP32 accumulator of element (i, j) at index 64 i + j; +0 when not listed. -/
  acc : Map (BitVec 32) := []
  /-- Proof-column accumulator of row i. -/
  proof : Map (BitVec 32) := []
  /-- Rows of the chain. -/
  m : Nat := 64
  /-- Columns of the chain. -/
  n : Nat := 64
  /-- Chain flag SAT. -/
  sat : Bool := false
  /-- Chain flag POISON. -/
  poison : Bool := false
  /-- Chain flag PMIS. -/
  pmis : Bool := false
  /-- Column that the proof column recomputes. -/
  pcol : Nat := 0
  deriving DecidableEq, Repr, Inhabited

/-- An entry of a unit's issue queue (05 R134, R135). -/
structure TileEntry where
  /-- The 128 bits of the tile instruction (R132). -/
  word : BitVec 128
  /-- Address of the TISSUE that issued it (R151). -/
  pc : Nat
  /-- The matrix or move block as read at issue (R135); empty for the stream fabric. -/
  block : Bytes
  /-- The eight words of the selected epilogue record as read at issue (R82). -/
  epi : List (BitVec 32)
  /-- Committed output scale in effect at issue (03 R87, 07 R203). -/
  oscale : BitVec 32
  /-- Step that the core holds at issue (03 R87). -/
  step : Nat
  /-- Issue order within the core (04 R103). -/
  seq : Nat
  deriving DecidableEq, Repr, Inhabited

/-- One instruction of a captured chain: the queue entry and the scratchpad it read (11 R336). -/
structure CaptureStep where
  /-- The queue entry. -/
  entry : TileEntry
  /-- The scratchpad bytes as they stood. -/
  spad : List Host.Cell
  deriving DecidableEq, Repr, Inhabited

/-- A sample capture (11 R336). -/
structure Capture where
  /-- Latched STEP of the chain. -/
  step : Nat
  /-- Logical core. -/
  lcore : Nat
  /-- Array, 0 or 1. -/
  array : Nat
  /-- Chain ordinal (R335). -/
  ordinal : Nat
  /-- Physical core that ran the chain. -/
  phys : Nat
  /-- Its instructions up to the first EMIT. -/
  steps : List CaptureStep
  /-- Output tile bytes of the first EMIT, in row order. -/
  output : Bytes
  /-- Tile report of the first EMIT: word 0 and word 1. -/
  report : BitVec 32 × BitVec 32
  /-- An input carried poison (R337). -/
  poison : Bool
  deriving DecidableEq, Repr, Inhabited

/-- One matrix array (03). -/
structure MArray where
  /-- Bank 0. -/
  bank0 : Bank := {}
  /-- Bank 1. -/
  bank1 : Bank := {}
  /-- The bank of the previous chain (R64). -/
  cur : Bool := false
  /-- No chain has had an instruction since the core reset (R64). -/
  fresh : Bool := true
  /-- Proof-column pointer, 6 bits (R78). -/
  ptr : Nat := 0
  /-- Chains counted since STEP_BEGIN (11 R335). -/
  ordinal : Nat := 0
  /-- The current chain's capture, while it is sampled and has had no EMIT. -/
  capture : Option Capture := none
  /-- The first chain that starts on either array of the core meets an injected proof-column mismatch at the end of its
  first instruction (13 R393, kind 1). -/
  inject : Bool := false
  /-- Issue queue (05 R134). -/
  queue : List TileEntry := []
  deriving DecidableEq, Repr, Inhabited

/-- What a core sequencer is doing (05 R146 to R150). -/
inductive CsqState where
  /-- It runs no program. -/
  | idle
  /-- It fetches and executes. -/
  | running
  /-- It waits in a BAR of the scope (R144). -/
  | barrier (scope : Bool)
  /-- It met HALT at the address and waits for the four queues to empty (R149). -/
  | halting (value : BitVec 32) (pc : Nat)
  deriving DecidableEq, Repr, Inhabited

/-- A physical core (05 R119, R124, R130). -/
structure Core where
  /-- s0 to s31. -/
  sregs : Map (BitVec 64) := []
  /-- Program counter. -/
  pc : Nat := 0
  /-- Sequencer state. -/
  csq : CsqState := .idle
  /-- Scratchpad bytes; an unlisted byte is 0. -/
  spad : List Host.Cell := []
  /-- Poisoned 64-byte lines, by line number, ascending. -/
  spadPoison : List Nat := []
  /-- Program memory, by word index. -/
  pm : Map (BitVec 32) := []
  /-- Program-memory words with an uncorrectable ECC error (R129). -/
  pmBad : List Nat := []
  /-- ENTRY of the last image loaded (R147). -/
  entry : Nat := 0
  /-- Image-valid flag (R147). -/
  imageValid : Bool := false
  /-- sem0 to sem63 (R142). -/
  sem : Map (BitVec 32) := []
  /-- Epilogue records, word 8 n + w (03 R81). -/
  epi : Map (BitVec 32) := []
  /-- SF_NAN. -/
  sfNan : BitVec 64 := 0
  /-- SF_INF. -/
  sfInf : BitVec 64 := 0
  /-- SF_SAT. -/
  sfSat : BitVec 64 := 0
  /-- SF_DIV0. -/
  sfDiv0 : BitVec 64 := 0
  /-- CORE_STATUS.POISON_SEEN. -/
  poisonSeen : Bool := false
  /-- CORE_STATUS.SEM_SAT. -/
  semSat : Bool := false
  /-- Latched STEP, GEN, ARGVA, LRANK, LCOUNT (R130). -/
  step : Nat := 0
  /-- GEN. -/
  gen : Nat := 0
  /-- ARGVA. -/
  argva : Nat := 0
  /-- LRANK. -/
  lrank : Nat := 0
  /-- LCOUNT. -/
  lcount : Nat := 0
  /-- Galley pulse count at the last core reset: CYCLE counts from here. -/
  cycleBase : Nat := 0
  /-- The LAUNCH whose program runs; 0 for none. -/
  launch : Nat := 0
  /-- Whether that LAUNCH belongs to a step (R131). -/
  inStep : Bool := false
  /-- BARs of scope 0 executed since the LAUNCH (R144). -/
  bars0 : Nat := 0
  /-- BARs of scope 1 executed since the LAUNCH. -/
  bars1 : Nat := 0
  /-- Addresses of the last 64 instructions completed, newest first (13 R412). -/
  lastPcs : List Nat := []
  deriving DecidableEq, Repr, Inhabited

/-- The units of a physical core beside its sequencer. -/
structure Units where
  /-- MA0. -/
  ma0 : MArray := {}
  /-- MA1. -/
  ma1 : MArray := {}
  /-- Stream-fabric queue. -/
  sf : List TileEntry := []
  /-- Mover queue. -/
  mv : List TileEntry := []
  /-- Lines of the mover's move in progress that it has moved, and whether they carried poison; none while no move is in
  progress (R141). -/
  moving : Option (Nat × Bool) := none
  /-- Valid forme slots with their bytes (04 R103). -/
  formes : Map Bytes := []
  /-- Tile instructions issued since the core reset. -/
  issued : Nat := 0
  /-- CSQ stall injected (13 R393, kind 3). -/
  stalled : Bool := false
  /-- Times in ns, by `Faults.base` and the uptime, of the core resets of the last 600 s (13 R404). -/
  resets : List Nat := []
  deriving DecidableEq, Repr, Inhabited

/-- A running or waiting LAUNCH (05 R145, R146, R152). -/
structure Launch where
  /-- Identity; launches are accepted in ascending order. -/
  id : Nat
  /-- Partition. -/
  part : Nat
  /-- CMASK. -/
  mask : Nat
  /-- ARGVA. -/
  argva : Nat
  /-- EXITVA. -/
  exitva : Nat
  /-- Image bytes when IMG is 1. -/
  image : Option Bytes
  /-- The step it belongs to (R131). -/
  step : Option Nat
  /-- Every named core has loaded the image (08 R241), or none is carried. -/
  loaded : Bool := false
  /-- Named logical cores whose program has not started. -/
  waiting : List Nat
  /-- Named logical cores whose program runs. -/
  running : List Nat
  /-- Outcomes written: HALTED, FAULTED, FROZEN, STOPPED. -/
  halted : Nat := 0
  /-- FAULTED exit records. -/
  faulted : Nat := 0
  /-- FROZEN exit records. -/
  frozen : Nat := 0
  /-- STOPPED exit records. -/
  stopped : Nat := 0
  deriving DecidableEq, Repr, Inhabited

/-! ### Memory (06) and stack engines (07) -/

/-- A translation update in progress (06 R163). -/
structure TtUpdate where
  /-- First virtual page. -/
  vpn : Nat
  /-- Entries. -/
  count : Nat
  /-- Template. -/
  entry : BitVec 64
  deriving DecidableEq, Repr, Inhabited

/-- One stack (06 R166, R182, R183). -/
structure Stack where
  /-- Stack-map entries that differ from g mod 32. -/
  map : Map Nat := []
  /-- Temperature in 0.25 °C. -/
  temp : Nat := 0
  /-- Requests admitted of 64. -/
  admitA : Nat := 64
  /-- In self-refresh after T3. -/
  selfRefresh : Bool := false
  deriving DecidableEq, Repr, Inhabited

/-- One pseudo-channel (06 R176, R177). -/
structure Channel where
  /-- CHANNEL_STATE: 0 LIVE, 1 FAILING, 2 RETIRED. -/
  state : Nat := 0
  /-- The remap table: the row that each spare row stands for, in the order in which the spares were taken. A row is its
  extent (RANGED or HASHED, entry, frame index) and its place in it, in KiB. -/
  rows : List (Bool × Nat × Nat × Nat) := []
  /-- The next read meets an injected uncorrectable granule (13 R393). -/
  inject : Bool := false
  deriving DecidableEq, Repr, Inhabited

/-- A slot of a scale-table entry (07 R200). -/
structure ScaleSlot where
  /-- STEP. -/
  step : Nat
  /-- STATE: 1 OPEN, 2 COMMITTED, 3 PROVEN. -/
  state : Nat
  /-- MAX_NAN. -/
  maxNan : Bool
  /-- MAX. -/
  max : BitVec 32
  /-- NEWSCALE. -/
  newScale : BitVec 32
  deriving DecidableEq, Repr, Inhabited

/-- A scale-table entry (07 R200); SLOT0 to SLOT7 as the list of slots that are not FREE. -/
structure ScaleEntry where
  /-- CUR. -/
  cur : BitVec 32 := 0x3F800000
  /-- FMT. -/
  fmt : Nat := 3
  /-- MARGIN, signed. -/
  margin : Int := 0
  /-- FROZEN. -/
  frozen : Bool := false
  /-- HIST_INF. -/
  histInf : Bool := false
  /-- HIST_NAN. -/
  histNan : Bool := false
  /-- HPOS. -/
  hpos : Nat := 0
  /-- BASESTEP. -/
  baseStep : Nat := 0
  /-- HIST0 to HIST15. -/
  hist : Map (BitVec 32) := []
  /-- Slots in use, in ascending slot order of taking. -/
  slots : List ScaleSlot := []
  deriving DecidableEq, Repr, Inhabited

/-- A journal record: a page's pre-image (07 R209). -/
structure JournalRecord where
  /-- VPN. -/
  vpn : Nat
  /-- PPN. -/
  ppn : Nat
  /-- FLAGS: bit 0 POISON, bit 1 MIRROR. -/
  flags : Nat
  /-- The page's bytes that are not 0, by offset. -/
  page : List Host.Cell
  /-- Poisoned granules of the page, by granule offset. -/
  poison : List Nat
  /-- Whether HCRC and DCRC verify. -/
  intact : Bool := true
  deriving DecidableEq, Repr, Inhabited

/-- A journal segment (07 R209). -/
structure JournalSeg where
  /-- Stack. -/
  stack : Nat
  /-- STATE: 1 OPEN, 2 SEALED. FREE segments are dropped. -/
  state : Nat
  /-- STEP. -/
  step : Nat
  /-- GEN when the segment opened. -/
  gen : Nat
  /-- Records in write order. -/
  records : List JournalRecord
  deriving DecidableEq, Repr, Inhabited

/-- The memory system (06). -/
structure MemSys where
  /-- Device memory by physical address; an unlisted byte reads 0 (18 R509). -/
  mem : List Host.Cell := []
  /-- Poisoned 64-byte granules by number, ascending (R173). -/
  poison : List Nat := []
  /-- Granules recorded as uncorrectable (R172). -/
  recorded : List Nat := []
  /-- What the next read of a granule meets (R172), by granule: a granule that is not listed reads clean (environment,
  log 85). -/
  meets : List (Nat × EccOutcome) := []
  /-- Translation table (R160). -/
  tt : Map (BitVec 64) := []
  /-- REGION_CLASS of region r; 0 HASHED, 1 RANGED. -/
  regionClass : Map Nat := []
  /-- Channel-table entries that differ from the table built at reset (R168). -/
  channelTable : Map Nat := []
  /-- The stacks. -/
  stackTab : Map Stack := []
  /-- The pseudo-channels. -/
  channels : Map Channel := []
  /-- Scale table (07 R199). -/
  scale : Map ScaleEntry := []
  deriving DecidableEq, Repr, Inhabited

/-! ### Host ports and queues (08) -/

/-- A queue (R228). -/
structure Queue where
  /-- SQ_BASE. -/
  sqBase : Nat := 0
  /-- CQ_BASE. -/
  cqBase : Nat := 0
  /-- RINGSZ. -/
  ringsz : Nat := 0
  /-- IV. -/
  iv : Nat := 0
  /-- IEN. -/
  ien : Bool := false
  /-- COAL_CNT. -/
  coalCnt : Nat := 0
  /-- COAL_TIME. -/
  coalTime : Nat := 0
  /-- EN. -/
  en : Bool := false
  /-- GEN, 8 bits. -/
  gen : Nat := 0
  /-- STATE: 0 DISABLED, 1 RUNNING, 2 STOPPED, 3 FROZEN. -/
  state : Nat := 0
  /-- STOPWHY. -/
  stopwhy : Nat := 0
  /-- ESTATUS. -/
  estatus : Nat := 0
  /-- SQ_HEAD. -/
  sqHead : Nat := 0
  /-- Accepted TAIL. -/
  tail : Nat := 0
  /-- Last accepted doorbell (R230). -/
  doorbell : Nat := 0
  /-- CQ_NEXT. -/
  cqNext : Nat := 0
  /-- PHASE of the next completion entry. -/
  phase : Bool := true
  /-- Completion entries that no interrupt has covered (R225). -/
  uncovered : Nat := 0
  /-- TAG of the last descriptor completed (12 R362). -/
  lastTag : Nat := 0
  /-- The last 4 descriptors fetched, newest first (13 R412). -/
  lastDescs : List Desc := []
  deriving DecidableEq, Repr, Inhabited

/-- What a started descriptor waits for. -/
inductive Waits where
  /-- Nothing: it completes as it starts. -/
  | now
  /-- Its program's exit records (05 R152). -/
  | launch (id : Nat)
  /-- STEP_OPEN (R244): the step and STEPREC. -/
  | stepBegin (step : Nat) (recVa : Nat)
  /-- STEP_COMPUTED (R245). -/
  | stepEnd (step : Nat)
  /-- Earlier descriptors (R237): scope 1 is the partition. -/
  | fence (scope : Bool)
  /-- A condition (R248). -/
  | cond (cond : Nat) (ctr : Nat) (value : Nat)
  /-- A collective of the transport engine (10 R314). -/
  | coll (id : Nat)
  /-- An RMA it originated (10 R312). -/
  | rma (msg : Nat)
  /-- A capture point (12 R370). -/
  | snapshot
  /-- A drain (10 R321). -/
  | drain (msg : Nat)
  /-- A restore's fill or its storage transfer (12 R380). -/
  | restore
  /-- A field test (13 R393). -/
  | test (unit : Nat)
  /-- Journal space for the JIN bytes (R256). -/
  | inputSpace (src dst len : Nat)
  /-- Undo-journal space for its writes (07 R211), with the input-journal bytes of a replayed COPY. -/
  | undoSpace (input : Option Blob)
  deriving DecidableEq, Repr, Inhabited

/-- A started descriptor that has not completed (R249). -/
structure Flight where
  /-- Start order in the partition. -/
  seq : Nat
  /-- Queue. -/
  q : Nat
  /-- Ring index. -/
  didx : Nat
  /-- QGEN under which it was fetched. -/
  qgen : Nat
  /-- The descriptor. -/
  desc : Desc
  /-- The step it belongs to (R252). -/
  step : Option Nat
  /-- What completes it. -/
  waits : Waits
  /-- The replay runs it: no completion entry and no SIGEN (R256). -/
  replay : Bool := false
  /-- The host link has gone down since it started: its completion entry is discarded (R259). -/
  lost : Bool := false
  /-- Descriptors of the partition that had started and not completed as it started, by start order. -/
  conc : List Nat := []
  deriving DecidableEq, Repr, Inhabited

/-- The Speush mailbox of a host port (17 R491). -/
structure Mailbox where
  /-- MB_CMD. -/
  cmd : Nat := 0
  /-- MB_LEN. -/
  len : Nat := 0
  /-- MB_BUSY. -/
  busy : Bool := false
  /-- MB_RESULT. -/
  result : Nat := 0
  /-- MB_RLEN. -/
  rlen : Nat := 0
  /-- MB_REQ by byte. -/
  req : Map Byte := []
  /-- MB_RSP. -/
  rsp : Bytes := []
  deriving DecidableEq, Repr, Inhabited

/-- State of a host port's IDE stream (08 R227). -/
inductive Ide where
  /-- No stream keyed. -/
  | off
  /-- Secure. -/
  | secure
  /-- Insecure. -/
  | insecure
  deriving DecidableEq, Repr, Inhabited

/-- The configuration space of a host port's function, as far as R217 and R221 give it; its layout is PCI Express's own,
and no row of the table writes it (log 86). -/
structure ConfigSpace where
  /-- Class code. -/
  classCode : Nat := 0x120000
  /-- Maximum payload size, in bytes. -/
  maxPayload : Nat := 512
  /-- Maximum read request size, in bytes. -/
  maxRead : Nat := 4096
  /-- Outstanding non-posted requests. -/
  tags : Nat := 4096
  /-- Size of BAR4 as a power of two: 30 to 41. -/
  bar4Log : Nat := 34
  /-- The function is in D3hot. -/
  d3hot : Bool := false
  /-- Errors that Advanced Error Reporting holds, by their PCI Express numbers. -/
  aer : List Nat := []
  deriving DecidableEq, Repr, Inhabited

/-- A host port (08, 17 R482). -/
structure HostPort where
  /-- Its configuration space. -/
  cfg : ConfigSpace := {}
  /-- The last training found a link partner that cannot train in FLIT mode: the port stays in Detect (R218). -/
  noFlit : Bool := false
  /-- The IDE stream covers every TLP, configuration requests among them (R227). -/
  ideAll : Bool := false
  /-- Its queues. -/
  queues : Map Queue := []
  /-- Started descriptors. -/
  flights : List Flight := []
  /-- Link up. -/
  linkUp : Bool := false
  /-- Frozen (15 R465). -/
  frozen : Bool := false
  /-- IDE stream. -/
  ide : Ide := .off
  /-- SPDM sessions open on the DOE mailbox (15 R460). -/
  sessions : Nat := 0
  /-- MSI-X table and PBA words by offset (R224). -/
  msix : Map Nat := []
  /-- UNLOCK armed (17 R484). -/
  armed : Bool := false
  /-- Indirect address (17 R487). -/
  indAddr : Nat := 0
  /-- AUTOINC. -/
  autoInc : Bool := false
  /-- ERR. -/
  indErr : Nat := 0
  /-- Latched high word (09 R292). -/
  latch : Nat := 0
  /-- Offset of the low word whose high word is latched. -/
  latchOff : Nat := 0
  /-- Value of the last read answered (log 6). -/
  rdata : Nat := 0
  /-- ASYNC_CAUSE. -/
  asyncCause : Nat := 0
  /-- ASYNC_MASK. -/
  asyncMask : Nat := 63
  /-- EVR_RD_SEQ. -/
  rdSeq : Nat := 0
  /-- EVR_RD_DATA. -/
  rdRecord : Bytes := []
  /-- EVR_RD_STAT. -/
  rdStat : Nat := 0
  /-- Mailbox. -/
  mailbox : Mailbox := {}
  deriving DecidableEq, Repr, Inhabited

/-! ### Steps, proof and slice (11) -/

/-- A step the partition holds (11 R328, 08 R247). -/
structure StepRec where
  /-- Step number. -/
  step : Nat
  /-- STATE: 1 OPEN, 2 COMPUTED, 3 PROVEN, 5 FAILED. -/
  state : Nat
  /-- STEPREC. -/
  recVa : Nat
  /-- Writes of the record. -/
  seq : Nat := 0
  /-- FLAGS.REPLAYED. -/
  replayed : Bool := false
  /-- FLAGS.SNAPSHOT_FALLBACK. -/
  fallback : Bool := false
  /-- REASON. -/
  reason : Nat := 0
  /-- Mirror ordinals written by the step's OPTIMs (07 R206). -/
  digestSet : List Nat := []
  /-- Mirror portions sent (11 R339). -/
  portions : Nat := 0
  /-- OPTIMs of the step so far (11 R339). -/
  optims : Nat := 0
  /-- SEAL sent. -/
  sealed : Bool := false
  deriving DecidableEq, Repr, Inhabited

/-- A logged descriptor of the replay log (08 R256). -/
structure Logged where
  /-- Start order in the partition. -/
  seq : Nat
  /-- Step. -/
  step : Nat
  /-- Host port and queue that started it. -/
  hp : Nat
  /-- Queue. -/
  q : Nat
  /-- The descriptor. -/
  desc : Desc
  /-- Input-journal bytes when JIN was set, with their poison. -/
  input : Option Blob
  /-- Descriptors of the partition that had started and not completed as it started, by start order. -/
  conc : List Nat
  deriving DecidableEq, Repr, Inhabited

/-- A digest exchanged for a step (11 R341). -/
structure DigestVal where
  /-- Step. -/
  step : Nat
  /-- SUB: 0 owner, 1 facing page. -/
  sub : Nat
  /-- Own (true) or received (false). -/
  own : Bool
  /-- Digest. -/
  value : BitVec 64
  /-- Page count. -/
  pages : Nat
  /-- POISON. -/
  poison : Bool
  deriving DecidableEq, Repr, Inhabited

/-- A strike entry (11 R347). -/
structure StrikeEntry where
  /-- Rank. -/
  rank : Nat
  /-- HEALTH. -/
  health : Bool
  /-- OBSERVE. -/
  observe : Bool
  /-- SUSPECT. -/
  suspect : Bool
  /-- Reason. -/
  reason : Nat
  deriving DecidableEq, Repr, Inhabited

/-- The STOPPRESS data of R347. -/
structure StopMsg where
  /-- STEP. -/
  step : Nat
  /-- REASON. -/
  reason : Nat
  /-- FLAGS bit 0. -/
  applied : Bool
  /-- FLAGS bit 1. -/
  fallback : Bool
  /-- FLAGS bit 2. -/
  hold : Bool
  /-- PROVEN_TO. -/
  provenTo : Nat
  /-- ORIGIN. -/
  origin : Nat
  /-- ROUND. -/
  round : Nat
  /-- ORANK. -/
  orank : Nat
  /-- Strike entries. -/
  strikes : List StrikeEntry
  deriving DecidableEq, Repr, Inhabited

/-- A decision round (11 R348 to R351). -/
structure Round where
  /-- Generation in force when its first STOP was accepted. -/
  gen : Nat
  /-- Round number. -/
  no : Nat
  /-- The root of the round. -/
  root : Nat
  /-- Lowest STOP held. -/
  chosen : StopMsg
  /-- Union of the strike lists held. -/
  strikes : List StrikeEntry
  /-- STOPs accepted in the round. -/
  seen : List StopMsg
  /-- REPORTs collected, by rank. -/
  reports : List (Nat × StopMsg)
  /-- Its root has sent the DECISION. -/
  decided : Bool := false
  deriving DecidableEq, Repr, Inhabited

/-- A mirror portion (11 R339, R340). -/
structure Portion where
  /-- Step. -/
  step : Nat
  /-- OPTIM ordinal in the step. -/
  optim : Nat
  /-- Parameter block. -/
  block : Bytes
  /-- Clip factor. -/
  clip : BitVec 32
  /-- Copy scale. -/
  q : BitVec 32
  /-- FIRST. -/
  first : Nat
  /-- COUNT. -/
  count : Nat
  /-- Gradient bytes held by the sender, or received so far at the facing page (by staging offset). -/
  got : Map Byte
  /-- Bytes received. -/
  landed : Nat
  deriving DecidableEq, Repr, Inhabited

/-- The mirror machinery (11 R338 to R343). -/
structure Mirror where
  /-- Own MIRRORED pages by ordinal (VPN). -/
  ordinals : List Nat := []
  /-- Portions to send, the first awaiting DONE. -/
  out : List Portion := []
  /-- Whether the first of them has been sent. -/
  outSent : Bool := false
  /-- Portion being received. -/
  inp : Option Portion := none
  /-- GRAD bytes that landed before their OPEN came by another plane (R340). -/
  early : Nat := 0
  /-- MIR_PAGES of the facing rank, where it differs from the own (R338, log 23). -/
  farPages : Option Nat := none
  /-- MIR_GPAGES of the facing rank, where it differs from the own (R339, log 23). -/
  farGpages : Option Nat := none
  /-- MIRRORED pages of the facing rank by ordinal, where they differ from the own (R338, log 23). -/
  farOrdinals : Option (List Nat) := none
  /-- Pages of the facing rank that the mirror window holds: the count of its last verified fill set (R343). -/
  held : Nat := 0
  /-- Portions applied, per step. -/
  applied : Map Nat := []
  /-- Facing digest sets, per step: mirror ordinals written. -/
  facingSet : Map (List Nat) := []
  /-- SEAL counts received, per step. -/
  sealedAt : Map Nat := []
  /-- SCALE records pending for the shadow: step, entry index, MAX_NAN, MAX, NEWSCALE. -/
  pendingScale : List (Nat × Nat × Bool × BitVec 32 × BitVec 32) := []
  /-- Digests. -/
  digests : List DigestVal := []
  /-- The scale shadow's entries (R342). -/
  shadow : Map ScaleEntry := []
  /-- State transfer: page ordinals received since its start. -/
  xferPages : List Nat := []
  /-- State transfer: scale bytes received, by range offset. -/
  xferScale : Map Byte := []
  /-- State transfer: fill pages received while the restore set is owed, by ADDR: they land once the fill set proves to
  be that of a partner that has verified the restore set (R343, log 23). -/
  xferWaits : List (Nat × Blob) := []
  /-- Digest, count of pages and CRC of the restore set sent, which the partner's fill set must equal (R343). -/
  restoreSum : Option (Nat × Nat × Nat) := none
  /-- A restore set is expected first (R343). -/
  wantRestore : Bool := false
  /-- The facing rank was struck or changed: it is owed a restore set (R343). -/
  owes : Bool := false
  /-- That restore set has been sent. -/
  restoreSent : Bool := false
  /-- Own fill set sent. -/
  fillSent : Bool := false
  /-- Partner's fill set verified. -/
  fillDone : Bool := false
  deriving DecidableEq, Repr, Inhabited

/-- The step and proof state of a partition (08 R244 to R257, 11). -/
structure Proof where
  /-- W in force. -/
  w : Nat := 2
  /-- W_NEXT. -/
  wNext : Nat := 2
  /-- SAMPLE_K as written. -/
  sampleK : Nat := 7
  /-- k applied at the last STEP_BEGIN. -/
  kNow : Nat := 7
  /-- OBSERVE. -/
  observe : Bool := false
  /-- SLICE_STATE. -/
  slice : Nat := 0
  /-- LAST_REASON. -/
  lastReason : Nat := 0
  /-- PHASE. -/
  phase : Nat := 0
  /-- ROUND of the last decision. -/
  lastRound : Nat := 0
  /-- The open step. -/
  openStep : Option Nat := none
  /-- LAST_COMPUTED. -/
  lastComputed : Nat := 0
  /-- LAST_PROVEN. -/
  lastProven : Nat := 0
  /-- LAST_RETIRED. -/
  lastRetired : Nat := 0
  /-- Steps held. -/
  steps : List StepRec := []
  /-- The step that the next STEP_BEGIN must name. -/
  nextStep : Nat := 0
  /-- A STEP_BEGIN has started since the last restart. -/
  begun : Bool := false
  /-- The open step's latest PHASE: whether MBB was set, and its MBATCH; none directly after STEP_BEGIN. -/
  mbb : Option (Bool × Nat) := none
  /-- STEP_END has stopped the open step's further starts (R245). -/
  ending : Bool := false
  /-- Negative event since the last restart (R333). -/
  negative : Bool := false
  /-- Own FALLBACK condition (R351). -/
  fallback : Bool := false
  /-- Own HOLD condition (19 R533). -/
  hold : Bool := false
  /-- The run that this replay repeats failed with STRICT at these steps (19 R533). -/
  strictFailed : List Nat := []
  /-- Replay log (08 R256). -/
  log : List Logged := []
  /-- Start order from which the log has still to be replayed. -/
  replayed : Nat := 0
  /-- Start order at which the replay ends: nothing that starts after it began is part of it. -/
  replayTo : Nat := 0
  /-- Captures to recompute (R336). -/
  captures : List Capture := []
  /-- SAMPLED. -/
  sampled : Nat := 0
  /-- SAMPLE_SKIPPED. -/
  sampleSkipped : Nat := 0
  /-- SAMPLE_MISMATCH. -/
  sampleMismatch : Nat := 0
  /-- STOPS_SENT. -/
  stopsSent : Nat := 0
  /-- STOPS_ACCEPTED. -/
  stopsAccepted : Nat := 0
  /-- RESTARTS. -/
  restarts : Nat := 0
  /-- The decision round. -/
  round : Option Round := none
  /-- The DECISION applied in the current restart (R351, APPLIED). -/
  appliedDecision : Option StopMsg := none
  /-- Uptimes in ns of the health strikes applied (R354). -/
  strikeTimes : List Nat := []
  /-- UP votes received: (step, rank). -/
  ups : List (Nat × Nat) := []
  /-- Steps for which UP was sent. -/
  upSent : List Nat := []
  /-- Neighbours whose PULSE was received since the restart (R344). -/
  heard : List Nat := []
  /-- Units that asked for a health-driven strike and score 256 or more since (R354). -/
  healthUnits : List Nat := []
  /-- UNREACHABLE was the reason of the previous decision (R355). -/
  unreachable : Bool := false
  /-- The restart in progress loaded an imposition (R355). -/
  newImp : Bool := false
  /-- ROLLBACK ends in HOLD (R355). -/
  toHold : Bool := false
  deriving DecidableEq, Repr, Inhabited

/-- A rank entry (10 R299). -/
structure RankEntry where
  /-- DEVID. -/
  devid : Nat
  /-- FACING. -/
  facing : Nat
  /-- PLANES. -/
  planes : Nat
  deriving DecidableEq, Repr, Inhabited

/-- A port entry (10 R300). -/
structure PeerEntry where
  /-- ID. -/
  id : Nat
  /-- PORT. -/
  port : Nat
  /-- KIND; 0xFF for none. -/
  kind : Nat
  deriving DecidableEq, Repr, Inhabited

/-- A loaded imposition (10 R298). -/
structure Imposition where
  /-- SLICE_ID. -/
  slice : Nat
  /-- EPOCH. -/
  epoch : Nat
  /-- STRIKE_BUDGET. -/
  budget : Nat
  /-- SLICE_CRC. -/
  crc : Nat
  /-- Rank entries. -/
  ranks : List RankEntry
  /-- Port entries PORT0 to PORT31. -/
  ports : List PeerEntry
  /-- Families with STRIDE and SIZE. -/
  families : Map (Nat × Nat)
  /-- Bytes of the member part (R302, check 10). -/
  member : Bytes
  deriving DecidableEq, Repr, Inhabited

/-- A packet held for a newer generation (10 R305). -/
structure Held where
  /-- Port. -/
  port : Nat
  /-- PTYPE. -/
  ptype : Nat
  /-- The packet. -/
  pk : Packet
  /-- Receive buffers that it occupies (09 R270); 0 for one that a packet row brought. -/
  flits : Nat
  /-- It has been held at the head of its channel for its newer generation (R305). -/
  newer : Bool := false
  deriving DecidableEq, Repr, Inhabited

/-- A collective (10 R314 to R316). -/
structure Coll where
  /-- Identity. -/
  id : Nat
  /-- Family. -/
  family : Nat
  /-- Position k in the family. -/
  pos : Nat
  /-- The descriptor. -/
  desc : Desc
  /-- Step it belongs to. -/
  step : Option Nat
  /-- Ranks whose matching COLL_READY is held. -/
  ready : List Nat
  /-- Data has been sent. -/
  sent : Bool
  /-- A mismatch was seen (R314). -/
  mismatch : Bool
  /-- Contributions received: rank, then bytes by offset. -/
  data : List (Nat × Nat × Byte)
  /-- Contributions poisoned: rank and offset. -/
  poison : List (Nat × Nat)
  deriving DecidableEq, Repr, Inhabited

/-- COLL_READY received before the own COLLECTIVE started, by family. -/
structure EarlyReady where
  /-- Family. -/
  family : Nat
  /-- Sending rank. -/
  rank : Nat
  /-- Position k of the sender's collective on the family. -/
  pos : Nat
  /-- CSEQ. -/
  cseq : Nat
  /-- Data bytes. -/
  data : Bytes
  deriving DecidableEq, Repr, Inhabited

/-- An RMA (10 R312). -/
structure Rma where
  /-- Message ID. -/
  msg : Nat
  /-- Peer rank. -/
  peer : Nat
  /-- Originator here (true) or target (false). -/
  origin : Bool
  /-- PUT (true) or GET (false). -/
  isPut : Bool
  /-- Local range start, and the remote start for an originator. -/
  addr : Nat
  /-- Remote address (originator). -/
  remote : Nat
  /-- Bytes. -/
  count : Nat
  /-- Bytes landed or sent. -/
  done : Nat
  /-- Poison moved. -/
  poison : Bool
  /-- DVC. -/
  vc : Nat
  deriving DecidableEq, Repr, Inhabited

/-- A drain (10 R321 to R323). -/
structure Drain where
  /-- MSG of its messages. -/
  msg : Nat
  /-- Slot, 0 A or 1 B. -/
  slot : Nat
  /-- OBJECT. -/
  object : Nat
  /-- Selected ports. -/
  ports : List Nat
  /-- Ports whose DR_READY is held. -/
  ready : List Nat
  /-- Chunks of the object. -/
  chunks : Nat
  /-- Next chunk to send. -/
  next : Nat
  /-- Chunks sent and not durable: chunk and port. -/
  flying : List (Nat × Nat)
  /-- Manifest sent. -/
  manifest : Bool
  /-- D. -/
  share : Nat
  /-- Started by a DRAIN descriptor (false: automatic). -/
  byDesc : Bool
  deriving DecidableEq, Repr, Inhabited

/-- A restore in progress (12 R378 to R380). -/
structure Restoring where
  /-- From storage. -/
  storage : Bool
  /-- OBJECT. -/
  object : Nat
  /-- MSG of its requests (log 26). -/
  msg : Nat := 0
  /-- Manifest bytes once held. -/
  manifest : Option Bytes
  /-- Object bytes received. -/
  data : List Host.Cell
  /-- Poisoned 64-byte units of them, ascending (10 R297). -/
  bad : List Nat := []
  /-- Chunks completed. -/
  chunks : Nat
  /-- Waiting for the partner's fill. -/
  filling : Bool
  deriving DecidableEq, Repr, Inhabited

/-- The transport engine of a partition (10). -/
structure Xport where
  /-- Loaded imposition. -/
  imp : Option Imposition := none
  /-- RESULT. -/
  result : Nat := 0
  /-- IMP_VA. -/
  impVa : Nat := 0
  /-- IMP_ARM. -/
  arm : Bool := false
  /-- Epoch. -/
  epoch : Nat := 0
  /-- Reprint count. -/
  reprint : Nat := 0
  /-- RANK. -/
  rank : Nat := 0
  /-- ACTIVE_PLANES. -/
  active : Nat := 0
  /-- PLANES has been sent in this restart (R308). -/
  planesSent : Bool := false
  /-- ACTIVE set reported by each rank in this restart. -/
  peers : Map Nat := []
  /-- DROP_TYPE. -/
  dropType : Nat := 0
  /-- DROP_ADDR. -/
  dropAddr : Nat := 0
  /-- DROP_TAG. -/
  dropTag : Nat := 0
  /-- DROP_GEN. -/
  dropGen : Nat := 0
  /-- HELD_GEN. -/
  heldGen : Nat := 0
  /-- REFUSED. -/
  refused : Nat := 0
  /-- XP_NAN. -/
  xpNan : Nat := 0
  /-- XP_INF. -/
  xpInf : Nat := 0
  /-- XP_SAT. -/
  xpSat : Nat := 0
  /-- Kinds of drop already recorded in this generation: 1 TYPE, 2 ADDR, 3 TAG, 4 GEN. -/
  dropsSeen : List Nat := []
  /-- Held packets. -/
  held : List Held := []
  /-- COLLECTIVEs started since the restart, per family. -/
  collCount : Map Nat := []
  /-- Collectives open. -/
  colls : List Coll := []
  /-- COLL_READY received early. -/
  early : List EarlyReady := []
  /-- RMAs open. -/
  rmas : List Rma := []
  /-- The transport watchdog has fired: the engine is reset in the ensuing ROLLBACK (13 R402). -/
  needReset : Bool := false
  /-- Next message ID or collective identity. -/
  nextMsg : Nat := 0
  /-- COLL_READYs received per family and rank since the restart: the sender's position. -/
  readyCount : List (Nat × Nat × Nat) := []
  deriving DecidableEq, Repr, Inhabited

/-! ### Snapshots (12) -/

/-- A page of a snapshot slot (12 R365). -/
structure SnapPage where
  /-- VPN. -/
  vpn : Nat
  /-- Physical page at the capture point (R372). -/
  ppn : Nat
  /-- Directory FLAGS. -/
  flags : Nat
  /-- Copied bit. -/
  copied : Bool
  /-- Bytes that are not 0, by offset. -/
  page : List Host.Cell
  /-- Poisoned granules. -/
  poison : List Nat
  deriving DecidableEq, Repr, Inhabited

/-- The state sections of a snapshot (12 R362). -/
structure SnapState where
  /-- CORES: the logical cores with their units. -/
  cores : Map (Core × Units) := []
  /-- QUEUES: SQ_HEAD, GEN, TAG of each queue. -/
  queues : Map (Nat × Nat × Nat) := []
  /-- QUEUES: EC0 to EC63. -/
  ec : Map (BitVec 64) := []
  /-- SCALE: the partition's range, by index in the range. -/
  scale : Map ScaleEntry := []
  /-- STEP: the open step with the ordinals of D(open step) recorded so far. -/
  open_ : Option StepRec := none
  /-- STEP: the last PROVEN step. -/
  lastProven : Nat := 0
  /-- STEP: W. -/
  w : Nat := 0
  /-- STEP: SAMPLE_K as written. -/
  sampleK : Nat := 0
  /-- STEP: k applied at the last STEP_BEGIN. -/
  kNow : Nat := 0
  /-- STEP: OBSERVE. -/
  observe : Bool := false
  /-- STEP: the latest PHASEID. -/
  phase : Nat := 0
  /-- STEP: whether that PHASE had MBB, and its MBATCH; none directly after STEP_BEGIN. -/
  mbb : Option (Bool × Nat) := none
  /-- STEP: epoch. -/
  epoch : Nat := 0
  /-- STEP: reprint count. -/
  reprint : Nat := 0
  /-- UNDO: the open step's segments. -/
  undo : List JournalSeg := []
  /-- INPUT: the open step's replay-log entries with their input-journal bytes. -/
  log : List Logged := []
  /-- SAMPLE: the open step's captures that have not been recomputed. -/
  captures : List Capture := []
  deriving DecidableEq, Repr, Inhabited

/-- A snapshot slot (12 R366, R368). -/
structure Slot where
  /-- STATE: 0 EMPTY, 1 COPYING, 2 PROVISIONAL, 3 COMMITTED. -/
  state : Nat := 0
  /-- SEQ. -/
  seq : Nat := 0
  /-- KIND: QUIESCE. -/
  quiesce : Bool := false
  /-- MODE: COW. -/
  cow : Bool := false
  /-- STEP. -/
  step : Nat := 0
  /-- EPOCH. -/
  epoch : Nat := 0
  /-- REPRINT. -/
  reprint : Nat := 0
  /-- W. -/
  w : Nat := 0
  /-- RANK. -/
  rank : Nat := 0
  /-- SLICE. -/
  slice : Nat := 0
  /-- DEVID. -/
  devid : Nat := 0
  /-- MBATCH. -/
  mbatch : Nat := 0
  /-- Drain once committed. -/
  autoDrain : Bool := false
  /-- DFRAC of the automatic drain. -/
  dfrac : Nat := 0
  /-- The pages. -/
  pages : List SnapPage := []
  /-- The state sections. -/
  body : Option SnapState := none
  /-- Places of the slot whose bytes no longer verify (R368, R380): 0 the commit record or a portion header, from 1 its
  pages, then its sections (environment, log 85). -/
  spoiled : List Nat := []
  deriving DecidableEq, Repr, Inhabited

/-- The snapshot machinery of a partition (12). -/
structure Snap where
  /-- Slot A. -/
  a : Slot := {}
  /-- Slot B. -/
  b : Slot := {}
  /-- The SNAPSHOT waiting for its capture point: COW, QUIESCE, AUTODRAIN, DFRAC, internal. -/
  held : Option (Bool × Bool × Bool × Nat × Bool) := none
  /-- Uptime in ns of the last capture. -/
  lastCapture : Nat := 0
  /-- PREC_ARMED. -/
  armed : Bool := false
  /-- SKIPPED. -/
  skipped : Nat := 0
  /-- DRAIN_STATUS. -/
  drainStatus : Nat := 0
  /-- Drains in progress. -/
  drains : List Drain := []
  /-- Restore in progress. -/
  restoring : Option Restoring := none
  /-- RQ_HEAD, RQ_GEN, RQ_TAG. -/
  rq : Map (Nat × Nat × Nat) := []
  deriving DecidableEq, Repr, Inhabited

/-- A partition (01 R20). -/
structure Part where
  /-- PSTATE: 0 BOOTING, 1 INIT, 2 STARTED, 3 ARRIVING, 4 PASSED, 5 BLOCKED (18 R522). -/
  pstate : Nat := 0
  /-- BAR_FAIL. -/
  barFail : Nat := 0
  /-- BLOCKED by R511. -/
  modeBlocked : Bool := false
  /-- EC0 to EC63 (08 R236). -/
  ec : Map (BitVec 64) := []
  /-- Steps and proof. -/
  proof : Proof := {}
  /-- Transport engine. -/
  xport : Xport := {}
  /-- Mirroring. -/
  mirror : Mirror := {}
  /-- Snapshots. -/
  snap : Snap := {}
  /-- Undo journal segments (07 R209). -/
  journal : List JournalSeg := []
  /-- Poison log: granule-aligned physical addresses (06 R174). -/
  plog : List Nat := []
  /-- PLOG_OVERFLOW. -/
  plogOvf : Bool := false
  /-- Consumptions counted while the poison log was full (06 R174). -/
  plogLost : Nat := 0
  /-- Pages declared unrepairable in this restart. -/
  unrepairable : List Nat := []
  /-- Granules that a ROLLBACK has left poisoned for the replay to rewrite (06 R175, rule 2), by address. -/
  leftPoison : List Nat := []
  /-- Those of them that have been consumed again since. -/
  again : List Nat := []
  /-- Translation update in progress. -/
  tt : Option TtUpdate := none
  /-- TT_STATUS. -/
  ttStatus : Nat := 0
  /-- SCT_STATUS. -/
  sctStatus : Nat := 0
  /-- SCT_DATA: the entry last loaded. -/
  sctData : ScaleEntry := {}
  /-- Requested operating point (14 R424). -/
  opReq : Nat := 7
  /-- Point to which R433 has stepped the partition down. -/
  opCap : Nat := 7
  /-- A PHASE has started since the last restart (14 R424). -/
  phased : Bool := false
  /-- Grants blocked by R433. -/
  grantHold : Bool := false
  /-- Descriptors started, for R252's order. -/
  started : Nat := 0
  deriving DecidableEq, Repr, Inhabited

/-! ### Jilan ports (09) -/

/-- A lane (09 R286 to R292). -/
structure Lane where
  /-- LSTATE: 0 active, 1 standby, 2 retired, 3 untrained. -/
  lstate : Nat := 0
  /-- LRTC. -/
  rtc : Nat := 0
  /-- Whether the next full window is the first after a retraining that took LRTC to 2. -/
  watch : Bool := false
  /-- Retirement wanted at the next retraining. -/
  condemned : Bool := false
  /-- This lane asked for the retraining in progress. -/
  asked : Bool := false
  /-- EYE. -/
  eye : Nat := 0
  /-- CW_CORR. -/
  cwCorr : Nat := 0
  /-- CW_UNCORR. -/
  cwUncorr : Nat := 0
  /-- SYM_CORR. -/
  symCorr : Nat := 0
  /-- BER_EST, FP32. -/
  ber : BitVec 32 := 0
  /-- Uncorrectable codewords in the score window (09 R289), times 1,024: they fall at each health tick as ACC does (13
  R394; log 87). -/
  recent : Nat := 0
  deriving DecidableEq, Repr, Inhabited

/-- The last IDENT received (09 R280). -/
structure IdentMsg where
  /-- KIND. -/
  kind : Nat
  /-- PORT. -/
  port : Nat
  /-- VMIN. -/
  vmin : Nat
  /-- VMAX. -/
  vmax : Nat
  /-- ROLE. -/
  role : Nat
  /-- ID. -/
  id : Nat
  /-- SLICE. -/
  slice : Nat
  /-- EPOCH. -/
  epoch : Nat
  /-- COLOPHON. -/
  colophon : Bytes
  deriving DecidableEq, Repr, Inhabited

/-- The link layer of a port (09 R268 to R274). -/
structure Link where
  /-- Sequence number of the next DATA flit sent. -/
  txSeq : Nat := 0
  /-- Replay buffer: DATA flits sent and not acknowledged, oldest first. -/
  replay : List (Nat × Flit) := []
  /-- Sequence number expected next. -/
  rxSeq : Nat := 0
  /-- Sequence number of the next DATA flit that arrives: those of a replay count from its REPLAY_START (R273). -/
  rxPos : Nat := 0
  /-- Discarding until a replay begins (R273). -/
  discarding : Bool := false
  /-- NAKs sent for the expected sequence number. -/
  naks : Nat := 0
  /-- Consecutive flits not valid. -/
  invalid : Nat := 0
  /-- A REPLAY_START was exchanged since RECOVER was entered. -/
  replayed : Bool := false
  /-- Buffers the partner advertises per VC. -/
  credit : Map Nat := []
  /-- CREDIT_INIT was received. -/
  creditInit : Bool := false
  /-- CREDIT_INIT was sent. -/
  creditSent : Bool := false
  /-- DATA flits sent per VC since training. -/
  sent : Map Nat := []
  /-- Latest cumulative freed count received per VC, modulo 1,024. -/
  freed : Map Nat := []
  /-- Own buffers freed per VC, modulo 1,024. -/
  ownFreed : Map Nat := []
  /-- Next CRVC of the rotation. -/
  crvc : Nat := 0
  /-- The virtual channel of VC3 to VC7 that the round-robin of R268 served last. -/
  rr : Nat := 7
  /-- DATA flits waiting to be sent, in order, with their VC. -/
  txq : List (Nat × Flit) := []
  /-- Payload ranges of the packet being assembled per VC, with poison bits. -/
  asm : Map (List (Bytes × Nat)) := []
  deriving DecidableEq, Repr, Inhabited

/-- A Jilan port (09 R277, R292). -/
structure Port where
  /-- STATE. -/
  state : Nat := 0
  /-- The state that RECOVER or RETRAIN was entered from. -/
  from_ : Nat := 0
  /-- QREASON. -/
  qreason : Nat := 0
  /-- WIDTH. -/
  width : Nat := 0
  /-- VERSION. -/
  version : Nat := 0
  /-- Signal present per lane. -/
  signal : BitVec 8 := 0
  /-- FEC aligned per lane. -/
  aligned : BitVec 8 := 0
  /-- LANE_MAP agreed. -/
  mapAgreed : Bool := false
  /-- Active lanes. -/
  activeLanes : BitVec 8 := 0
  /-- Standby lanes. -/
  standby : BitVec 8 := 0
  /-- Retired lanes. -/
  retired : BitVec 8 := 0
  /-- The lanes. -/
  lanes : Map Lane := []
  /-- Last IDENT received. -/
  peer : Option IdentMsg := none
  /-- Last IDENT received before the retraining in progress (R278). -/
  peerBefore : Option IdentMsg := none
  /-- The window of R286 in progress began before the end of a retraining (R288). -/
  midWindow : Bool := false
  /-- An IDENT has been received since IDENTIFY was entered (R282, check 1). -/
  gotIdent : Bool := false
  /-- IDSEQ of the last IDENT sent. -/
  idseq : Nat := 0
  /-- The identity bytes last sent. -/
  sentId : Bytes := []
  /-- Link layer. -/
  link : Link := {}
  /-- The epoch wait of R283 runs. -/
  epochWait : Bool := false
  /-- RETRAIN_REQ sent, with its reason. -/
  retrainAsked : Option Nat := none
  /-- An error-driven retraining waits for STEP_END (R285). -/
  deferred : Bool := false
  /-- Frozen (10 R325). -/
  frozen : Bool := false
  /-- JP_ERR. -/
  err : Nat := 0
  /-- CRC_ERR. -/
  crcErr : Nat := 0
  /-- NAK_TX. -/
  nakTx : Nat := 0
  /-- NAK_RX. -/
  nakRx : Nat := 0
  /-- REPLAYED. -/
  replayedCnt : Nat := 0
  /-- RECOVERS. -/
  recovers : Nat := 0
  /-- RETRAINS. -/
  retrains : Nat := 0
  /-- LINK_LOSSES. -/
  linkLosses : Nat := 0
  /-- TX_FLITS. -/
  txFlits : Nat := 0
  /-- RX_FLITS. -/
  rxFlits : Nat := 0
  /-- STALL per VC. -/
  stall : Map Nat := []
  /-- The next flit received fails its CRC (13 R393, kind 4). -/
  inject : Bool := false
  deriving DecidableEq, Repr, Inhabited

/-! ### Faults, power, management, recorder -/

/-- A crash dump (13 R409 to R413). -/
structure Dump where
  /-- DUMP_STATE: 0 EMPTY, 1 DUMPING, 2 HELD, 3 FLASHED. -/
  state : Nat := 0
  /-- Causes: unit code, trigger, reason, uptime offset in µs. -/
  causes : List (Nat × Nat × Nat × Nat) := []
  /-- Uptime in ns at the first cause. -/
  uptime : Nat := 0
  /-- Open step of the first cause's partition. -/
  step : Nat := 0
  /-- Generation of that partition. -/
  gen : Nat := 0
  /-- Partitions whose units are dumped; 7 for every unit. -/
  parts : List Nat := []
  /-- LENGTH of the last dump. -/
  length : Nat := 0
  /-- DUMP_SEQ. -/
  seq : Nat := 0
  /-- DUMP_SKIPPED. -/
  skipped : Nat := 0
  /-- Units recorded UNREADABLE in the last dump. -/
  unreadable : List Nat := []
  /-- Units whose domain was reset while the dump was in progress (R400). -/
  resetUnits : List Nat := []
  /-- The flash dump store. -/
  store : Bytes := []
  /-- FLASH_TRUNC. -/
  flashTrunc : Bool := false
  deriving DecidableEq, Repr, Inhabited

/-- A field test in progress (13 R389 to R392). -/
structure Test where
  /-- Unit code. -/
  unit : Nat
  /-- Blocks finished. -/
  blocks : Nat
  /-- Worst outcome so far: 0 pass, 1 transient, 2 confirmed. -/
  worst : Nat
  deriving DecidableEq, Repr, Inhabited

/-- Faults and health (13). -/
structure Faults where
  /-- ACC by unit code (R394, R407). -/
  acc : Map Nat := []
  /-- Remainders of the events counted in groups (R394), by unit code. -/
  rest : Map Nat := []
  /-- Logical cores with a requested substitution, their retiring core and whether a hard fault asked (01 R27). -/
  subst : List (Nat × Nat × Bool) := []
  /-- ACC as flash holds it (R397): written at each tick and before every reset that Speush can foresee. -/
  saved : Map Nat := []
  /-- Blocks of the boot self-test finished, by unit code (18 R510). -/
  bootTests : Map Nat := []
  /-- Next unit of the test rotation, 0 to 139. -/
  rotation : Nat := 0
  /-- Test running or waiting for its unit to be idle. -/
  test : Option Test := none
  /-- Tests that RUN asked for, in order. -/
  asked : List Nat := []
  /-- Units under observation that are due. -/
  due : List Nat := []
  /-- Tests completed since device-cold reset. -/
  completed : Nat := 0
  /-- Transient failures. -/
  transient : Nat := 0
  /-- Confirmed failures. -/
  confirmed : Nat := 0
  /-- Unit and outcome of the last test, and the uptime in ns at its end. -/
  last : Nat × Nat × Nat := (0, 0, 0)
  /-- TEST_STARVED. -/
  starved : Nat := 0
  /-- Uptime in ns at the end of the last boot period: recovery and core-reset times count on across device-cold
  resets (R406). -/
  base : Nat := 0
  /-- Times in ns, by `base` and the uptime, of device-level recoveries (R405). -/
  recov : List Nat := []
  /-- OUT_OF_SERVICE. -/
  oos : Bool := false
  /-- Dump engine. -/
  dump : Dump := {}
  deriving DecidableEq, Repr, Inhabited

/-- Power, clocks and thermal (14). -/
structure Power where
  /-- Pulse ratio k of galley g; 16 when not listed. -/
  k : Map Nat := []
  /-- Power leading of galley g. -/
  lead : Map Nat := []
  /-- Thermal leading of galley g. -/
  thermal : Map Nat := []
  /-- Leading in force of galley g (R432). -/
  total : Map Nat := []
  /-- Droop hold cycles left per galley (R434). -/
  droopHold : Map Nat := []
  /-- PSHARE_ACT. -/
  share : Map Nat := [(0, 256)]
  /-- PSHARE as staged (R427). -/
  staged : Map Nat := [(0, 256)]
  /-- VCORE_TGT in mV. -/
  target : Nat := 850
  /-- A raise waits for VCORE to settle: partition points are applied when it does (R425). -/
  raising : Bool := false
  /-- VCORE_MEAS in mV. -/
  meas : Nat := 0
  /-- G with 14 fraction bits (R428, R438). -/
  gain : Nat := 0x4000
  /-- P_EST. -/
  pEst : Nat := 0
  /-- I_EST. -/
  iEst : Nat := 0
  /-- Measured power of VMEM 1, VPHY 2 and VAUX 3, in W. -/
  rails : Map Nat := []
  /-- Estimate of each partition in the last period, in W / 2^22 (R427). -/
  partEst : Map Nat := []
  /-- A rail is silent: effective cap 90% and gain frozen (R422). -/
  silent : Bool := false
  /-- Grants blocked by R429. -/
  edcHold : Bool := false
  /-- PWR_STAT. -/
  stat : Nat := 0
  /-- DROOP_CNT. -/
  droops : Nat := 0
  /-- Sensors in 0.25 °C. -/
  sensors : Map Nat := []
  /-- An AVS command failed and is retried. -/
  avsPending : Bool := false
  /-- PHYs of I/O die x are disabled until a restart (R437). -/
  ioOff : List Nat := []
  deriving DecidableEq, Repr, Inhabited

/-- Fuses (15 R453, 17 R490); values of a deployed module by log 9. -/
structure Fuses where
  /-- STEPPING. -/
  stepping : Nat := 1
  /-- SERIAL. -/
  serial : Nat := 0
  /-- KEYHASH0 to KEYHASH3. -/
  keyhash : Map (BitVec 256) := []
  /-- KEYREVOKE. -/
  keyrevoke : Nat := 0
  /-- SVN_MIN thermometer. -/
  svnMin : BitVec 64 := 0
  /-- Lifecycle state. -/
  lifecycle : Nat := 2
  /-- VMIN[k] in mV, for k from 8 to 16. -/
  vmin : Map Nat := [(8, 600), (9, 630), (10, 660), (11, 690), (12, 720), (13, 750), (14, 780), (15, 800), (16, 850)]
  deriving DecidableEq, Repr, Inhabited

/-- What Speush keeps of a firmware slot (15 R454, R458). -/
structure FwSlot where
  /-- The slot holds the firmware it was manufactured with, which verifies (log 9). -/
  factory : Bool := true
  /-- Bytes written by an update, by offset. -/
  bytes : List Host.Cell := []
  /-- A FW_VERIFY has passed since the last write. -/
  verified : Bool := false
  deriving DecidableEq, Repr, Inhabited

/-- Speush and management (15). -/
structure Mgmt where
  /-- Primary: 0 on X0, 1 on X1. -/
  primary : Nat := 0
  /-- STANDBY_OK. -/
  standbyOk : Bool := false
  /-- SPEUSH_FAIL. -/
  fail : Bool := false
  /-- No controller is running. -/
  bothDown : Bool := true
  /-- Booted slot. -/
  slot : Nat := 0
  /-- PREF_FAILED. -/
  prefFailed : Bool := false
  /-- SVN of the booted slot. -/
  svn : Nat := 0
  /-- Firmware slots. -/
  fw : Map FwSlot := []
  /-- Internal heartbeats since boot (R439). -/
  beats : Nat := 0
  /-- OWNER in force. -/
  owner : Nat := 0
  /-- M0 and M1 link up. -/
  mup : Map Nat := []
  /-- MGR_HB frames counted per port. -/
  hbCount : Map Nat := []
  /-- Uptime in ns of the latest MGR_HB per port; none when none has come. -/
  hbTime : Map Nat := []
  /-- MGMT_LOST has been raised and no heartbeat has returned, per partition. -/
  lost : List Nat := []
  /-- Frames sent per port (R443 SEQ). -/
  txSeq : Map Nat := []
  /-- MGMT_AUTHFAIL. -/
  authFail : Nat := 0
  /-- Uptime in ns of the last MGMT_AUTHFAIL record. -/
  authTime : Option Nat := none
  /-- MGMT_DROP. -/
  drop : Nat := 0
  /-- Last accepted CTR. -/
  ctr : Nat := 0
  /-- Partition mode recorded with the substitution records (18 R511). -/
  recordedMode : Nat := 0
  /-- PMODE_NEXT. -/
  pmodeNext : Nat := 0
  /-- OWNER_NEXT. -/
  ownerNext : Nat := 0
  /-- BOOT_PREF. -/
  bootPref : Nat := 0
  /-- Measurements 1 to 7 in order, fixed from boot to the next device-cold reset (R459); none before the first boot. -/
  measures : List Bytes := []
  deriving DecidableEq, Repr, Inhabited

/-- An event record (16 R470). -/
structure Event where
  /-- SEQ. -/
  seq : Nat
  /-- UPTIME. -/
  uptime : Nat
  /-- STEP. -/
  step : Nat
  /-- EPOCH. -/
  epoch : Nat
  /-- REPRINT. -/
  reprint : Nat
  /-- SEV. -/
  sev : Nat
  /-- PART. -/
  part : Nat
  /-- INJECTED. -/
  injected : Bool
  /-- SOURCE. -/
  source : Nat
  /-- OPER. -/
  oper : Nat
  /-- EVENT. -/
  event : Nat
  /-- TEMP. -/
  temp : Nat
  /-- VCORE. -/
  vcore : Nat
  /-- REPEAT. -/
  rep : Nat
  /-- DETAIL. -/
  detail : Bytes
  /-- LASTDT. -/
  lastDt : Nat
  deriving DecidableEq, Repr, Inhabited

/-- The event recorder (16). -/
structure Recorder where
  /-- Flushed records, in SEQ order. -/
  flash : List Event := []
  /-- Pending records, in SEQ order. -/
  pending : List Event := []
  /-- SEQ_NEXT. -/
  seqNext : Nat := 0
  /-- DROPPED. -/
  dropped : Nat := 0
  /-- FROZEN. -/
  frozen : Bool := false
  /-- FROZEN_CNT. -/
  frozenCnt : Nat := 0
  /-- Highest severity counted in the freeze. -/
  frozenSev : Nat := 0
  /-- Uptime in ns at the start of the freeze. -/
  frozenAt : Nat := 0
  /-- MINSEV. -/
  minSev : Nat := 1
  /-- A CLEAR was cut off before its CLEARED record (R478). -/
  clearing : Bool := false
  deriving DecidableEq, Repr, Inhabited

/-- Where the device stands in its boot (18 R507, R512, R513, R517). -/
inductive BootStage where
  /-- In device-cold reset: RESET_N is low, or PWRFAIL_N holds it. -/
  | held
  /-- Boot stages 1 to 6 run. -/
  | booting
  /-- IDENT.READY is 1. -/
  | ready
  /-- Both firmware slots failed (15 R456). -/
  | recovery
  /-- REFCLK was lost or THERMTRIP_N is asserted: clocks stopped. -/
  | stopped
  deriving DecidableEq, Repr, Inhabited

/-- Pins, straps and boot (18). -/
structure Pins where
  /-- Boot stage. -/
  stage : BootStage := .booting
  /-- SMB_ADDR straps sampled. -/
  smbAddr : Nat := 0
  /-- RESET_N level. -/
  resetN : Bool := true
  /-- A device-cold reset by RESET_N waits for its STOP, dump and flush (R512). -/
  resetPending : Bool := false
  /-- PWRFAIL_N asserted: no new flash write but event records. -/
  pwrfail : Bool := false
  /-- THERMTRIP_N level. -/
  thermtripN : Bool := true
  /-- FAULT_N level. -/
  faultN : Bool := false
  /-- The next boot follows a power-up, not a reset. -/
  powerUp : Bool := true
  deriving DecidableEq, Repr, Inhabited

/-- What the device sends out (log 6). -/
inductive Out where
  /-- An MSI-X message of a host port. -/
  | msix (hp vector : Nat)
  /-- A transport packet: partition, plane or port, PTYPE, packet. -/
  | packet (part port ptype : Nat) (pk : Packet)
  /-- An LCTL or IDLE flit, which takes no sequence number (09 R272): port, flit. -/
  | lctl (port : Nat) (f : Flit)
  /-- A DATA flit: port, sequence number, flit. -/
  | flit (port seq : Nat) (f : Flit)
  /-- A management frame: port, header and body (15 R443). -/
  | frame (port : Nat) (bytes : Bytes)
  /-- A RESPONSE frame, to the source of its command (15 R444): port, header and body. -/
  | response (port : Nat) (bytes : Bytes)
  /-- A DOE response of a host port. -/
  | doe (hp : Nat) (resp : Bytes)
  /-- An MCTP response on the SMBus. -/
  | mctp (resp : Bytes)
  /-- Bytes of a write to a host that went as poisoned TLPs (08 R219): host port, address, length. -/
  | poisonedTlp (hp addr len : Nat)
  /-- A BAR4 read answered: data, poisoned. -/
  | bar4 (hp : Nat) (data : Bytes) (poisoned : Bool)
  /-- A TELEMETRY frame of a port (15 R444, which lists its contents without a layout, log 86): its SEQ, P_EST, VCORE_MEAS,
  the hottest sensor of each die, each stack's temperature, PWR_STAT, and the nine counters of each Jilan port (09 R293). -/
  | telemetry (port seq pEst vcore : Nat) (dies stackTab : List Nat) (stat : Nat) (ports : List (List Nat))
  /-- The AVSBus Vout command in mV. -/
  | avs (mv : Nat)
  deriving DecidableEq, Repr, Inhabited

/-- A negative event raised by the command in hand and not yet handled (11 R332, R333): the model's own field, empty
between commands. -/
structure Raised where
  /-- Partition. -/
  part : Nat
  /-- Reason code of R332. -/
  reason : Nat
  /-- Step of the affected work; none where it belongs to no step. -/
  step : Option Nat
  /-- Originating unit code (13 R407). -/
  unit : Nat
  /-- Strike entries that its STOP carries. -/
  strikes : List StrikeEntry
  /-- It comes from an injected fault (13 R393). -/
  injected : Bool
  deriving DecidableEq, Repr, Inhabited

/-- A hardware error that no row of the command table brings (13 R387, R394): the environment holds those to come in
`State.errors` (log 85). -/
inductive HwError where
  /-- A parity or residue check fails on a path of a unit (13 R387), a core's operand path or stream fabric, a stack-engine
  path, a NET packet, the fabric of a transport engine or the FIFO of a PHY crossing (14 R418): the unit's code and the
  partition whose data it is. -/
  | parity (unit part : Nat)
  /-- A corrected ECC error of a core's scratchpad, program memory or formes, with its address (13 R394). -/
  | coreCorrected (core addr : Nat)
  /-- An uncorrectable error in a line of a core's scratchpad (05 R123). -/
  | scratchBad (core line : Nat)
  /-- An uncorrectable error in a word of a core's program memory (05 R129). -/
  | programBad (core word : Nat)
  /-- A command or address parity error of a pseudo-channel (13 R394), or the permanent failure of that path (06 R177). -/
  | channelPath (channel : Nat) (permanent : Bool)
  /-- A journal record whose bytes no longer verify (07 R210): partition, stack, step and place in the segment. -/
  | journalBad (part stack step record : Nat)
  /-- Bytes of a committed snapshot slot that no longer verify (12 R368, R380): partition, slot and place in the slot. -/
  | slotBad (part slot place : Nat)
  /-- A host whose link partner cannot train in FLIT mode (08 R218). -/
  | notFlit (hp : Nat)
  deriving DecidableEq, Repr, Inhabited

/-- The state of the module. -/
structure State where
  /-- Partition mode in force: 0 P1, 1 P2, 2 P4 (01 R20). -/
  pmode : Nat := 0
  /-- SLOW periods since the end of the last device-cold reset (16 R470). -/
  ticks : Nat := 0
  /-- ARITH pulses delivered per galley (14 R419). -/
  pulses : Map Nat := []
  /-- Boot, pins and straps. -/
  pins : Pins := {}
  /-- Fuses. -/
  fuses : Fuses := {}
  /-- Words of the set-up registers without a field of their own, by instance and offset (17 R482). -/
  regs : Map Nat := []
  /-- Physical cores. -/
  cores : Map Core := []
  /-- Their units. -/
  units : Map Units := []
  /-- CORE_MAP entries that differ from the default of 01 R25. -/
  coreMap : Map Nat := []
  /-- Retired physical cores. -/
  retiredCores : List Nat := []
  /-- Frozen logical cores (15 R465). -/
  frozenCores : List Nat := []
  /-- LAUNCHes accepted and not complete. -/
  launches : List Launch := []
  /-- Identity of the next LAUNCH. -/
  nextLaunch : Nat := 1
  /-- Memory and stack engines. -/
  ms : MemSys := {}
  /-- Host ports. -/
  hps : Map HostPort := []
  /-- Partitions. -/
  parts : Map Part := []
  /-- Jilan ports. -/
  ports : Map Port := []
  /-- Faults and health. -/
  faults : Faults := {}
  /-- Power and thermal. -/
  power : Power := {}
  /-- Speush and management. -/
  mgmt : Mgmt := {}
  /-- Event recorder. -/
  evr : Recorder := {}
  /-- Memory of each host (environment, log 7). -/
  hostMem : Map (List Host.Cell) := []
  /-- Ranges of host memory whose reads fail: host port, address, length (environment, log 7). -/
  hostFail : List (Nat × Nat × Nat) := []
  /-- Hardware errors to come, first in first out (environment, log 85). -/
  errors : List HwError := []
  /-- What the device has sent, oldest first (log 6). -/
  out : List Out := []
  /-- Negative events raised by the command in hand (the model's own field, log 11). -/
  raised : List Raised := []
  /-- The model's own counter behind its free values (log 8). -/
  freeCtr : Nat := 0
  /-- Commands waiting, first in first out. -/
  pending : List Instr := []
  deriving DecidableEq, Repr, Inhabited

/-- The machine at the end of a device-cold reset, before boot stage 1 (18 R507, R512): every field at its reset
value. -/
def State.reset : State := {}

end Sys2Proof.Machine
end

