-- ==== Sys2Proof/Machine/Maps.lean ====
section
/-! DEFINITION. Sparse tables and byte memory in one canonical form: indexes strictly rising, no entry equal to what an
unlisted index reads as. Every table and every byte memory of the state is read and written through these. -/

namespace Sys2Proof.Machine

variable {α : Type}

/-- What index `k` holds; `d` where it is not listed. -/
def mget (m : Map α) (d : α) (k : Nat) : α :=
  match m with
  | [] => d
  | (i, v) :: r => if i = k then v else mget r d k

/-- The entries below `k`. -/
def mbelow (m : Map α) (k : Nat) : Map α := m.filter (fun c => decide (c.1 < k))

/-- The entries at or above `k`. -/
def mfrom (m : Map α) (k : Nat) : Map α := m.filter (fun c => decide (k ≤ c.1))

/-- Index `k` set to `v`. -/
def mset [DecidableEq α] (m : Map α) (d : α) (k : Nat) (v : α) : Map α :=
  mbelow m k ++ (if v = d then [] else [(k, v)]) ++ mfrom m (k + 1)

/-- Index `k` listed with `v`, whatever `v` is: for tables in which being listed means something. -/
def mput (m : Map α) (k : Nat) (v : α) : Map α := mbelow m k ++ [(k, v)] ++ mfrom m (k + 1)

/-- The entries of `lo .. lo + len - 1`, by offset from `lo`. -/
def mslice (m : Map α) (lo len : Nat) : Map α :=
  (m.filter (fun c => decide (lo ≤ c.1) && decide (c.1 < lo + len))).map (fun c => (c.1 - lo, c.2))

/-- The table with `lo .. lo + len - 1` replaced by the entries that `cs` lists by offset. -/
def mreplace (m : Map α) (lo len : Nat) (cs : Map α) : Map α :=
  mbelow m lo ++ ((cs.filter (fun c => decide (c.1 < len))).map (fun c => (lo + c.1, c.2))) ++ mfrom m (lo + len)

/-- The entries of a list of values from offset `i` that differ from `d`. -/
def mofList [DecidableEq α] (d : α) (i : Nat) : List α → Map α
  | [] => []
  | v :: r => if v = d then mofList d (i + 1) r else (i, v) :: mofList d (i + 1) r

/-- The listed entries whose index passes `q` changed by `f`, which keeps `d`; entries that become `d` leave the list. -/
def mmapIf [DecidableEq α] (m : Map α) (d : α) (q : Nat → Bool) (f : α → α) : Map α :=
  (m.map (fun c => if q c.1 then (c.1, f c.2) else c)).filter (fun c => !decide (c.2 = d))

/-- Canonical form: every listed index is at least `lo`, indexes rise strictly, and no entry equals `d`. -/
def mwfFrom [DecidableEq α] (d : α) (lo : Nat) : Map α → Bool
  | [] => true
  | (i, v) :: r => decide (lo ≤ i) && !decide (v = d) && mwfFrom d (i + 1) r

/-- Canonical form of a whole table. -/
def mwf [DecidableEq α] (d : α) (m : Map α) : Bool := mwfFrom d 0 m

/-- A byte memory: the canonical form of `Host.Cell` lists whose unlisted bytes read 0 (18 R509). -/
def Memory.wf (m : List Host.Cell) : Bool := mwf (0 : Byte) m

/-- The byte at address `a`. -/
def rdByte (m : List Host.Cell) (a : Nat) : Byte := mget m 0 a

/-- The `n` bytes from address `a`. -/
def rdBytes (m : List Host.Cell) (a : Nat) : Nat → Bytes
  | 0 => []
  | n + 1 => rdByte m a :: rdBytes m (a + 1) n

/-- The bytes `bs` written from address `a`. -/
def wrBytes (m : List Host.Cell) (a : Nat) (bs : Bytes) : List Host.Cell :=
  mreplace m a bs.length (mofList 0 0 bs)

/-- `len` bytes copied from `src` of memory `m` to `dst` of memory `m'`. -/
def cpBytes (m m' : List Host.Cell) (src dst len : Nat) : List Host.Cell :=
  mreplace m' dst len (mslice m src len)

/-- `x` put into a list that ascends by `key`, after its equals. -/
def insBy {β : Type} (key : β → Nat) (x : β) : List β → List β
  | [] => [x]
  | y :: r => if key x < key y then x :: y :: r else y :: insBy key x r

/-- A list sorted by `key`, ascending and stable. -/
def sortBy {β : Type} (key : β → Nat) (l : List β) : List β := l.foldl (fun a x => insBy key x a) []

/-! ### Ascending lists of numbers as sets -/

/-- `k` put into an ascending list. -/
def sins (l : List Nat) (k : Nat) : List Nat :=
  l.filter (fun i => decide (i < k)) ++ [k] ++ l.filter (fun i => decide (k < i))

/-- `k` taken out. -/
def sdel (l : List Nat) (k : Nat) : List Nat := l.filter (fun i => decide (i ≠ k))

/-- Membership. -/
def smem (l : List Nat) (k : Nat) : Bool := l.any (fun i => i == k)

/-- `k` in or out by a flag. -/
def sput (l : List Nat) (k : Nat) (b : Bool) : List Nat := if b then sins l k else sdel l k

/-- The numbers `lo .. lo + n - 1`. -/
def upto (lo n : Nat) : List Nat := (List.range n).map (lo + ·)

/-- The positions of the set bits of a number below `n`. -/
def bitsSet (x n : Nat) : List Nat := (List.range n).filter (fun i => x.testBit i)

/-- The number whose set bits are listed. -/
def ofBits (l : List Nat) : Nat := l.foldl (fun a i => a ||| 2 ^ i) 0

/-- Nat field replaced: bits [lo + w - 1 : lo] of x become v. -/
def setFld (x lo w v : Nat) : Nat := x - natFld x lo w * 2 ^ lo + v % 2 ^ w * 2 ^ lo

end Sys2Proof.Machine
end

