-- ==== Sys2Proof/Machine/Bits.lean ====
section
/-! DEFINITION. Byte order, sign extension, the checksums of the manual (CRC-64 07 R205, CRC-32 and CRC-32C 09, CRC-16)
and SHA-256 with HMAC (15). -/

namespace Sys2Proof.Machine

/-- A little-endian byte string as a number (00 R9). -/
def leNat : Bytes → Nat
  | [] => 0
  | b :: r => b.toNat + 256 * leNat r

/-- The `n` little-endian bytes of a number. -/
def leBytes : Nat → Nat → Bytes
  | 0, _ => []
  | n + 1, x => BitVec.ofNat 8 x :: leBytes n (x / 256)

/-- A big-endian byte string as a number. -/
def beNat (bs : Bytes) : Nat := bs.foldl (fun a b => a * 256 + b.toNat) 0

/-- The `n` big-endian bytes of a number. -/
def beBytes (n x : Nat) : Bytes := (leBytes n x).reverse

/-- `n` zero bytes. -/
def zeros (n : Nat) : Bytes := List.replicate n 0

/-- The value of an `n`-bit two's complement number. -/
def sext (n x : Nat) : Int := if x % 2 ^ n < 2 ^ (n - 1) then (x % 2 ^ n : Nat) else ((x % 2 ^ n : Nat) : Int) - (2 ^ n : Nat)

/-- The `n`-bit two's complement code of an integer. -/
def toCode (n : Nat) (x : Int) : Nat := (x % ((2 ^ n : Nat) : Int)).toNat

/-- Bytes `off .. off + n - 1` of a string, zero beyond its end. -/
def sub (bs : Bytes) (off n : Nat) : Bytes := ((bs.drop off).take n) ++ zeros (n - (bs.length - off))

/-- Little-endian field of `n` bytes at `off`. -/
def leAt (bs : Bytes) (off n : Nat) : Nat := leNat ((bs.drop off).take n)

/-- One step of a reflected (least significant bit first) CRC of width `n` bits with the reflected polynomial. -/
def crcBitR (poly c : Nat) : Nat := if c % 2 = 1 then (c / 2) ^^^ poly else c / 2

/-- A byte into a reflected CRC. -/
def crcByteR (poly c : Nat) (b : Byte) : Nat :=
  let c := c ^^^ b.toNat
  crcBitR poly (crcBitR poly (crcBitR poly (crcBitR poly
    (crcBitR poly (crcBitR poly (crcBitR poly (crcBitR poly c)))))))

/-- A reflected CRC of a byte string. -/
def crcR (poly init xorOut : Nat) (bs : Bytes) : Nat := (bs.foldl (crcByteR poly) init) ^^^ xorOut

/-- One step of a most-significant-bit-first CRC of `n` bits. -/
def crcBitN (n poly c : Nat) : Nat :=
  if c.testBit (n - 1) then ((c * 2) ^^^ poly) % 2 ^ n else c * 2 % 2 ^ n

/-- A byte into a most-significant-bit-first CRC. -/
def crcByteN (n poly c : Nat) (b : Byte) : Nat :=
  let c := c ^^^ (b.toNat * 2 ^ (n - 8))
  crcBitN n poly (crcBitN n poly (crcBitN n poly (crcBitN n poly
    (crcBitN n poly (crcBitN n poly (crcBitN n poly (crcBitN n poly c)))))))

/-- A most-significant-bit-first CRC of a byte string. -/
def crcN (n poly init xorOut : Nat) (bs : Bytes) : Nat := (bs.foldl (crcByteN n poly) init) ^^^ xorOut

/-- CRC-64 (07 R205). -/
def crc64 (bs : Bytes) : Nat := crcN 64 0x42F0E1EBA9EA3693 0 0 bs

/-- CRC-32C (09 R265). -/
def crc32c (bs : Bytes) : Nat := crcR 0x82F63B78 0xFFFFFFFF 0xFFFFFFFF bs

/-- CRC-32 with the IEEE 802.3 polynomial (04 R95, 05 R147). -/
def crc32 (bs : Bytes) : Nat := crcR 0xEDB88320 0xFFFFFFFF 0xFFFFFFFF bs

/-- CRC-16 of an event record (16 R470). -/
def crc16 (bs : Bytes) : Nat := crcN 16 0x1021 0xFFFF 0 bs

/-- A 64-bit rotation left. -/
def rotl64 (x n : Nat) : Nat := (x * 2 ^ (n % 64) % 2 ^ 64) ||| (x / 2 ^ (64 - n % 64))

/-! ### SHA-256 and HMAC (15 R448, R453) -/

/-- The 64 round constants of SHA-256 as one bit string, the first of them most significant. -/
def shaConsts : Nat :=
  0x428a2f9871374491b5c0fbcfe9b5dba53956c25b59f111f1923f82a4ab1c5ed5d807aa9812835b01243185be550c7dc372be5d7480deb1fe9bdc06a7c19bf174e49b69c1efbe47860fc19dc6240ca1cc2de92c6f4a7484aa5cb0a9dc76f988da983e5152a831c66db00327c8bf597fc7c6e00bf3d5a7914706ca63511429296727b70a852e1b21384d2c6dfc53380d13650a7354766a0abb81c2c92e92722c85a2bfe8a1a81a664bc24b8b70c76c51a3d192e819d6990624f40e3585106aa07019a4c1161e376c082748774c34b0bcb5391c0cb34ed8aa4a5b9cca4f682e6ff3748f82ee78a5636f84c878148cc7020890befffaa4506cebbef9a3f7c67178f2

/-- The initial hash value as one bit string, the first word most significant. -/
def shaStart : Nat := 0x6a09e667bb67ae853c6ef372a54ff53a510e527f9b05688c1f83d9ab5be0cd19

/-- Word `i` of a bit string of `n` words. -/
def wordOf (x n i : Nat) : BitVec 32 := BitVec.ofNat 32 (x / 2 ^ (32 * (n - 1 - i)))

/-- Three rotations of a word, XORed. -/
def turn3 (x : BitVec 32) (i j k : Nat) : BitVec 32 := x.rotateRight i ^^^ x.rotateRight j ^^^ x.rotateRight k

/-- Two rotations and a shift of a word, XORed. -/
def turn2 (x : BitVec 32) (i j k : Nat) : BitVec 32 := x.rotateRight i ^^^ x.rotateRight j ^^^ (x >>> k)

/-- The chosen word: each bit of `x` picks that of `y` or of `z`. -/
def pick (x y z : BitVec 32) : BitVec 32 := z ^^^ (x &&& (y ^^^ z))

/-- The majority of three words, bit by bit. -/
def most (x y z : BitVec 32) : BitVec 32 := (x &&& y) ||| (z &&& (x ||| y))

/-- One round over the eight working words, with the sum of its constant and its schedule word. -/
def shaRound (v : List (BitVec 32)) (kw : BitVec 32) : List (BitVec 32) :=
  match v with
  | [x0, x1, x2, x3, y0, y1, y2, y3] =>
    let u := y3 + turn3 y0 6 11 25 + pick y0 y1 y2 + kw
    [u + turn3 x0 2 13 22 + most x0 x1 x2, x0, x1, x2, x3 + u, y0, y1, y2]
  | v => v

/-- The schedule word that follows a window of sixteen, oldest first. -/
def shaNext (win : List (BitVec 32)) : BitVec 32 :=
  win.getD 0 0 + turn2 (win.getD 1 0) 7 18 3 + win.getD 9 0 + turn2 (win.getD 14 0) 17 19 10

/-- The last `n` of the 64 rounds, with the window of schedule words still to come. -/
def shaRounds : Nat → List (BitVec 32) → List (BitVec 32) → List (BitVec 32)
  | 0, _, v => v
  | n + 1, win, v => shaRounds n (win.drop 1 ++ [shaNext win]) (shaRound v (wordOf shaConsts 64 (63 - n) + win.headD 0))

/-- One 64-byte block. -/
def shaBlock (v : List (BitVec 32)) (blk : Bytes) : List (BitVec 32) :=
  let win := (List.range 16).map (wordOf (beNat (sub blk 0 64)) 16)
  List.zipWith (· + ·) v (shaRounds 64 win v)

/-- The first `n` blocks of a padded message. -/
def shaBlocks : Nat → List (BitVec 32) → Bytes → List (BitVec 32)
  | 0, v, _ => v
  | n + 1, v, bs => shaBlocks n (shaBlock v (bs.take 64)) (bs.drop 64)

/-- SHA-256 of a byte string. -/
def sha256 (bs : Bytes) : Bytes :=
  let z := (119 - bs.length % 64) % 64
  let p := bs ++ [0x80] ++ zeros z ++ beBytes 8 (8 * bs.length)
  let v := shaBlocks (p.length / 64) ((List.range 8).map (wordOf shaStart 8)) p
  v.flatMap (fun w => beBytes 4 w.toNat)

/-- HMAC-SHA-256 (15 R448). -/
def hmacSha256 (key msg : Bytes) : Bytes :=
  let k := (if 64 < key.length then sha256 key else key)
  let k := k ++ zeros (64 - k.length)
  sha256 (k.map (· ^^^ 0x5C) ++ sha256 (k.map (· ^^^ 0x36) ++ msg))

/-- MGF1 with SHA-256: `n` bytes (15 R454). -/
def mgf1 (seed : Bytes) (n : Nat) : Bytes :=
  ((List.range ((n + 31) / 32)).flatMap (fun i => sha256 (seed ++ beBytes 4 i))).take n

/-- Modular power by the bits of the exponent, most significant of `n` first. -/
def powMod (b m : Nat) (e : Nat) : Nat → Nat
  | 0 => 1 % m
  | n + 1 => let r := powMod b m (e / 2) n
             let r2 := r * r % m
             if e % 2 = 1 then r2 * b % m else r2

/-- RSASSA-PSS with SHA-256, MGF1 with SHA-256, and a 32-byte salt, for a 384-byte modulus (15 R454): whether the
signature verifies. -/
def pssVerify (modulus expo : Nat) (msg sig : Bytes) : Bool :=
  if beNat sig < modulus then
    let em := beBytes 384 (powMod (beNat sig) modulus expo 32)
    let masked := em.take 351
    let h := (em.drop 351).take 32
    let db := (masked.zip (mgf1 h 351)).map (fun p => p.1 ^^^ p.2)
    let db := match db with
      | [] => []
      | b :: r => (if modulus.testBit 3071 then b &&& 0x7F else b) :: r
    let mh := sha256 msg
    (em.getD 383 0 == 0xBC) && (masked.getD 0 0 &&& 0x80 == 0) && (db.take 319 == zeros 318 ++ [1]) &&
      (sha256 (zeros 8 ++ mh ++ db.drop 319) == h)
  else false

end Sys2Proof.Machine
end

