-- ==== Sys2Proof/Machine/Float.lean ====
section
/-! DEFINITION. Number formats, conversions and rounding (02_number_formats.md R34 to R60): encodings decode to exact
dyadic values, every operation is computed exactly, and one function rounds. -/

namespace Sys2Proof.Machine

/-- The value of an element: a NaN, an infinity, or (-1)^neg * m * 2^e exactly. -/
inductive FVal where
  /-- Not a number. -/
  | nan
  /-- An infinity. -/
  | inf (neg : Bool)
  /-- A finite value; a zero keeps its sign (R35). -/
  | fin (neg : Bool) (m : Nat) (e : Int)
  deriving DecidableEq, Repr, Inhabited

/-- The event a conversion reports (R46). -/
inductive CvEv where
  /-- EXACT. -/
  | exact
  /-- INEXACT. -/
  | inexact
  /-- SATURATED. -/
  | saturated
  /-- NAN_MADE. -/
  | nanMade
  /-- NAN_PASSED. -/
  | nanPassed
  /-- INF_PASSED. -/
  | infPassed
  /-- NAN_TO_ZERO. -/
  | nanToZero
  deriving DecidableEq, Repr, Inhabited

/-- Rounding modes (R49), by code. -/
inductive Rnd where
  /-- Nearest, ties to even. -/
  | rne
  /-- Stochastic, with the 16-bit value r drawn for the element (R50). -/
  | sr (r : Nat)
  /-- Towards zero. -/
  | rtz
  /-- Towards minus infinity. -/
  | rdn
  deriving DecidableEq, Repr, Inhabited

/-- A scalar floating-point format (R36). -/
structure FpFmt where
  /-- Exponent bits. -/
  eb : Nat
  /-- Fraction bits. -/
  fb : Nat
  /-- Bias. -/
  bias : Nat
  /-- Largest finite code without its sign. -/
  maxCode : Nat
  /-- Infinity code without its sign, when there is one. -/
  infCode : Option Nat
  /-- Canonical NaN, when there is one. -/
  nanCode : Option Nat
  deriving DecidableEq, Repr, Inhabited

/-- FP32. -/
def fp32 : FpFmt := ⟨8, 23, 127, 0x7F7FFFFF, some 0x7F800000, some 0x7FC00000⟩
/-- BF16. -/
def bf16 : FpFmt := ⟨8, 7, 127, 0x7F7F, some 0x7F80, some 0x7FC0⟩
/-- FP16. -/
def fp16 : FpFmt := ⟨5, 10, 15, 0x7BFF, some 0x7C00, some 0x7E00⟩
/-- E4M3. -/
def e4m3 : FpFmt := ⟨4, 3, 7, 0x7E, none, some 0x7F⟩
/-- E5M2. -/
def e5m2 : FpFmt := ⟨5, 2, 15, 0x7B, some 0x7C, some 0x7E⟩
/-- FP6 E3M2. -/
def e3m2 : FpFmt := ⟨3, 2, 3, 0x1F, none, none⟩
/-- FP6 E2M3. -/
def e2m3 : FpFmt := ⟨2, 3, 1, 0x1F, none, none⟩
/-- FP4 E2M1. -/
def e2m1 : FpFmt := ⟨2, 1, 1, 7, none, none⟩

/-- The exponent of the smallest subnormal, 1 - bias - m (R35). -/
def FpFmt.qmin (f : FpFmt) : Int := 1 - (f.bias : Int) - (f.fb : Int)

/-- Bits of the whole code. -/
def FpFmt.bits (f : FpFmt) : Nat := 1 + f.eb + f.fb

/-- The value of a code (R35, R36, R37). -/
def fpDecode (f : FpFmt) (x : Nat) : FVal :=
  let neg := natFld x (f.eb + f.fb) 1 == 1
  let mag := x % 2 ^ (f.eb + f.fb)
  let e := mag / 2 ^ f.fb
  let fr := mag % 2 ^ f.fb
  if mag ≤ f.maxCode then
    if e = 0 then .fin neg fr f.qmin else .fin neg (2 ^ f.fb + fr) (f.qmin + (e : Int) - 1)
  else if f.infCode = some mag then .inf neg
  else .nan

/-- The value of an integer code (R34). -/
def intVal (i : Int) : FVal := .fin (decide (i < 0)) i.natAbs 0

/-- m * 2^e rounded to a multiple of 2^q, as that multiple, and whether it was exact (R44 step 3, R49, R50). -/
def roundTo (rnd : Rnd) (neg : Bool) (m : Nat) (e q : Int) : Nat × Bool :=
  if q ≤ e then (m * 2 ^ (e - q).toNat, true)
  else
    let sh := (q - e).toNat
    let n := m / 2 ^ sh
    let f := m % 2 ^ sh
    if f = 0 then (n, true)
    else
      let up := match rnd with
        | .rne => decide (2 ^ sh < 2 * f) || (decide (2 ^ sh = 2 * f) && decide (n % 2 = 1))
        | .sr r => decide (2 ^ 16 ≤ r + f * 2 ^ 16 / 2 ^ sh)
        | .rtz => false
        | .rdn => neg
      (if up then n + 1 else n, false)

/-- floor(log2 (m * 2^e)) of a positive m. -/
def ilog2 (m : Nat) (e : Int) : Int := (Nat.log2 m : Int) + e

/-- The sign bit of a format as a code. -/
def FpFmt.sign (f : FpFmt) (neg : Bool) : Nat := b2n neg * 2 ^ (f.eb + f.fb)

/-- A value converted to a scalar floating-point format (R44, R45), with its event (R46). -/
def fpRound (f : FpFmt) (rnd : Rnd) (v : FVal) : Nat × CvEv :=
  match v with
  | .nan => (f.nanCode.getD 0, .nanPassed)
  | .inf neg =>
    match f.infCode with
    | some c => (f.sign neg + c, .infPassed)
    | none => match f.nanCode with
      | some c => (c, .nanMade)
      | none => (f.sign neg + f.maxCode, .saturated)
  | .fin neg m e =>
    if m = 0 then (f.sign neg, .exact)
    else
      let q := max f.qmin (ilog2 m e - f.fb)
      let (n, ex) := roundTo rnd neg m e q
      let mag := if n < 2 ^ f.fb then n else (q - f.qmin + 1).toNat * 2 ^ f.fb + (n - 2 ^ f.fb)
      if f.maxCode < mag then (f.sign neg + f.maxCode, .saturated)
      else (f.sign neg + mag, if ex then .exact else .inexact)

/-- A value converted to an integer of `n` bits (R44, R45), with its event. -/
def intRound (n : Nat) (rnd : Rnd) (v : FVal) : Int × CvEv :=
  let hi : Int := 2 ^ (n - 1) - 1
  let lo : Int := - 2 ^ (n - 1)
  match v with
  | .nan => (0, .nanToZero)
  | .inf neg => (if neg then lo else hi, .saturated)
  | .fin neg m e =>
    let (k, ex) := roundTo rnd neg m e 0
    let i : Int := if neg then -(k : Int) else (k : Int)
    if hi < i then (hi, .saturated) else if i < lo then (lo, .saturated)
    else (i, if ex then .exact else .inexact)

/-- A value as an FP32 word, rounded to nearest even. -/
def toF32 (v : FVal) : BitVec 32 := BitVec.ofNat 32 (fpRound fp32 .rne v).1

/-- The value of an FP32 word. -/
def f32 (x : BitVec 32) : FVal := fpDecode fp32 x.toNat

/-! ### Exact arithmetic -/

/-- An exact dyadic number n * 2^e. -/
structure Dy where
  /-- Integer part. -/
  n : Int
  /-- Power of two. -/
  e : Int
  deriving DecidableEq, Repr, Inhabited

/-- Zero. -/
def Dy.zero : Dy := ⟨0, 0⟩

/-- Sum. -/
def Dy.add (a b : Dy) : Dy :=
  if a.n = 0 then b else if b.n = 0 then a
  else
    let e := min a.e b.e
    ⟨a.n * 2 ^ (a.e - e).toNat + b.n * 2 ^ (b.e - e).toNat, e⟩

/-- Product. -/
def Dy.mul (a b : Dy) : Dy := ⟨a.n * b.n, a.e + b.e⟩

/-- Negation. -/
def Dy.neg (a : Dy) : Dy := ⟨-a.n, a.e⟩

/-- Difference. -/
def Dy.sub (a b : Dy) : Dy := a.add b.neg

/-- Whether a < b. -/
def Dy.lt (a b : Dy) : Bool := decide ((a.sub b).n < 0)

/-- The dyadic value of a finite FVal; 0 of a non-finite one. -/
def FVal.dy : FVal → Dy
  | .fin neg m e => ⟨if neg then -(m : Int) else (m : Int), e⟩
  | _ => Dy.zero

/-- A dyadic as a value; a zero takes the sign given. -/
def Dy.val (a : Dy) (zneg : Bool) : FVal :=
  if a.n = 0 then .fin zneg 0 0 else .fin (decide (a.n < 0)) a.n.natAbs a.e

/-- Sign of a value. -/
def FVal.neg : FVal → Bool
  | .nan => false
  | .inf n => n
  | .fin n _ _ => n

/-- Whether it is a NaN. -/
def FVal.isNan : FVal → Bool
  | .nan => true
  | _ => false

/-- Whether it is an infinity. -/
def FVal.isInf : FVal → Bool
  | .inf _ => true
  | _ => false

/-- Whether it is a zero. -/
def FVal.isZero : FVal → Bool
  | .fin _ m _ => m == 0
  | _ => false

/-- The value with its sign turned. -/
def FVal.negate : FVal → FVal
  | .nan => .nan
  | .inf n => .inf (!n)
  | .fin n m e => .fin (!n) m e

/-- The value with sign 0. -/
def FVal.abs : FVal → FVal
  | .nan => .nan
  | .inf _ => .inf false
  | .fin _ m e => .fin false m e

/-- Exact sum of two values (IEEE 754; an exact zero sum of unlike signs is +0). -/
def FVal.add (a b : FVal) : FVal :=
  match a, b with
  | .nan, _ => .nan
  | _, .nan => .nan
  | .inf s, .inf t => if s = t then .inf s else .nan
  | .inf s, _ => .inf s
  | _, .inf t => .inf t
  | .fin s m e, .fin t n f =>
    ((FVal.fin s m e).dy.add (FVal.fin t n f).dy).val (s && t)

/-- Exact product of two values. -/
def FVal.mul (a b : FVal) : FVal :=
  match a, b with
  | .nan, _ => .nan
  | _, .nan => .nan
  | .inf s, .inf t => .inf (s != t)
  | .inf s, .fin t n _ => if n = 0 then .nan else .inf (s != t)
  | .fin s m _, .inf t => if m = 0 then .nan else .inf (s != t)
  | .fin s m e, .fin t n f => .fin (s != t) (m * n) (e + f)

/-- Order of the finite and infinite values as a comparison of extended reals; none where either is a NaN. -/
def FVal.cmp (a b : FVal) : Option Ordering :=
  match a, b with
  | .nan, _ => none
  | _, .nan => none
  | .inf s, .inf t => some (if s = t then .eq else if s then .lt else .gt)
  | .inf s, _ => some (if s then .lt else .gt)
  | _, .inf t => some (if t then .gt else .lt)
  | .fin s m e, .fin t n f =>
    let d := ((FVal.fin s m e).dy.sub (FVal.fin t n f).dy).n
    some (if d < 0 then .lt else if d = 0 then .eq else .gt)

/-! ### Formats by code (R34) -/

/-- A format code (R34). -/
inductive Fmt where
  /-- 0x0. -/
  | fp32
  /-- 0x1. -/
  | bf16
  /-- 0x2. -/
  | fp16
  /-- 0x3. -/
  | e4m3
  /-- 0x4. -/
  | e5m2
  /-- 0x5. -/
  | int8
  /-- 0x6. -/
  | int32
  /-- 0x7. -/
  | mx8e4m3
  /-- 0x8. -/
  | mx8e5m2
  /-- 0x9. -/
  | mx6e3m2
  /-- 0xA. -/
  | mx6e2m3
  /-- 0xB. -/
  | mx4
  /-- 0xC. -/
  | mxint8
  /-- 0xD. -/
  | int4g32
  /-- 0xE. -/
  | int4g128
  deriving DecidableEq, Repr, Inhabited

/-- The format of a code; 0xF is reserved. -/
def fmtOf (c : Nat) : Option Fmt :=
  match c with
  | 0 => some .fp32 | 1 => some .bf16 | 2 => some .fp16 | 3 => some .e4m3 | 4 => some .e5m2
  | 5 => some .int8 | 6 => some .int32 | 7 => some .mx8e4m3 | 8 => some .mx8e5m2 | 9 => some .mx6e3m2
  | 10 => some .mx6e2m3 | 11 => some .mx4 | 12 => some .mxint8 | 13 => some .int4g32 | 14 => some .int4g128
  | _ => none

/-- Bits of an element (R34). -/
def Fmt.bits : Fmt → Nat
  | .fp32 | .int32 => 32
  | .bf16 | .fp16 => 16
  | .e4m3 | .e5m2 | .int8 | .mx8e4m3 | .mx8e5m2 | .mxint8 => 8
  | .mx6e3m2 | .mx6e2m3 => 6
  | .mx4 | .int4g32 | .int4g128 => 4

/-- Elements that share one scale; 0 for a scalar format (R38, R40). -/
def Fmt.group : Fmt → Nat
  | .mx8e4m3 | .mx8e5m2 | .mx6e3m2 | .mx6e2m3 | .mx4 | .mxint8 | .int4g32 => 32
  | .int4g128 => 128
  | _ => 0

/-- Bytes of one entry of the scale array: a byte for MX, an FP32 word for INT4 (R39). -/
def Fmt.scaleBytes : Fmt → Nat
  | .int4g32 | .int4g128 => 4
  | .mx8e4m3 | .mx8e5m2 | .mx6e3m2 | .mx6e2m3 | .mx4 | .mxint8 => 1
  | _ => 0

/-- Whether the format is a scalar format, codes 0x0 to 0x6. -/
def Fmt.scalar (f : Fmt) : Bool := f.group == 0

/-- The floating-point parameters of an element, where the element is floating point. -/
def Fmt.fp : Fmt → Option FpFmt
  | .fp32 => some Machine.fp32
  | .bf16 => some Machine.bf16
  | .fp16 => some Machine.fp16
  | .e4m3 | .mx8e4m3 => some Machine.e4m3
  | .e5m2 | .mx8e5m2 => some Machine.e5m2
  | .mx6e3m2 => some Machine.e3m2
  | .mx6e2m3 => some Machine.e2m3
  | .mx4 => some Machine.e2m1
  | _ => none

/-- The value of an element's bits without its scale (R36, R38, R40). -/
def Fmt.elem (f : Fmt) (x : Nat) : FVal :=
  match f.fp with
  | some p => fpDecode p x
  | none =>
    match f with
    | .mxint8 => match intVal (sext 8 x) with
      | .fin n m e => .fin n m (e - 6)
      | v => v
    | _ => intVal (sext f.bits x)

/-- The value of an E8M0 scale byte (R38). -/
def e8m0 (x : Nat) : FVal := if x % 256 = 255 then .nan else .fin false 1 ((x % 256 : Nat) - 127 : Int)

/-- The exact value of an MX or grouped element under its scale, before any rounding (R38, R40). -/
def Fmt.scaled (f : Fmt) (x sc : Nat) : FVal :=
  match f with
  | .int4g32 | .int4g128 => (f.elem x).mul (fpDecode Machine.fp32 sc)
  | _ => match e8m0 sc with
    | .nan => .nan
    | k => (f.elem x).mul k

/-- An element decoded to an FP32 word outside the arrays, with the event it reports (R40, R42); a scalar format's
element converts by R44. -/
def Fmt.toF32 (f : Fmt) (x sc : Nat) : Nat × CvEv :=
  if f.scalar then fpRound Machine.fp32 .rne (f.elem x)
  else
    match f with
    | .int4g32 | .int4g128 =>
      match fpDecode Machine.fp32 sc with
      | .nan => (0x7FC00000, .nanPassed)
      | .inf s => if x % 16 = 0 then (0x7FC00000, .nanMade)
                  else (fpRound Machine.fp32 .rne (.inf (s != decide (8 ≤ x % 16))))
      | k => fpRound Machine.fp32 .rne ((f.elem x).mul k)
    | _ => fpRound Machine.fp32 .rne (f.scaled x sc)

/-- A value converted to a scalar format, as a code of the format's bits (R44, R45). -/
def Fmt.round (f : Fmt) (rnd : Rnd) (v : FVal) : Nat × CvEv :=
  match f with
  | .int8 => let r := intRound 8 rnd v; (toCode 8 r.1, r.2)
  | .int32 => let r := intRound 32 rnd v; (toCode 32 r.1, r.2)
  | .int4g32 | .int4g128 => let r := intRound 4 rnd v; (toCode 4 r.1, r.2)
  | .mxint8 =>
    let v6 := match v with
      | .fin n m e => FVal.fin n m (e + 6)
      | v => v
    let r := intRound 8 rnd v6
    (toCode 8 r.1, r.2)
  | _ => match f.fp with
    | some p => fpRound p rnd v
    | none => (0, .exact)

/-- Element `i` of densely packed elements of `w` bits from a byte string (R39). -/
def elemAt (w : Nat) (bs : Bytes) (i : Nat) : Nat :=
  let lo := i * w
  natFld (leNat ((bs.drop (lo / 8)).take ((lo % 8 + w + 7) / 8))) (lo % 8) w

/-- Elements packed densely, `w` bits each, least significant first (R39). -/
def packElems (w : Nat) (xs : List Nat) : Bytes :=
  leBytes ((xs.length * w + 7) / 8) (xs.foldr (fun x a => x % 2 ^ w + 2 ^ w * a) 0)

/-! ### Stochastic rounding (R50, R51) -/

/-- mix of R51. -/
def srMix (v : BitVec 64) : BitVec 64 :=
  let v := (v ^^^ (v >>> 30)) * 0xBF58476D1CE4E5B9
  let v := (v ^^^ (v >>> 27)) * 0x94D049BB133111EB
  v ^^^ (v >>> 31)

/-- srbits of R51. -/
def srBits (step tensor pos : Nat) : Nat :=
  let k := srMix ((BitVec.ofNat 64 step <<< 16) ||| BitVec.ofNat 64 (tensor % 2 ^ 16))
  let z := srMix (k + BitVec.ofNat 64 pos * 0x9E3779B97F4A7C15)
  (z >>> 48).toNat

/-- The rounding mode of a 2-bit code, with the draw for SR (R49). -/
def rndOf (code step tensor pos : Nat) : Rnd :=
  match code % 4 with
  | 0 => .rne
  | 1 => .sr (srBits step tensor pos)
  | 2 => .rtz
  | _ => .rdn

/-! ### Operand splits (R53, R54) -/

/-- The pieces of a finite operand of a format, highest first (R53). -/
def pieces (f : Fmt) (v : FVal) : List Dy :=
  let sg (neg : Bool) (m : Nat) : Int := if neg then -(m : Int) else (m : Int)
  match v, f with
  | .fin neg m e, .fp32 => [⟨sg neg (m / 2 ^ 16), e + 16⟩, ⟨sg neg (m / 2 ^ 8 % 2 ^ 8), e + 8⟩, ⟨sg neg (m % 2 ^ 8), e⟩]
  | .fin neg m e, .fp16 => [⟨sg neg (m / 8), e + 3⟩, ⟨sg neg (m % 8), e⟩]
  | v, _ => [v.dy]

/-- L of R54. -/
def splitLevel (a b : Fmt) : Nat :=
  if a = .fp32 ∨ b = .fp32 then 2 else if a = .fp16 ∨ b = .fp16 then 1 else 0

/-- The sum of the retained piece products of a finite product (R54). -/
def splitMul (fa fb : Fmt) (a b : FVal) : Dy :=
  let l := splitLevel fa fb
  let pa := (pieces fa a).zipIdx
  let pb := (pieces fb b).zipIdx
  pa.foldl (fun acc x => pb.foldl (fun acc y => if x.2 + y.2 ≤ l then acc.add (x.1.mul y.1) else acc) acc) Dy.zero

/-! ### The 192-bit exact accumulator (R57 to R60) -/

/-- An exact accumulator (R57). -/
structure ExAcc where
  /-- N. -/
  n : Nat := 0
  /-- NAN. -/
  nan : Bool := false
  /-- INF. -/
  inf : Bool := false
  /-- OVF. -/
  ovf : Bool := false
  deriving DecidableEq, Repr, Inhabited

/-- A term added to N, with the carry (R58, R59). -/
def ExAcc.addN (a : ExAcc) (t : Nat) : ExAcc :=
  { a with n := (a.n + t) % 2 ^ 192, ovf := a.ovf || decide (2 ^ 192 ≤ a.n + t) }

/-- One input (R58). -/
def ExAcc.input (a : ExAcc) (v : FVal) : ExAcc :=
  match v with
  | .nan => { a with nan := true }
  | .inf _ => { a with inf := true }
  | .fin _ m e =>
    if m = 0 then a
    else if 40 ≤ ilog2 m e then { a with ovf := true }
    else a.addN (roundTo .rtz false (m * m) (2 * e) (-112)).1

/-- Two accumulators combined (R59). -/
def ExAcc.combine (a b : ExAcc) : ExAcc :=
  let r := a.addN (b.n % 2 ^ 192)
  { r with nan := a.nan || b.nan, inf := a.inf || b.inf, ovf := r.ovf || b.ovf }

/-- As FP32 (R60). -/
def ExAcc.toF32 (a : ExAcc) : BitVec 32 :=
  if a.nan then 0x7FC00000 else if a.inf then 0x7F800000 else if a.ovf then 0x7F7FFFFF
  else Machine.toF32 (.fin false a.n (-112))

/-- The 32 bytes (R57). -/
def ExAcc.bytes (a : ExAcc) : Bytes :=
  leBytes 24 a.n ++ [BitVec.ofNat 8 (b2n a.nan + 2 * b2n a.inf + 4 * b2n a.ovf)] ++ zeros 7

/-- An accumulator read from 32 bytes; reserved bits are ignored (R57). -/
def ExAcc.ofBytes (bs : Bytes) : ExAcc :=
  let f := (bs.getD 24 0).toNat
  ⟨leAt bs 0 24, f.testBit 0, f.testBit 1, f.testBit 2⟩

end Sys2Proof.Machine
end

