-- ==== Sys2Proof/Machine/Arith.lean ====
section
/-! DEFINITION. Single IEEE 754 operations of the engines and the stream fabric: rounding with overflow to infinity
(04_stream_fabric.md R105, 07_stack_engines.md R192), division and square root, minimum and maximum (R106), and the
correctly rounded functions of the function units (R109). -/

namespace Sys2Proof.Machine

/-- Element events (R115). -/
structure Evs where
  /-- NAN_CNT. -/
  nan : Nat := 0
  /-- INF_CNT. -/
  inf : Nat := 0
  /-- SAT_CNT. -/
  sat : Nat := 0
  /-- DIV0_CNT. -/
  div0 : Nat := 0
  deriving DecidableEq, Repr, Inhabited

/-- Two counts together. -/
def Evs.add (a b : Evs) : Evs := ⟨a.nan + b.nan, a.inf + b.inf, a.sat + b.sat, a.div0 + b.div0⟩

/-- A value rounded once by RNE to a format with infinities, finite overflow giving an infinity (R105). -/
def ieeeRound (f : FpFmt) (v : FVal) : Nat :=
  match v with
  | .fin neg _ _ =>
    let r := fpRound f .rne v
    if r.2 = .saturated then f.sign neg + f.infCode.getD f.maxCode else r.1
  | _ => (fpRound f .rne v).1

/-- An exact result rounded in a format, with the events it is (R115): a NaN from inputs without NaN, an infinity from
finite inputs. -/
def ieeeOp (f : FpFmt) (ins : List FVal) (v : FVal) : Nat × Evs :=
  let r := ieeeRound f v
  let o := fpDecode f r
  (r, { nan := b2n (o.isNan && ins.all (fun x => !x.isNan))
        inf := b2n (o.isInf && ins.all (fun x => !x.isNan && !x.isInf)) })

/-! ### Division and square root -/

/-- A quotient of positive integers to 96 bits beyond the operands, with a sticky bit below. -/
def quotSticky (m n : Nat) : Nat × Int :=
  let k := 96 + Nat.log2 n
  let q := m * 2 ^ k / n
  (2 * q + b2n (decide (q * n ≠ m * 2 ^ k)), -((k : Int) + 1))

/-- A quotient of values, exact enough to round once (R192). -/
def FVal.div (a b : FVal) : FVal :=
  match a, b with
  | .nan, _ => .nan
  | _, .nan => .nan
  | .inf _, .inf _ => .nan
  | .inf s, .fin t _ _ => .inf (s != t)
  | .fin s _ _, .inf t => .fin (s != t) 0 0
  | .fin s m e, .fin t n f =>
    if n = 0 then (if m = 0 then .nan else .inf (s != t))
    else if m = 0 then .fin (s != t) 0 0
    else
      let r := quotSticky m n
      .fin (s != t) r.1 (r.2 + e - f)

/-- Integer square root by its bits, highest first. -/
def isqrtFrom (x : Nat) : Nat → Nat → Nat
  | 0, r => r
  | k + 1, r => if (r + 2 ^ k) * (r + 2 ^ k) ≤ x then isqrtFrom x k (r + 2 ^ k) else isqrtFrom x k r

/-- floor of the square root. -/
def isqrt (x : Nat) : Nat := isqrtFrom x (Nat.log2 x / 2 + 1) 0

/-- A square root, exact enough to round once; -0 gives -0 (IEEE 754). -/
def FVal.sqrt (a : FVal) : FVal :=
  match a with
  | .nan => .nan
  | .inf s => if s then .nan else .inf false
  | .fin s m e =>
    if m = 0 then .fin s 0 0
    else if s then .nan
    else
      let (m, e) := if e % 2 = 0 then (m, e) else (2 * m, e - 1)
      let q := isqrt (m * 2 ^ 128)
      .fin false (2 * q + b2n (decide (q * q ≠ m * 2 ^ 128))) (e / 2 - 65)

/-- A reciprocal square root, exact enough to round once (R109). -/
def FVal.rsqrt (a : FVal) : FVal :=
  match a with
  | .nan => .nan
  | .inf s => if s then .nan else .fin false 0 0
  | .fin s m e =>
    if m = 0 then .inf s
    else if s then .nan
    else
      let (m, e) := if e % 2 = 0 then (m, e) else (2 * m, e - 1)
      let q := isqrt (2 ^ 256 / m)
      .fin false (2 * q + b2n (decide (q * q * m ≠ 2 ^ 256))) (-129 - e / 2)

/-! ### Minimum, maximum and sign -/

/-- The smaller value: NaN when either is NaN, -0 below +0 (R106). -/
def FVal.min (a b : FVal) : FVal :=
  match FVal.cmp a b with
  | none => .nan
  | some .lt => a
  | some .gt => b
  | some .eq => if a.neg then a else b

/-- The larger value: NaN when either is NaN, +0 above -0 (R106). -/
def FVal.max (a b : FVal) : FVal :=
  match FVal.cmp a b with
  | none => .nan
  | some .lt => b
  | some .gt => a
  | some .eq => if a.neg then b else a

/-- sign(x) of R193. -/
def FVal.sign (a : FVal) : FVal :=
  match a with
  | .nan => .nan
  | .inf s => .fin s 1 0
  | .fin s m e => if m = 0 then .fin s m e else .fin s 1 0

/-- Whether a < b. -/
def FVal.lt (a b : FVal) : Bool := FVal.cmp a b == some .lt

/-! ### Functions by fixed-point series with 192 fraction bits (R109). Every exact case of a function comes out exact;
every other value lies far further from a rounding boundary than the series' error. -/

/-- Fraction bits. -/
def fxBits : Nat := 192

/-- One. -/
def fxOne : Nat := 2 ^ fxBits

/-- floor(π * 2^192). -/
def fxPi : Nat := 0x3243f6a8885a308d313198a2e03707344a4093822299f31d0

/-- floor(ln 2 * 2^192). -/
def fxLn2 : Nat := 0xb17217f7d1cf79abc9e3b39803f2f6af40f343267298b62d

/-- exp(y) by Horner's scheme from term `j + n` down to term `j`: 1 + y / j (1 + y / (j + 1) (...)). -/
def fxExp (y : Nat) : Nat → Nat → Nat
  | 0, _ => fxOne
  | n + 1, j => fxOne + y * fxExp y n (j + 1) / (j * fxOne)

/-- An alternating series in y2 = y * y: 1 - y2 / (j (j + 1)) (1 - ...). -/
def fxAlt (y2 : Nat) : Nat → Nat → Nat
  | 0, _ => fxOne
  | n + 1, j => fxOne - y2 * fxAlt y2 n (j + 2) / (j * (j + 1) * fxOne)

/-- atanh(z) / z as a series in z2 = z * z: 1 / j + z2 (1 / (j + 2) + ...). -/
def fxAtanh (z2 : Nat) : Nat → Nat → Nat
  | 0, j => fxOne / j
  | n + 1, j => fxOne / j + z2 * fxAtanh z2 n (j + 2) / fxOne

/-- exp2 (R109). -/
def FVal.exp2 (a : FVal) : FVal :=
  match a with
  | .nan => .nan
  | .inf s => if s then .fin false 0 0 else .inf false
  | .fin s m e =>
    if m = 0 then .fin false 1 0
    else if 8 ≤ ilog2 m e then (if s then .fin false 1 (-1000) else .inf false)
    else
      let x := if 0 ≤ e then m * 2 ^ e.toNat * fxOne else if e < -(fxBits : Int) then 1 else m * 2 ^ (fxBits + e).toNat
      let i : Int := if s then -((x + fxOne - 1) / fxOne : Nat) else (x / fxOne : Nat)
      let f := if s then (x + fxOne - 1) / fxOne * fxOne - x else x % fxOne
      .fin false (fxExp (f * fxLn2 / fxOne) 50 1) (i - fxBits)

/-- log2 (R109). -/
def FVal.log2 (a : FVal) : FVal :=
  match a with
  | .nan => .nan
  | .inf s => if s then .nan else .inf false
  | .fin s m e =>
    if m = 0 then .inf true
    else if s then .nan
    else
      let k := Nat.log2 m
      let num := m - 2 ^ k
      let z := num * fxOne / (m + 2 ^ k)
      let ln := 2 * z * fxAtanh (z * z / fxOne) 70 1 / fxOne
      let fr : Int := (ln * fxOne / fxLn2 : Nat)
      (Dy.mk (((k : Int) + e) * (fxOne : Int) + fr) (-(fxBits : Int))).val false

/-- The quadrant of a magnitude below 2^17 and the rest below π/2, in fixed point. -/
def fxReduce (m : Nat) (e : Int) : Nat × Nat :=
  let x := if 0 ≤ e then m * 2 ^ e.toNat * fxOne else m * 2 ^ (fxBits + e).toNat / 2 ^ (-(fxBits : Int) - e).toNat
  let q := 2 * x / fxPi
  (q % 4, x - q * fxPi / 2)

/-- sin or cos of quadrant `q` and rest `r`. -/
def fxSin (q r : Nat) : FVal :=
  let y2 := r * r / fxOne
  let v := if q % 2 = 0 then r * fxAlt y2 40 2 / fxOne else fxAlt y2 40 1
  .fin (decide (2 ≤ q % 4)) v (-(fxBits : Int))

/-- Whether |x| is above 65,536 or infinite. -/
def trigOut (a : FVal) : Bool :=
  match a with
  | .nan => false
  | .inf _ => true
  | .fin _ m e => (Dy.mk 65536 0).lt ⟨m, e⟩

/-- sin (R109); below 2^-12 the nearest FP32 value of sin x is x itself. -/
def FVal.sin (a : FVal) : FVal :=
  match a with
  | .fin s m e =>
    if trigOut a then .nan
    else if m = 0 ∨ ilog2 m e < -12 then a
    else
      let r := fxReduce m e
      let v := fxSin r.1 r.2
      if s then v.negate else v
  | _ => .nan

/-- cos (R109). -/
def FVal.cos (a : FVal) : FVal :=
  match a with
  | .fin _ m e =>
    if trigOut a then .nan
    else if m = 0 ∨ ilog2 m e < -20 then .fin false 1 0
    else
      let r := fxReduce m e
      fxSin (r.1 + 1) r.2
  | _ => .nan

/-- A function unit's operation (R109) by its opcode. -/
def fnVal (op : Nat) (a : FVal) : FVal :=
  match op with
  | 1 => a.exp2
  | 2 => a.log2
  | 3 => (FVal.fin false 1 0).div a
  | 4 => a.rsqrt
  | 5 => a.sin
  | _ => a.cos

/-- A function unit's result as FP32 with its events (R109, R115): a NaN input gives an uncounted NaN, an infinity made
from a finite input counts, a NaN made from a number counts. -/
def fnOp (op : Nat) (x : BitVec 32) : BitVec 32 × Evs :=
  let a := f32 x
  let r := ieeeOp fp32 [a] (fnVal op a)
  (BitVec.ofNat 32 r.1, r.2)

end Sys2Proof.Machine
end

