-- ==== Sys2Proof/Config.lean ====
section
/-! DEFINITION. What the spec leaves open: free values without a body, applied to the state's own counter
(`freeCtr`, log 8) so that each use is a fresh value, and the constants of one module that the spec leaves to it. -/

namespace Sys2Proof.Config

/-- A byte that abandoned work leaves (11 R350, 12 R379): log 8. -/
opaque abandonedByte : Nat → BitVec 8

/-- A 64-bit value that abandoned work or a failed storage restore leaves (11 R350, 12 R379): log 8. -/
opaque abandonedValue : Nat → BitVec 64

/-- How many pending records beyond 512 the flash takes in the 2 ms after PWRFAIL_N (16 R474): log 8. -/
opaque flashExtra : Nat → BitVec 16

/-- A byte of an answer that an outside standard defines: SPDM and DOE (15 R460), MCTP and PLDM (15 R450): log 8. -/
opaque protocolByte : Nat → BitVec 8

/-- How many bytes such an answer has: log 8. -/
opaque protocolLength : Nat → BitVec 12

/-- The physical address that the consumption of a poisoned scratchpad line records (06 R174); the line keeps a poison
bit and no address (05 R123): log 8. -/
opaque lineAddress : Nat → BitVec 64

/-- A byte of the firmware that a slot was made with, by 2^27 x slot + offset (15 R454): log 9. -/
opaque fwByte : Nat → BitVec 8

/-- The colophon hash of the firmware that a slot was made with (15 R454): log 9. -/
opaque factoryColophon : Nat → BitVec 256

/-- The SHA-256 of the boot ROM, recorded in fuses at manufacture (15 R459): log 9. -/
opaque romMeasure : BitVec 256

/-- The SHA-256 of what a slot was made with under a measurement index (15 R459): slot, index; log 9. -/
opaque factoryMeasure : Nat → Nat → BitVec 256

/-- KEYHASH0 to KEYHASH3 as fused (15 R453): log 9. -/
opaque keyHash : Nat → BitVec 256

/-- A word of the stack and SerDes windows (17 R489), whose layout is the firmware's: log 8. -/
opaque windowWord : Nat → BitVec 32

/-- The vertical eye margin that a training measures, in mV (09 R292): log 8. -/
opaque eyeMargin : Nat → BitVec 16

/-- Bytes of a unit's record in a dump, but for a core's memories (13 R412, which lists its contents and gives them no
layout): log 8. -/
opaque dumpLength : Nat → BitVec 32

/-- A byte of such a record: log 8. -/
opaque dumpByte : Nat → BitVec 8

/-- SVN of the firmware that a slot was made with (15 R454): log 9. -/
opaque factorySvn : Nat → BitVec 6

/-- The share of the I/O-die estimate, in 1/65,536, that counts for a partition, by partitions of the mode x 4 + partition
(14 R426, R432): log 8. -/
opaque ioShare : Nat → BitVec 16

/-- A leading or a gain that a division by 0 leaves open (14 R428, R432): log 8. -/
opaque powerFree : Nat → BitVec 16

end Sys2Proof.Config
end

