-- ==== Sys2Proof/Machine/Base.lean ====
section
/-! DEFINITION. The floorplan (01_organisation.md R15 to R31), the accessors of the state, and the set-up registers by
instance and offset (17_register_interface.md R482). -/

namespace Sys2Proof.Machine

/-! ### Partitions (01 R20 to R22) -/

/-- Partitions of the mode in force (R20). -/
def nparts (s : State) : Nat := if s.pmode = 0 then 1 else if s.pmode = 1 then 2 else 4

/-- The partition of a host port; none where the mode does not use the port (R20). -/
def hpPart (s : State) (h : Nat) : Option Nat :=
  match nparts s with
  | 1 => if h = 0 then some 0 else none
  | 2 => if h = 0 then some 0 else if h = 2 then some 1 else none
  | _ => if h < 4 then some h else none

/-- The host port of a partition (R20). -/
def partHp (s : State) (p : Nat) : Nat := if nparts s = 2 then 2 * p else p

/-- Whether the mode in force has the partition. -/
def partExists (s : State) (p : Nat) : Bool := decide (p < nparts s)

/-- Logical cores of each partition (R20). -/
def lcores (s : State) : Nat := 120 / nparts s

/-- The partition of a logical core (R20). -/
def lcorePart (s : State) (l : Nat) : Nat := l / lcores s

/-- Stacks of each partition (R15, R20). -/
def nstacks (s : State) : Nat := 12 / nparts s

/-- The partition of a stack (R15, R20). -/
def stackPart (s : State) (k : Nat) : Nat := k / nstacks s

/-- The stacks of a partition, ascending. -/
def partStacks (s : State) (p : Nat) : List Nat := upto (p * nstacks s) (nstacks s)

/-- The partition of a physical core's die (R15, R20). -/
def corePart (s : State) (c : Nat) : Nat := c / (128 / nparts s)

/-- The partition of a 1 GiB region: region r lies on stack r div 92 (06 R155). -/
def regionPart (s : State) (r : Nat) : Nat := stackPart s (r / 92)

/-- Default partition of a Jilan port (R22). -/
def portDefault (n j : Nat) : Nat :=
  match n with
  | 1 => 0
  | 2 => if j < 28 then j / 14 else (j - 28) / 2
  | _ => if j < 28 then j / 7 else j - 28

/-! ### Table accessors -/

/-- A partition. -/
def part (s : State) (p : Nat) : Part := mget s.parts {} p

/-- A partition replaced. -/
def setPart (s : State) (p : Nat) (v : Part) : State := { s with parts := mset s.parts {} p v }

/-- A partition updated. -/
def updPart (s : State) (p : Nat) (f : Part → Part) : State := setPart s p (f (part s p))

/-- The step and proof state of a partition. -/
def proof (s : State) (p : Nat) : Proof := (part s p).proof

/-- It updated. -/
def updProof (s : State) (p : Nat) (f : Proof → Proof) : State :=
  updPart s p (fun x => { x with proof := f x.proof })

/-- The transport engine of a partition. -/
def xport (s : State) (p : Nat) : Xport := (part s p).xport

/-- It updated. -/
def updXport (s : State) (p : Nat) (f : Xport → Xport) : State :=
  updPart s p (fun x => { x with xport := f x.xport })

/-- The mirroring of a partition. -/
def mirror (s : State) (p : Nat) : Mirror := (part s p).mirror

/-- It updated. -/
def updMirror (s : State) (p : Nat) (f : Mirror → Mirror) : State :=
  updPart s p (fun x => { x with mirror := f x.mirror })

/-- The snapshot machinery of a partition. -/
def snap (s : State) (p : Nat) : Snap := (part s p).snap

/-- It updated. -/
def updSnap (s : State) (p : Nat) (f : Snap → Snap) : State :=
  updPart s p (fun x => { x with snap := f x.snap })

/-- A host port. -/
def hport (s : State) (h : Nat) : HostPort := mget s.hps {} h

/-- It updated. -/
def updHp (s : State) (h : Nat) (f : HostPort → HostPort) : State :=
  { s with hps := mset s.hps {} h (f (hport s h)) }

/-- A queue. -/
def queue (s : State) (h q : Nat) : Queue := mget (hport s h).queues {} q

/-- It updated. -/
def updQueue (s : State) (h q : Nat) (f : Queue → Queue) : State :=
  updHp s h (fun x => { x with queues := mset x.queues {} q (f (mget x.queues {} q)) })

/-- A physical core. -/
def core (s : State) (c : Nat) : Core := mget s.cores {} c

/-- It updated. -/
def updCore (s : State) (c : Nat) (f : Core → Core) : State :=
  { s with cores := mset s.cores {} c (f (core s c)) }

/-- The units of a physical core. -/
def unitsOf (s : State) (c : Nat) : Units := mget s.units {} c

/-- They updated. -/
def updUnits (s : State) (c : Nat) (f : Units → Units) : State :=
  { s with units := mset s.units {} c (f (unitsOf s c)) }

/-- A Jilan port. -/
def port (s : State) (j : Nat) : Port := mget s.ports {} j

/-- It updated. -/
def updPort (s : State) (j : Nat) (f : Port → Port) : State :=
  { s with ports := mset s.ports {} j (f (port s j)) }

/-- The link layer of a port updated. -/
def updLink (s : State) (j : Nat) (f : Link → Link) : State :=
  updPort s j (fun x => { x with link := f x.link })

/-- The memory system updated. -/
def updMs (s : State) (f : MemSys → MemSys) : State := { s with ms := f s.ms }

/-- Power updated. -/
def updPower (s : State) (f : Power → Power) : State := { s with power := f s.power }

/-- Management updated. -/
def updMgmt (s : State) (f : Mgmt → Mgmt) : State := { s with mgmt := f s.mgmt }

/-- Faults updated. -/
def updFaults (s : State) (f : Faults → Faults) : State := { s with faults := f s.faults }

/-- The recorder updated. -/
def updEvr (s : State) (f : Recorder → Recorder) : State := { s with evr := f s.evr }

/-- Something sent (log 6). -/
def emit (s : State) (o : Out) : State := { s with out := s.out ++ [o] }

/-- A stack. -/
def stack (s : State) (k : Nat) : Stack := mget s.ms.stackTab {} k

/-- It updated. -/
def updStack (s : State) (k : Nat) (f : Stack → Stack) : State :=
  updMs s (fun m => { m with stackTab := mset m.stackTab {} k (f (mget m.stackTab {} k)) })

/-- A pseudo-channel. -/
def channel (s : State) (i : Nat) : Channel := mget s.ms.channels {} i

/-- It updated. -/
def updChannel (s : State) (i : Nat) (f : Channel → Channel) : State :=
  updMs s (fun m => { m with channels := mset m.channels {} i (f (mget m.channels {} i)) })

/-! ### Core map (01 R24, R25) -/

/-- Default physical core of a logical core (R25). -/
def defaultPhys (l : Nat) : Nat := l + 2 * (l / 30)

/-- The physical core that runs a logical core. -/
def physOf (s : State) (l : Nat) : Nat := mget s.coreMap (defaultPhys l) l

/-- A core-map entry set. -/
def setPhys (s : State) (l c : Nat) : State := { s with coreMap := mset s.coreMap (defaultPhys l) l c }

/-- The logical core that a physical core serves. -/
def logicalOf (s : State) (c : Nat) : Option Nat := (List.range 120).find? (fun l => physOf s l == c)

/-- The partition a physical core works for: that of its logical core, or of its die. -/
def coreOwner (s : State) (c : Nat) : Nat :=
  match logicalOf s c with
  | some l => lcorePart s l
  | none => corePart s c

/-! ### Unit codes (13 R407) -/

/-- Unit code of a type and number. -/
def unitCode (ty n : Nat) : Nat := ty * 4096 + n
/-- Physical core. -/
def ucCore (c : Nat) : Nat := unitCode 1 c
/-- Galley. -/
def ucGalley (g : Nat) : Nat := unitCode 2 g
/-- Pseudo-channel. -/
def ucChannel (i : Nat) : Nat := unitCode 3 i
/-- Stack controller. -/
def ucStack (k : Nat) : Nat := unitCode 4 k
/-- Stack engine. -/
def ucEngine (k : Nat) : Nat := unitCode 5 k
/-- Jilan port. -/
def ucPort (j : Nat) : Nat := unitCode 6 j
/-- Transport engine. -/
def ucXport (p : Nat) : Nat := unitCode 7 p
/-- Host port. -/
def ucHost (h : Nat) : Nat := unitCode 8 h
/-- Die switch. -/
def ucDie (d : Nat) : Nat := unitCode 9 d
/-- Speush controller: 0 the primary. -/
def ucSpeush (n : Nat) : Nat := unitCode 10 n

/-! ### Set-up registers without a field of their own (17 R482) -/

/-- Whose copy of a register. -/
inductive RegInst where
  /-- The one device-global copy. -/
  | dev
  /-- A partition's copy. -/
  | part (p : Nat)
  /-- A host port's copy. -/
  | hp (h : Nat)
  deriving DecidableEq, Repr, Inhabited

/-- The key of a register copy in `State.regs`. -/
def RegInst.key (i : RegInst) (off : Nat) : Nat :=
  match i with
  | .dev => off
  | .part p => (1 + p) * 2 ^ 26 + off
  | .hp h => (5 + h) * 2 ^ 26 + off

/-- Default power share in 1/256 (14 R427). -/
def pshareDefault (n p : Nat) : Nat := if p < n then 256 / n else 0

/-- Default OP table entry: VCORE in [9:0], k in [20:16] (14 R423). -/
def opDefault (i : Nat) : Nat :=
  [600 + 8 * 65536, 630 + 9 * 65536, 660 + 10 * 65536, 690 + 11 * 65536, 720 + 12 * 65536, 750 + 13 * 65536,
    800 + 15 * 65536, 850 + 16 * 65536].getD i 0

/-- Reset word of a set-up register held in `State.regs`, in a mode of `n` partitions: the resets of R29, R199, R292,
R327, R360, R385, R415, R438, R468, R480, R497, R499, R501, R522 and the defaults of 06 R157. -/
def regReset (n off : Nat) : Nat :=
  if 0x0400000 ≤ off ∧ off < 0x0420000 then
    if off % 0x1000 = 0 then
      -- JP_CFG: EN 1, ROLE 0b01 for J28 to J31, DEFER 1, BERLIM 5 (09 R292)
      1 + (if 28 ≤ (off - 0x0400000) / 0x1000 then 2 else 0) + 128 + 5 * 256
    else 0
  else if 0x0010100 ≤ off ∧ off < 0x0010180 then portDefault n ((off - 0x0010100) / 4) + 4
  else if 0x0080040 ≤ off ∧ off < 0x0080060 then opDefault ((off - 0x0080040) / 4)
  else if 0x0080060 ≤ off ∧ off < 0x0080070 then 7 * 256
  else if 0x0800040 ≤ off ∧ off < 0x0800060 then
    let p := (off - 0x0800040) / 8
    if n ≤ p then 0 else if off % 8 = 0 then p * (2359296 / n) else 2359296 / n
  else if 0x0800200 ≤ off ∧ off < 0x0800220 then
    let p := (off - 0x0800200) / 8
    if n ≤ p then 0 else if off % 8 = 0 then p * (65536 / n) else 65536 / n
  else match off with
    | 0x020403C => 32
    | 0x0300000 => 2 ^ 16 + 2 ^ 18
    | 0x00C0800 => 60
    | 0x00C0804 => 15
    | 0x00C080C => 10000 + 10000 * 65536
    | 0x00C0810 => 120
    | 0x00C0814 => 100
    | 0x00C0818 => 100
    | 0x00C081C => 200 + 20 * 65536
    | 0x00C0880 => 65536
    | 0x0080000 => 2400
    | 0x0080004 => 3000
    | 0x0080018 => 105
    | 0x008001C => 24
    | 0x0080020 => 40 + 32 * 256
    | 0x0080024 => 50
    | 0x0080028 => 0x40 + 0x41 * 2 ^ 8 + 0x42 * 2 ^ 16 + 0x43 * 2 ^ 24
    | 0x0010C40 => 0x88B5
    | 0x0010C44 => 0xFFFFFFFF
    | 0x0010C48 => 0xFFFF
    | 0x0010C70 => 1000 + 100 * 65536
    | 0x0100024 => 10
    | 0x0800244 => 0x3F800000
    | 0x0800248 => 3
    | 0x0800500 => 24
    | 0x0800504 => 360
    | 0x0010018 => 1
    | _ => 0

/-- The word of a register copy. -/
def regW (s : State) (i : RegInst) (off : Nat) : Nat := mget s.regs (regReset (nparts s) off) (i.key off)

/-- A field of it. -/
def regF (s : State) (i : RegInst) (off lo w : Nat) : Nat := natFld (regW s i off) lo w

/-- The word set. -/
def setReg (s : State) (i : RegInst) (off v : Nat) : State :=
  { s with regs := mset s.regs (regReset (nparts s) off) (i.key off) (v % 2 ^ 32) }

/-- A field of it set. -/
def setRegF (s : State) (i : RegInst) (off lo w v : Nat) : State := setReg s i off (setFld (regW s i off) lo w v)

/-- PORT_ASSIGN[n].PART, when ASSIGNED (17 R499). -/
def portPart (s : State) (j : Nat) : Option Nat :=
  let w := regW s .dev (0x0010100 + 4 * j)
  if natFld w 2 1 = 1 then some (natFld w 0 2) else none

/-- The ports assigned to a partition, ascending. -/
def partPorts (s : State) (p : Nat) : List Nat := (List.range 32).filter (fun j => portPart s j == some p)

/-- JP_CFG of a port (09 R292). -/
def jpCfg (s : State) (j : Nat) : Nat := regW s .dev (0x0400000 + 0x1000 * j)

/-- JP_CFG.EN. -/
def jpEn (s : State) (j : Nat) : Bool := (jpCfg s j).testBit 0

/-- JP_CFG.ROLE: 0 FABRIC, 1 STORAGE, 2 HOSTSIDE. -/
def jpRole (s : State) (j : Nat) : Nat := natFld (jpCfg s j) 1 2

/-- The partition's device ID (17 R499). -/
def devId (s : State) (p : Nat) : Nat := regF s (.part p) 0x0010004 0 20

/-- PART_STEPQ of a host port. -/
def stepQ (s : State) (h : Nat) : Nat := regF s (.hp h) 0x0010008 0 6

/-- START_STEP of a partition (18 R522). -/
def startStep (s : State) (p : Nat) : Nat :=
  regW s (.part p) 0x0010018 + 2 ^ 32 * regF s (.part p) 0x001001C 0 16

/-- CTX_BASE of a partition (06 R157). -/
def ctxBase (s : State) (p : Nat) : Nat := regF s .dev (0x0800040 + 8 * p) 0 22

/-- CTX_SIZE of a partition. -/
def ctxSize (s : State) (p : Nat) : Nat := regF s .dev (0x0800044 + 8 * p) 0 23

/-- SCT_BASE of a partition (07 R199). -/
def sctBase (s : State) (p : Nat) : Nat := regF s .dev (0x0800200 + 8 * p) 0 16

/-- SCT_SIZE of a partition. -/
def sctSize (s : State) (p : Nat) : Nat := regF s .dev (0x0800204 + 8 * p) 0 17

/-! ### Time, steps and generations -/

/-- UPTIME in ns: SLOW periods of 80/9 ns, rounded down (16 R470). -/
def uptimeNs (s : State) : Nat := s.ticks * 80 / 9

/-- Whether the device takes commands: it is not held in device-cold reset, and its clocks run (18 R512, R513, R517). -/
def awake (s : State) : Bool := s.pins.stage == .booting || s.pins.stage == .ready || s.pins.stage == .recovery

/-- The time that counts on across device-cold resets (13 R406). -/
def nowAll (s : State) : Nat := s.faults.base + uptimeNs s

/-- A partition's generation: epoch in [23:8], reprint count in [7:0] (00 R5). -/
def genOf (s : State) (p : Nat) : Nat := (xport s p).epoch * 256 + (xport s p).reprint

/-- Whether the partition has passed its start-up barrier (18 R522). -/
def passed (s : State) (p : Nat) : Bool := (part s p).pstate == 4

/-- Whether some partition of the device has passed its start-up barrier. -/
def anyPassed (s : State) : Bool := (List.range (nparts s)).any (passed s)

/-- The record of a step held. -/
def stepRec (s : State) (p n : Nat) : Option StepRec := (proof s p).steps.find? (fun r => r.step == n)

/-- A step's record updated. -/
def updStep (s : State) (p n : Nat) (f : StepRec → StepRec) : State :=
  updProof s p (fun x => { x with steps := x.steps.map (fun r => if r.step = n then f r else r) })

/-- Whether the partition has a step OPEN or COMPUTED. -/
def stepActive (s : State) (p : Nat) : Bool := (proof s p).steps.any (fun r => r.state == 1 || r.state == 2)

/-! ### Firmware slots (15 R451, R454, R455) -/

/-- A firmware slot. -/
def fwSlot (s : State) (i : Nat) : FwSlot := mget s.mgmt.fw {} i

/-- A byte of a firmware slot: written by an update, or of the firmware it was made with (log 9). -/
def fwByteAt (s : State) (i o : Nat) : Byte := mget (fwSlot s i).bytes (Config.fwByte (2 ^ 27 * i + o)) o

/-- Whether the slot still holds the firmware it was made with, which verifies (log 9). -/
def slotIntact (s : State) (i : Nat) : Bool := (fwSlot s i).bytes.isEmpty

/-- `n` bytes of a slot. -/
def fwBytesAt (s : State) (i o n : Nat) : Bytes := (upto o n).map (fwByteAt s i)

/-- The colophon hash of the booted slot (R454). -/
def colophonHash (s : State) : Bytes :=
  let i := s.mgmt.slot
  if slotIntact s i then beBytes 32 (Config.factoryColophon i).toNat else sha256 (fwBytesAt s i 0 0x600)

/-- The Jilan protocol range of the booted slot (09 R281): 0x01 to 0x01 for firmware that conforms to the manual. -/
def jvRange (s : State) : Nat × Nat :=
  let i := s.mgmt.slot
  if slotIntact s i then (1, 1) else ((fwByteAt s i 9).toNat, (fwByteAt s i 10).toNat)

/-- A fresh free value: the counter's value and the state with the counter advanced (log 8). -/
def fresh (s : State) : Nat × State := (s.freeCtr, { s with freeCtr := s.freeCtr + 1 })

/-- Whether a Speush controller runs (15 R441). -/
def speushUp (s : State) : Bool := !s.mgmt.bothDown

/-- The owner host port in force (15 R462). -/
def isOwner (s : State) (h : Nat) : Bool := s.mgmt.owner == h

end Sys2Proof.Machine
end

