-- ==== Sys2Proof/Machine/Events.lean ====
section
/-! DEFINITION. Interrupts (08 R224, 17 R497, R498), sticky status (17 R495, R496) and the recording of events
(16_event_recorder.md R469 to R475). -/

namespace Sys2Proof.Machine

/-! ### MSI-X -/

/-- The reset word of an MSI-X table or PBA offset: a vector's mask bit is 1 (PRESUMED, the PCI Express specification;
log 12). -/
def msixReset (off : Nat) : Nat := if off < 0x8000 ∧ off % 16 = 12 then 1 else 0

/-- An MSI-X table or PBA word of a host port, by offset from 0x004_0000. -/
def msixW (s : State) (h off : Nat) : Nat := mget (hport s h).msix (msixReset off) off

/-- Whether a host port has a link that can carry requests (08 R259). -/
def hostUp (s : State) (h : Nat) : Bool := (hport s h).linkUp && !(hport s h).cfg.d3hot

/-- An MSI-X message sent, or its pending bit set while the vector is masked; nothing while the link is down (R224,
R259, R498). -/
def sendMsix (s : State) (h v : Nat) : State :=
  if hostUp s h then
    if (msixW s h (16 * v + 12)).testBit 0 then
      let off := 0x8000 + 4 * (v / 32)
      updHp s h (fun x => { x with msix := mset x.msix 0 off (mget x.msix 0 off ||| 2 ^ (v % 32)) })
    else emit s (.msix h v)
  else s

/-- Host ports of the mode in force. -/
def activeHps (s : State) : List Nat := (List.range (nparts s)).map (partHp s)

/-- An asynchronous cause bit set on a host port; ASYNC_IV goes out when an enabled bit goes from 0 to 1 (R498). -/
def asyncCause (s : State) (h bit : Nat) : State :=
  if (hport s h).asyncCause.testBit bit then s
  else
    let s := updHp s h (fun x => { x with asyncCause := x.asyncCause ||| 2 ^ bit })
    if (hport s h).asyncMask.testBit bit then sendMsix s h (regF s (.hp h) 0x0049000 16 11) else s

/-- The STICKY cause on every host port of a list. -/
def stickyCause (s : State) (hs : List Nat) : State := hs.foldl (fun s h => asyncCause s h 4) s

/-- A sticky bit of STICKY_HOST set (R496). -/
def stickyHost (s : State) (h bit : Nat) : State :=
  let w := regW s (.hp h) 0x00C0000
  if w.testBit bit then s else stickyCause (setReg s (.hp h) 0x00C0000 (w ||| 2 ^ bit)) [h]

/-- A sticky bit of STICKY_PART set. -/
def stickyPart (s : State) (p bit : Nat) : State :=
  let w := regW s (.part p) 0x00C0004
  if w.testBit bit then s else stickyCause (setReg s (.part p) 0x00C0004 (w ||| 2 ^ bit)) [partHp s p]

/-- A sticky bit of STICKY_DEV set. -/
def stickyDev (s : State) (bit : Nat) : State :=
  let w := regW s .dev 0x00C0008
  if w.testBit bit then s else stickyCause (setReg s .dev 0x00C0008 (w ||| 2 ^ bit)) (activeHps s)

/-- A bit of JP_ERR set (09 R292). -/
def stickyPort (s : State) (j bit : Nat) : State :=
  let w := (port s j).err
  if w.testBit bit then s
  else
    let s := updPort s j (fun x => { x with err := w ||| 2 ^ bit })
    match portPart s j with
    | some p => stickyCause s [partHp s p]
    | none => s

/-- A sticky bit of PWR_STAT set (14 R438). -/
def stickyPower (s : State) (bit : Nat) : State :=
  if s.power.stat.testBit bit then s
  else stickyCause (updPower s (fun x => { x with stat := x.stat ||| 2 ^ bit })) (activeHps s)

/-- SPEUSH_FAIL set (15 R441, R468). -/
def stickySpeush (s : State) : State :=
  if s.mgmt.fail then s else stickyCause (updMgmt s (fun x => { x with fail := true })) (activeHps s)

/-! ### Events -/

/-- Severity of an event code (R472). -/
def evSev (e : Nat) : Nat :=
  match e with
  | 0x01 | 0x02 | 0x03 => 2
  | 0x04 => 1
  | 0x10 => 5 | 0x11 => 3
  | 0x20 | 0x21 => 3 | 0x22 => 4 | 0x23 => 5 | 0x24 => 4 | 0x25 => 6
  | 0x30 | 0x31 | 0x32 => 5 | 0x33 => 6 | 0x34 => 4 | 0x35 => 3
  | 0x40 | 0x41 | 0x42 => 5 | 0x43 => 6
  | 0x50 => 6 | 0x51 => 5 | 0x52 => 6 | 0x53 | 0x54 => 4 | 0x56 => 7 | 0x57 => 5 | 0x58 => 6
  | 0x60 => 6 | 0x61 => 7 | 0x62 => 5 | 0x63 => 4
  | 0x70 | 0x71 => 6 | 0x72 => 3 | 0x73 => 4
  | 0xF0 => 4 | 0xF1 => 6
  | _ => 0

/-- Sensors of a die: 0 to 3 for D0 to D3, 4 for X0, 5 for X1 (14 R435, R438). -/
def dieSensors (d : Nat) : List Nat := if d < 4 then upto (16 * d) 16 else upto (64 + 4 * (d - 4)) 4

/-- The hottest sensor of a die, in 0.25 °C. -/
def dieTemp (s : State) (d : Nat) : Nat := ((dieSensors d).map (mget s.power.sensors 0)).foldl max 0

/-- TEMP of a source unit: the stack's temperature for types 0x3 to 0x5, else the hottest sensor of its die (R470). A
host port's die is that of its lanes, a transport engine's that of its partition's lowest port (DEDUCED, log 13). -/
def unitTemp (s : State) (u : Nat) : Nat :=
  let n := u % 4096
  match u / 4096 with
  | 1 => dieTemp s (n / 32)
  | 2 => dieTemp s (n / 4)
  | 3 => (stack s (n / 32)).temp
  | 4 => (stack s n).temp
  | 5 => (stack s n).temp
  | 6 => dieTemp s (if n < 16 then 4 else 5)
  | 7 => dieTemp s (if ((partPorts s n).headD 0) < 16 then 4 else 5)
  | 8 => dieTemp s (if n < 2 then 4 else 5)
  | 9 => dieTemp s n
  | _ => dieTemp s (4 + n)

/-- Pending records written to flash in SEQ order; nothing while recording is frozen (R477) or no controller runs. -/
def flushEvents (s : State) : State :=
  if s.evr.frozen || s.mgmt.bothDown then s
  else updEvr s (fun x => { x with flash := x.flash ++ x.pending, pending := [] })

/-- Records of the flash area (R475). -/
def flashSlots : Nat := 1048576

/-- Records of the buffer (R474). -/
def bufferSlots : Nat := 16384

/-- The record whose slot a new record of severity `sev` takes: the oldest of the lowest severity present, when that
is at or below `sev` (R475). -/
def victim (rs : List Event) (sev : Nat) : Option Event :=
  match rs with
  | [] => none
  | r :: t =>
    let low := t.foldl (fun a x => min a x.sev) r.sev
    if low ≤ sev then (r :: t).find? (fun x => x.sev == low) else none

/-- A new record stored (R475). -/
def storeEvent (s : State) (e : Event) : State :=
  let x := s.evr
  let full := decide (flashSlots ≤ x.flash.length + x.pending.length)
  let fullBuf := decide (bufferSlots ≤ x.pending.length)
  let put (x : Recorder) : State :=
    { s with evr := { x with pending := x.pending ++ [{ e with seq := x.seqNext }], seqNext := x.seqNext + 1 } }
  if full || fullBuf then
    match victim (if fullBuf then x.pending else x.flash ++ x.pending) e.sev with
    | some v => put { x with flash := x.flash.filter (fun r => r.seq != v.seq),
                             pending := x.pending.filter (fun r => r.seq != v.seq) }
    | none => stickyDev (updEvr s (fun x => { x with dropped := min (x.dropped + 1) (2 ^ 32 - 1) })) 2
  else put x

/-- Whether two events are identical (R473). -/
def sameEvent (a b : Event) : Bool :=
  a.sev == b.sev && a.part == b.part && a.source == b.source && a.oper == b.oper && a.event == b.event &&
  a.detail == b.detail && a.step == b.step && a.epoch == b.epoch && a.reprint == b.reprint

/-- An event recorded (R469 to R477): partition 0 to 3 or 7, source unit, operation, event code, detail. -/
def recordE (s : State) (p src oper ev : Nat) (detail : Bytes) (inj : Bool) : State :=
  let sev := evSev ev
  if sev < s.evr.minSev then s
  else if s.evr.frozen then
    updEvr s (fun x => { x with frozenCnt := min (x.frozenCnt + 1) (2 ^ 32 - 1), frozenSev := max x.frozenSev sev })
  else
    let dev := decide (p = 7)
    let pr := proof s p
    let e : Event :=
      { seq := 0, uptime := uptimeNs s
        step := if dev then 0 else pr.openStep.getD pr.lastComputed
        epoch := if dev then 0 else (xport s p).epoch
        reprint := if dev then 0 else (xport s p).reprint
        sev := sev, part := p, injected := inj, source := src, oper := oper, event := ev
        temp := unitTemp s src, vcore := s.power.meas, rep := 0, detail := sub detail 0 16, lastDt := 0 }
    let s := match s.evr.pending.getLast? with
      | some l =>
        if sameEvent l e && decide (l.rep < 65535) then
          updEvr s (fun x => { x with pending := x.pending.dropLast ++
            [{ l with rep := l.rep + 1, lastDt := min ((uptimeNs s - l.uptime) / 1000) (2 ^ 32 - 1) }] })
        else storeEvent s e
      | none => storeEvent s e
    if 5 ≤ sev ∨ 256 ≤ s.evr.pending.length then flushEvents s else s

/-- An event that is not injected. -/
def record (s : State) (p src oper ev : Nat) (detail : Bytes) : State := recordE s p src oper ev detail false

/-- The 64 bytes of a record (R470). -/
def Event.bytes (e : Event) : Bytes :=
  let b := leBytes 8 e.seq ++ leBytes 8 e.uptime ++ leBytes 6 e.step ++ leBytes 2 e.epoch ++ leBytes 1 e.reprint ++
    leBytes 1 (e.sev + e.part * 8 + b2n e.injected * 64) ++ leBytes 2 e.source ++ leBytes 2 e.oper ++
    leBytes 2 e.event ++ leBytes 2 e.temp ++ leBytes 2 e.vcore ++ leBytes 2 e.rep ++ zeros 2 ++ sub e.detail 0 16 ++
    leBytes 4 e.lastDt ++ zeros 2
  b ++ leBytes 2 (crc16 b)

/-- Every record still stored, in SEQ order. -/
def storedEvents (s : State) : List Event := s.evr.flash ++ s.evr.pending

/-- OPER of a register access (R470). -/
def operReg : Nat := 3 * 4096
/-- OPER of a descriptor. -/
def operDesc (opcode : Nat) : Nat := 1 * 4096 + opcode
/-- OPER of a tile instruction on a unit. -/
def operTile (unit : Nat) : Nat := 2 * 4096 + unit
/-- OPER of a management command. -/
def operMgmt (cmd : Nat) : Nat := 4 * 4096 + cmd
/-- OPER of engine work. -/
def operEngine (recipe : Nat) : Nat := 5 * 4096 + recipe
/-- OPER of link or transport work. -/
def operLink : Nat := 6 * 4096

/-- WRITE_IGNORED with its cause (R472): 0 state, 1 scope, 2 range, 3 overlap, 4 busy. -/
def writeIgnored (s : State) (h off v cause : Nat) : State :=
  record s ((hpPart s h).getD 7) (ucHost h) operReg 0x0002 (leBytes 4 off ++ leBytes 4 v ++ leBytes 1 cause)

/-- KEYED_WRITE with its outcome: 0 taken, 1 not armed, 2 scope refused, 3 out of range (R472). MGMT_KEY records its
value as 0 (R469). -/
def keyedWrite (s : State) (h off v outcome : Nat) : State :=
  let v := if 0x0010C50 ≤ off ∧ off < 0x0010C70 then 0 else v
  record s ((hpPart s h).getD 7) (ucHost h) operReg 0x0001 (leBytes 4 off ++ leBytes 4 v ++ leBytes 1 outcome)

/-- A DOMAIN_RESET record: domain 1 to 9 in R398 order, cause of R472. -/
def recordReset (s : State) (p src domain cause : Nat) : State :=
  record s p src 0 0x0051 (leBytes 1 domain ++ leBytes 1 cause)

/-! ### Negative events (11 R332, R333) -/

/-- A negative event raised; it is handled when the command in hand ends (log 11). -/
def raise (s : State) (p reason : Nat) (step : Option Nat) (unit : Nat) : State :=
  { s with raised := s.raised ++ [⟨p, reason, step, unit, [], false⟩] }

/-- The same from an injected fault. -/
def raiseInj (s : State) (p reason : Nat) (step : Option Nat) (unit : Nat) (inj : Bool) : State :=
  { s with raised := s.raised ++ [⟨p, reason, step, unit, [], inj⟩] }

/-- A negative event that asks for strikes. -/
def raiseStrikes (s : State) (p reason : Nat) (unit : Nat) (ss : List StrikeEntry) : State :=
  { s with raised := s.raised ++ [⟨p, reason, none, unit, ss, false⟩] }

end Sys2Proof.Machine
end

