-- ==== Sys2Proof/Machine/Ops.lean ====
section
/-! DEFINITION. The named operations that every meaning shares: bytes with their poison (06 R173), host memory (06 R159),
translation and requester classes (06 R156 to R162), interleave (06 R165 to R168), the undo journal and copy-on-write
hooks of a write (07 R208, R211; 12), poison consumption (06 R174), Jilan port state changes (09 R277 to R279) and
health scores (13 R394, R395). -/

namespace Sys2Proof.Machine

/-! ### Bytes with poison -/

/-- Bytes without poison. -/
def Blob.clean (bs : Bytes) : Blob := ⟨bs, []⟩

/-- Whether any byte is poisoned. -/
def Blob.bad (b : Blob) : Bool := b.pz.any (fun r => decide (0 < r.2))

/-- Whether some poisoned range meets the bytes `lo .. lo + n - 1`. -/
def Blob.badIn (b : Blob) (lo n : Nat) : Bool :=
  b.pz.any (fun r => decide (0 < r.2) && decide (r.1 < lo + n) && decide (lo < r.1 + r.2))

/-- Poisoned ranges moved by an offset. -/
def shiftPz (pz : List (Nat × Nat)) (o : Nat) : List (Nat × Nat) := pz.map (fun r => (r.1 + o, r.2))

/-- Two blobs, one after the other. -/
def Blob.append (a b : Blob) : Blob := ⟨a.data ++ b.data, a.pz ++ shiftPz b.pz a.data.length⟩

/-- Bytes `lo .. lo + n - 1` of a blob with their poison. -/
def Blob.slice (b : Blob) (lo n : Nat) : Blob :=
  ⟨(b.data.drop lo).take n,
   (b.pz.filter (fun r => decide (r.1 < lo + n) && decide (lo < r.1 + r.2))).map
     (fun r => let a := max r.1 lo; (a - lo, min (r.1 + r.2) (lo + n) - a))⟩

/-- The poisoned ranges of `a .. a + n - 1` where the listed 64-byte units are poisoned (R123, R173). -/
def pzOf (units : List Nat) (a n : Nat) : List (Nat × Nat) :=
  (units.filter (fun g => decide (g * 64 < a + n) && decide (a < (g + 1) * 64))).map
    (fun g => let lo := max a (g * 64); (lo - a, min (a + n) ((g + 1) * 64) - lo))

/-- The 64-byte units that `a .. a + n - 1` meets. -/
def unitsIn (a n : Nat) : List Nat := if n = 0 then [] else upto (a / 64) ((a + n - 1) / 64 - a / 64 + 1)

/-- Poisoned units after a write of `b` at `a`: poisoned data poisons, a whole clean unit clears, a part keeps (R173). -/
def pzAfter (units : List Nat) (a : Nat) (b : Blob) : List Nat :=
  let n := b.data.length
  (unitsIn a n).foldl (fun l g =>
    if b.pz.any (fun r => decide (0 < r.2) && decide (a + r.1 < (g + 1) * 64) && decide (g * 64 < a + r.1 + r.2)) then sins l g
    else if a ≤ g * 64 ∧ (g + 1) * 64 ≤ a + n then sdel l g else l) units

/-- A read of a byte memory with its poison. -/
def bread (cells : List Host.Cell) (units : List Nat) (a n : Nat) : Blob := ⟨rdBytes cells a n, pzOf units a n⟩

/-! ### Scratchpad (05 R119, R123) -/

/-- A scratchpad read. -/
def spadRead (c : Core) (a n : Nat) : Blob := bread c.spad c.spadPoison a n

/-- A scratchpad write. -/
def spadWrite (c : Core) (a : Nat) (b : Blob) : Core :=
  { c with spad := wrBytes c.spad a b.data, spadPoison := pzAfter c.spadPoison a b }

/-- Size of the scratchpad in bytes. -/
def spadSize : Nat := 0xC00000

/-! ### Host memory (06 R159, 08 R219, R259) -/

/-- A memory read of a host: the bytes, poisoned where the read fails. -/
def hread (s : State) (h a n : Nat) : Blob :=
  let bs := rdBytes (mget s.hostMem [] h) a n
  if hostUp s h then
    ⟨bs, (s.hostFail.filter (fun r => r.1 == h && decide (r.2.1 < a + n) && decide (a < r.2.1 + r.2.2))).map
      (fun r => let lo := max a r.2.1; (lo - a, min (a + n) (r.2.1 + r.2.2) - lo))⟩
  else ⟨bs, [(0, n)]⟩

/-- A memory write to a host; lost while the link is down. Poisoned data goes as poisoned TLPs (R173, 08 R219), whose
ranges are sent with the bytes; what the host's memory then holds there is the host's, the bytes (log 7). -/
def hwritePz (s : State) (h a : Nat) (b : Blob) : State :=
  if hostUp s h then
    let s := { s with hostMem := mset s.hostMem [] h (wrBytes (mget s.hostMem [] h) a b.data) }
    (b.pz.filter (fun r => decide (0 < r.2))).foldl (fun s r => emit s (.poisonedTlp h (a + r.1) r.2)) s
  else s

/-- A memory write of clean data to a host. -/
def hwrite (s : State) (h a : Nat) (bs : Bytes) : State := hwritePz s h a (.clean bs)

/-! ### Translation (06 R156 to R162) -/

/-- Bytes of a page. -/
def pageSize : Nat := 2 ^ 19

/-- Physical pages (R155). -/
def ppnCount : Nat := 2260992

/-- Requester classes (R161). -/
inductive Cls where
  /-- CORE. -/
  | core
  /-- HOST. -/
  | host
  /-- PEER. -/
  | peer
  /-- ENGINE. -/
  | engine
  deriving DecidableEq, Repr, Inhabited

/-- A field of a translation entry (R160). -/
def ttePpn (e : BitVec 64) : Nat := fieldOf e 0 22
/-- OWNER. -/
def tteOwner (e : BitVec 64) : Nat := fieldOf e 22 2
/-- VALID. -/
def tteValid (e : BitVec 64) : Bool := bitOf e 24
/-- READ. -/
def tteRead (e : BitVec 64) : Bool := bitOf e 25
/-- WRITE. -/
def tteWrite (e : BitVec 64) : Bool := bitOf e 26
/-- ENGINE_ONLY. -/
def tteEngine (e : BitVec 64) : Bool := bitOf e 27
/-- PERSISTENT. -/
def ttePersist (e : BitVec 64) : Bool := bitOf e 28
/-- MIRRORED. -/
def tteMirror (e : BitVec 64) : Bool := bitOf e 29
/-- JOURNALED. -/
def tteJournal (e : BitVec 64) : Bool := bitOf e 30
/-- POISON_REPAIRABLE. -/
def tteRepair (e : BitVec 64) : Bool := bitOf e 31
/-- ICLASS. -/
def tteRanged (e : BitVec 64) : Bool := bitOf e 32

/-- The entry of a virtual page in a partition's context; an invalid entry beyond CTX_SIZE (R158). -/
def tte (s : State) (p vpn : Nat) : BitVec 64 :=
  if vpn < ctxSize s p then mget s.ms.tt 0 (ctxBase s p + vpn) else 0

/-- Whether an address names host memory (R156). -/
def isHostVa (va : Nat) : Bool := va.testBit 47

/-- The virtual pages that `va .. va + n - 1` touches. -/
def pagesIn (va n : Nat) : List Nat := if n = 0 then [] else upto (va / pageSize) ((va + n - 1) / pageSize - va / pageSize + 1)

/-- Whether a page's entry allows a class and access of a partition (R161, R162). -/
def pageOk (s : State) (p : Nat) (cls : Cls) (wr : Bool) (vpn : Nat) : Bool :=
  let e := tte s p vpn
  tteValid e && (if wr then tteWrite e else tteRead e) && (!tteEngine e || cls == .engine) && tteOwner e == p

/-- Whether a range is within scope for a class and access; host addresses are for CORE and HOST only (R159, R162). -/
def scopeOk (s : State) (p : Nat) (cls : Cls) (wr : Bool) (va n : Nat) : Bool :=
  if n = 0 then true
  else if isHostVa va then cls == .core || cls == .host
  else (pagesIn va n).all (pageOk s p cls wr)

/-- The physical address of a device virtual address, by its page's entry (R158). -/
def physAddr (s : State) (p va : Nat) : Nat := ttePpn (tte s p (va / pageSize)) * pageSize + va % pageSize

/-- The parts of a range by page: physical address, offset in the range, length. -/
def segsOf (s : State) (p va n : Nat) : List (Nat × Nat × Nat) :=
  (pagesIn va n).map (fun v =>
    let lo := max va (v * pageSize)
    (physAddr s p lo, lo - va, min (va + n) ((v + 1) * pageSize) - lo))

/-! ### Interleave (06 R155, R165 to R168) -/

/-- The class of a region: true for RANGED. -/
def regionRanged (s : State) (r : Nat) : Bool := mget s.ms.regionClass 0 r == 1

/-- A stack-map entry (R166). -/
def stackMapE (s : State) (k g : Nat) : Nat := mget (stack s k).map (g % 32) g

/-- Where a line lives (R166, R167, R169): its pseudo-channel, its extent, which is that of a stack-map entry (RANGED) or
a channel-table entry (HASHED) for a frame index, and its offset in the extent. -/
structure Place where
  /-- Pseudo-channel. -/
  chan : Nat
  /-- RANGED. -/
  ranged : Bool
  /-- Stack-map or channel-table entry. -/
  entry : Nat
  /-- Frame index. -/
  frame : Nat
  /-- Offset of the line within the extent. -/
  offset : Nat
  deriving DecidableEq, Repr, Inhabited

/-- The hash of R166 and R167 over `m` entries: entry `x`, row `q` and frame index `f`. It is its own inverse in `x`. -/
def mix (m x q f : Nat) : Nat := x ^^^ ((q * 0x9E5 + f * 0x2B3) % m)

/-- The channel-table entry's reset value: list position e mod (32 n) of the partition's channel-major list (R168). -/
def channelReset (s : State) (e : Nat) : Nat :=
  let n := nstacks s
  let sh := 4096 / nparts s
  let pos := e % sh % (32 * n)
  32 * ((e / sh) * n + pos % n) + pos / n

/-- A channel-table entry. -/
def channelTableE (s : State) (e : Nat) : Nat := mget s.ms.channelTable (channelReset s e) e

/-- Where the line of a physical address lives (R166, R167). -/
def placeOf (s : State) (pa : Nat) : Place :=
  let r := pa / 2 ^ 30
  let o := pa % 2 ^ 30
  let f := r % 92
  if regionRanged s r then
    let mu := o / 256
    let g := mix 4096 (mu % 4096) (mu / 4096) f
    ⟨32 * (r / 92) + stackMapE s (r / 92) g, true, g, f, mu / 4096 * 256⟩
  else
    let p := regionPart s r
    let sh := 4096 / nparts s
    let lam := (r / 92 - p * nstacks s) * 2 ^ 22 + o / 256
    let h := mix sh (lam % sh) (lam / sh) f
    ⟨channelTableE s (p * sh + h), false, p * sh + h, f, lam / sh * 256⟩

/-- The pseudo-channel that holds a physical address. -/
def channelOf (s : State) (pa : Nat) : Nat := (placeOf s pa).chan

/-- The row of a line (R176): 1 KiB of its extent. -/
def Place.row (x : Place) : Bool × Nat × Nat × Nat := (x.ranged, x.entry, x.frame, x.offset / 1024)

/-- The physical address of the line at offset `o` of the extent of a place. -/
def lineAt (s : State) (x : Place) (o : Nat) : Nat :=
  let q := o / 256
  if x.ranged then
    (92 * (x.chan / 32) + x.frame) * 2 ^ 30 + (q * 4096 + mix 4096 x.entry q x.frame) * 256
  else
    let sh := 4096 / nparts s
    let p := x.entry / sh
    let lam := q * sh + mix sh (x.entry % sh) q x.frame
    (92 * (p * nstacks s + lam / 2 ^ 22) + x.frame) * 2 ^ 30 + lam % 2 ^ 22 * 256

/-- The granules of the row of a place. -/
def rowGranules (s : State) (x : Place) : List Nat :=
  (List.range 4).flatMap (fun i => upto (lineAt s x (x.offset / 1024 * 1024 + 256 * i) / 64) 4)

/-- Rows in a pseudo-channel's remap table (R176). -/
def Channel.remapped (c : Channel) : Nat := c.rows.length

/-! ### Flits (09 R263 to R266) -/

/-- A link header (R264). -/
def flitHdr (kind vc poison ack crvc crcum : Nat) : Nat :=
  kind % 4 + vc % 8 * 4 + poison % 16 * 32 + ack % 1024 * 512 + crvc % 8 * 2 ^ 19 + crcum % 1024 * 2 ^ 22

/-- The 256 bytes of a flit: header, 248 payload bytes, CRC (R263, R265). -/
def flitBytes (hdr : Nat) (payload : Bytes) : Bytes :=
  let b := leBytes 4 hdr ++ sub payload 0 248
  b ++ leBytes 4 (crc32c b)

/-- A flit from its bytes. -/
def flitOf (bs : Bytes) : Flit := BitVec.ofNat 2048 (leNat bs)

/-- The 256 bytes of a flit. -/
def flitToBytes (f : Flit) : Bytes := leBytes 256 f.toNat

/-- The header of a flit sent now: the ACK and the credit report of R264 and R270. -/
def hdrNow (l : Link) (kind vc poison : Nat) : Nat :=
  flitHdr kind vc poison ((l.rxSeq + 1023) % 1024) l.crvc (mget l.ownFreed 0 l.crvc)

/-- The flit of KIND 2 with a control type and payload (R276), or an IDLE flit, KIND 0, of no payload. -/
def ctrlFlit (l : Link) (kind : Nat) (payload : Bytes) : Flit := flitOf (flitBytes (hdrNow l kind 0 0) payload)

/-- A flit of a kind without sequence number sent: it reports the credit of one virtual channel (R270). -/
def sendCtrl (s : State) (j kind : Nat) (payload : Bytes) : State :=
  emit (updPort s j (fun x => { x with txFlits := min (x.txFlits + 1) (2 ^ 64 - 1),
                                       link := { x.link with crvc := (x.link.crvc + 1) % 8 } }))
    (.lctl j (ctrlFlit (port s j).link kind payload))

/-- An LCTL flit sent (R276). -/
def sendLctl (s : State) (j ctype : Nat) (payload : Bytes) : State := sendCtrl s j 2 (leBytes 1 ctype ++ payload)

/-! ### Jilan port state (09 R277 to R279, R284) -/

/-- Whether a port is a fabric port. -/
def isFabric (j : Nat) : Bool := decide (j < 28)

/-- A link loss (R279): counted, recorded, reported; the replay buffer and undelivered flits are discarded. A link loss
of a fabric port is a negative event (11 R332). -/
def linkLoss (s : State) (j last : Nat) : State :=
  let s := updPort s j (fun x => { x with
    linkLosses := min (x.linkLosses + 1) (2 ^ 64 - 1), link := { x.link with replay := [], asm := [], txq := [] } })
  let s := stickyPort s j 1
  let p := portPart s j
  let s := record s (p.getD 7) (ucPort j) operLink 0x0041 (leBytes 1 last ++ leBytes 4 (uptimeNs s))
  match p with
  | some p => if isFabric j then raise s p 0x18 none (ucPort j) else s
  | none => s

/-- Whether a change of state is a link loss (R279). -/
def isLoss (x : Port) (new : Nat) : Bool :=
  (x.state == 5 && new != 5 && new != 6 && new != 7) ||
    ((x.state == 6 || x.state == 7) && x.from_ == 5 && new != 5 && new != 6 && new != 7)

/-- A port's change of state, with the link loss it may be (R279). -/
def portGo (s : State) (j new : Nat) : State :=
  let x := port s j
  let old := x.state
  if old = new then s
  else
    let loss := isLoss x new
    let s := updPort s j (fun x => { x with state := new, from_ := if new = 6 ∨ new = 7 then (if old = 6 ∨ old = 7 then x.from_ else old) else x.from_ })
    if loss then linkLoss s j old else s

/-- The healthy lanes of a port (R288). -/
def healthyLanes (x : Port) : List Nat := (List.range 8).filter (fun m => !x.retired.getLsbD m)

/-- The link layer and everything that a training finds out, as an untrained port has them. -/
def untrain (s : State) (j : Nat) : State :=
  updPort s j (fun x =>
    let ls := (List.range 8).foldl (fun t m =>
      mset t {} m { mget x.lanes {} m with lstate := if x.retired.getLsbD m then 2 else 3, watch := false, asked := false }) x.lanes
    { x with
      width := 0, version := 0, aligned := 0, mapAgreed := false, activeLanes := 0, standby := 0, lanes := ls, gotIdent := false
      link := {}, epochWait := false, retrainAsked := none, deferred := false, peerBefore := none, midWindow := false })

/-- A port retired (R288, R289): PORT_RET, its record and the state; its transmitters are off and no lane is in service. -/
def retirePort (s : State) (j : Nat) : State :=
  if (port s j).state = 9 then s
  else
    let s := stickyPort s j 3
    let s := record s ((portPart s j).getD 7) (ucPort j) operLink 0x0043 (leBytes 1 (healthyLanes (port s j)).length)
    untrain (portGo s j 9) j

/-! ### Health (13 R394 to R397) -/

/-- ACC of a unit. -/
def accOf (s : State) (u : Nat) : Nat := mget s.faults.acc 0 u

/-- Score of a unit. -/
def scoreOf (s : State) (u : Nat) : Nat := accOf s u / 1024

/-- Whether a unit is under observation (R396). -/
def observed (s : State) (u : Nat) : Bool := decide (256 ≤ scoreOf s u)

/-- The partitions a unit counts for. -/
def unitPart (s : State) (u : Nat) : Nat :=
  let n := u % 4096
  match u / 4096 with
  | 1 => coreOwner s n
  | 2 => corePart s (8 * n)
  | 3 => stackPart s (n / 32)
  | 4 => stackPart s n
  | 5 => stackPart s n
  | 6 => (portPart s n).getD 7
  | 7 => n
  | 8 => (hpPart s n).getD 7
  | _ => 7

/-- The strike entry of a partition's own rank (11 R347). -/
def ownStrike (s : State) (p : Nat) (health : Bool) (reason : Nat) : StrikeEntry :=
  ⟨(xport s p).rank, health, false, false, reason⟩

/-- A member requests its own strike (11 R332, code 0x22). -/
def strikeReq (s : State) (p : Nat) (health : Bool) (unit : Nat) : State :=
  raiseStrikes s p 0x22 unit [ownStrike s p health 0x22]

/-- Spares: physical cores that serve no logical core and are not retired (01 R24). -/
def isSpare (s : State) (c : Nat) : Bool :=
  !smem s.retiredCores c && (List.range 120).all (fun l => physOf s l != c) &&
  s.faults.subst.all (fun x => x.2.1 != c)

/-- The replacement of a physical core (01 R26): the lowest spare of its die, else the lowest spare of the lowest other
die of the partition. -/
def replacement (s : State) (p c : Nat) : Option Nat :=
  let die := upto (32 * (c / 32)) 32
  let per := 128 / nparts s
  match die.find? (isSpare s) with
  | some x => some x
  | none => (upto (p * per) per).find? (isSpare s)

/-- A physical core retired (01 R26, R27; 13 R395, R404): recorded; a spare at once, a core in service at the step
boundary or, for a hard fault, in the restart. Where no replacement is left the member asks for a strike. -/
def retireCore (s : State) (c : Nat) (hard : Bool) : State :=
  if smem s.retiredCores c then s
  else match logicalOf s c with
    | none =>
      let s := { s with retiredCores := sins s.retiredCores c }
      stickyDev (record s (corePart s c) (ucCore c) 0 0x0052 (leBytes 2 0xFFFF)) 0
    | some l =>
      if s.faults.subst.any (fun x => x.1 == l) then
        -- A hard fault of a core whose retirement is already asked for: its state is no longer copied (01 R27).
        updFaults s (fun f => { f with subst := f.subst.map (fun x => if x.1 = l then (x.1, x.2.1, x.2.2 || hard) else x) })
      else
        let p := lcorePart s l
        match replacement s p c with
        | some _ => updFaults s (fun f => { f with subst := f.subst ++ [(l, c, hard)] })
        | none => strikeReq s p (!hard) (ucCore c)

/-- Pseudo-channels of a partition in a state. -/
def channelsIn (s : State) (p st : Nat) : List Nat :=
  ((partStacks s p).flatMap (fun k => upto (32 * k) 32)).filter (fun i => (channel s i).state == st)

/-- Retired pseudo-channels a partition may have (R180). -/
def channelLimit (s : State) : Nat := if nparts s = 1 then 11 else if nparts s = 2 then 5 else 2

/-- Whether a further retirement of pseudo-channel `i` stays within R180. -/
def channelFits (s : State) (i : Nat) : Bool :=
  let p := stackPart s (i / 32)
  let used := (channelsIn s p 1 ++ channelsIn s p 2).filter (· != i)
  decide (used.length < channelLimit s) && used.all (fun x => x / 32 != i / 32)

/-- A pseudo-channel marked FAILING (R177, R178), or a strike asked for (R180). One that is FAILING already asks for its
retirement again (13 R395). -/
def failChannel (s : State) (i : Nat) : State :=
  if (channel s i).state = 2 then s
  else
    let p := stackPart s (i / 32)
    let fits := channelFits s i
    let s := updChannel s i (fun x => { x with state := 1 })
    if fits then raise s p 0x1B none (ucChannel i) else strikeReq s p true (ucChannel i)

/-- The lane of a port with the most uncorrectable codewords in the score window, lowest first (09 R289; log 87). -/
def worstLane (x : Port) : Nat :=
  (healthyLanes x).foldl (fun a m => if (mget x.lanes {} a).recent < (mget x.lanes {} m).recent then m else a)
    ((healthyLanes x).headD 0)

/-- A retraining of a port asked for: RETRAIN_REQ sent (09 R285), unless one is in progress. -/
def askRetrain (s : State) (j reason : Nat) : State :=
  let x := port s j
  if (x.state == 5 || x.state == 4) && x.retrainAsked.isNone then
    sendLctl (updPort s j (fun x => { x with retrainAsked := some reason, deferred := false })) j 5 (leBytes 1 reason)
  else s

/-- What a unit's score does at 768 (R395). -/
def retireUnit (s : State) (u : Nat) : State :=
  let n := u % 4096
  match u / 4096 with
  | 1 => retireCore s n false
  | 3 => failChannel s n
  | 5 => strikeReq s (stackPart s n) true u
  | 6 =>
    let x := port s n
    if 7 ≤ (healthyLanes x).length then
      let m := worstLane x
      let s := updPort s n (fun x => { x with lanes := mset x.lanes {} m { mget x.lanes {} m with condemned := true } })
      askRetrain s n 2
    else
      let w := if isLoss x 9 then 192 * 1024 else 0
      updFaults (retirePort s n) (fun f => { f with acc := mset f.acc 0 u (min (mget f.acc 0 u + w) (2 ^ 20 - 1)) })
  | _ => s

/-- What one threshold does as a score rises through it (R395). -/
def crossed (s : State) (u old new thr : Nat) : State :=
  if old < thr ∧ thr ≤ new then
    let s := record s (unitPart s u) u 0 0x0053 (leBytes 2 thr ++ leBytes 2 new)
    if thr = 512 then (if unitPart s u < 4 then updSnap s (unitPart s u) (fun x => { x with armed := true }) else s)
    else if thr = 768 then retireUnit s u else s
  else s

/-- ACC set, with the actions of the thresholds it rises through (R394, R395). -/
def setAcc (s : State) (u v : Nat) : State :=
  let old := scoreOf s u
  let s := updFaults s (fun f => { f with acc := mset f.acc 0 u (min v (2 ^ 20 - 1)) })
  let new := scoreOf s u
  crossed (crossed (crossed s u old new 256) u old new 512) u old new 768

/-- A health event of a weight (R394). -/
def charge (s : State) (u weight : Nat) : State := setAcc s u (accOf s u + weight * 1024)

/-- `n` events counted in groups of `per`, one weight for each whole group (R394). -/
def chargeEvery (s : State) (u n per : Nat) : State :=
  let r := mget s.faults.rest 0 (65536 * per + u) + n
  let s := updFaults s (fun f => { f with rest := mset f.rest 0 (65536 * per + u) (r % per) })
  if r / per = 0 then s else charge s u (r / per)

/-- A port's change of state with the charge of its link loss (R394). -/
def movePort (s : State) (j new : Nat) : State :=
  let loss := isLoss (port s j) new
  let s := portGo s j new
  if loss then charge s (ucPort j) 192 else s

/-- A port retired for its lanes (09 R288), with the charge of its link loss. -/
def dropPort (s : State) (j : Nat) : State :=
  let loss := isLoss (port s j) 9
  let s := retirePort s j
  if loss then charge s (ucPort j) 192 else s

/-- A retraining counted (09 R292) and charged (R394). -/
def countRetrain (s : State) (j : Nat) : State :=
  charge (updPort s j (fun x => { x with retrains := min (x.retrains + 1) (2 ^ 64 - 1) })) (ucPort j) 32

/-! ### Poison -/

/-- The copy of a page a COW slot takes before its first change (12 R372). -/
def cowPage (m : MemSys) (ppn : Nat) (sl : Slot) : Slot :=
  if (sl.state = 1 ∨ sl.state = 2) ∧ sl.cow then
    { sl with pages := sl.pages.map (fun g =>
        if g.ppn = ppn ∧ !g.copied then
          let z := (m.poison.filter (fun x => decide (x / 8192 = ppn))).map (· % 8192)
          { g with copied := true, page := mslice m.mem (ppn * pageSize) pageSize, poison := z, flags := g.flags + b2n (!z.isEmpty) }
        else g) }
  else sl

/-- The COW hold of a page in every slot that has not copied it. -/
def cowHook (s : State) (ppn : Nat) : State :=
  (List.range 4).foldl (fun s p =>
    let x := snap s p
    let open_ (sl : Slot) : Bool := (sl.state == 1 || sl.state == 2) && sl.cow && sl.pages.any (fun g => !g.copied)
    if open_ x.a || open_ x.b then
      updSnap s p (fun x => { x with a := cowPage s.ms ppn x.a, b := cowPage s.ms ppn x.b })
    else s) s

/-- A granule written poisoned (R172, R176): its bit, its record and its charge. -/
def writeBad (s : State) (g : Nat) (inj : Bool) : State :=
  let i := channelOf s (g * 64)
  let s := updMs (cowHook s (g / 8192)) (fun m => { m with poison := sins m.poison g })
  let s := recordE s (stackPart s (i / 32)) (ucChannel i) 0 0x0022 (leBytes 8 (g * 64)) inj
  if inj then s else charge s (ucChannel i) 96

/-- What the next read of a granule meets is taken from the environment. -/
def unmeet (s : State) (g : Nat) : State := updMs s (fun m => { m with meets := m.meets.eraseP (fun x => x.1 == g) })

/-- A row remapped after a permanent fault at a physical address (R176): its granules that read uncorrectable are written
poisoned, and its row is in the remap table. A full remap table retires the pseudo-channel (R177). -/
def remapRow (s : State) (i pa : Nat) (inj : Bool) : State :=
  if (channel s i).remapped < 8192 then
    let x := placeOf s pa
    let bad := (rowGranules s x).filter (fun g => s.ms.meets.contains (g, .uncorrectable))
    let s := bad.foldl (fun s g => writeBad (unmeet s g) g inj) s
    let s := updChannel s i (fun c => { c with rows := c.rows ++ [x.row] })
    let s := updMs s (fun m => { m with recorded := sdel m.recorded (pa / 64) })
    let s := recordE s (stackPart s (i / 32)) (ucChannel i) 0 0x0024 (leBytes 8 pa ++ leBytes 2 (channel s i).remapped) inj
    if inj then s else charge s (ucChannel i) 64
  else failChannel s i

/-- A granule poisoned after three failed rereads and its location recorded (R172). At a location recorded before this is
a permanent fault of the row. -/
def poisonGranule (s : State) (g : Nat) (inj : Bool) : State :=
  let i := channelOf s (g * 64)
  let again := s.ms.recorded.contains g
  let s := writeBad (updMs s (fun m => { m with recorded := sins m.recorded g })) g inj
  if again then remapRow s i (g * 64) inj else s

/-- The outcome of a read of a granule (R172). -/
def readGranule (s : State) (g : Nat) (o : EccOutcome) : State :=
  let i := channelOf s (g * 64)
  match o with
  | .clean => s
  | .corrected =>
    chargeEvery (record (cowHook s (g / 8192)) (stackPart s (i / 32)) (ucChannel i) 0 0x0020 (leBytes 8 (g * 64))) (ucChannel i) 1 16
  | .transient =>
    charge (record s (stackPart s (i / 32)) (ucChannel i) 0 0x0021 (leBytes 8 (g * 64))) (ucChannel i) 16
  | .uncorrectable => poisonGranule s g false

/-- What a read of a granule meets: the injected uncorrectable granule of its pseudo-channel (13 R393, kind 5), or what
the environment holds for it (log 85). -/
def touchGranule (s : State) (g : Nat) : State :=
  let i := channelOf s (g * 64)
  if (channel s i).inject then poisonGranule (updChannel s i (fun x => { x with inject := false })) g true
  else match s.ms.meets.find? (fun x => x.1 == g) with
    | some (_, o) => readGranule (unmeet s g) g o
    | none => s

/-- What a read of physical bytes meets before its data is delivered. -/
def touchPhys (s : State) (pa n : Nat) : State :=
  if s.ms.channels.any (fun c => c.2.inject) || !s.ms.meets.isEmpty then (unitsIn pa n).foldl touchGranule s else s

/-- The same for a virtual range. -/
def touch (s : State) (p va n : Nat) : State :=
  if isHostVa va then s else (segsOf s p va n).foldl (fun s x => touchPhys s x.1 x.2.2) s

/-- The partition's poison log (R174): one entry for each consumption with the granule's address, and a count once it is
full. A granule that the last ROLLBACK left poisoned is marked as consumed again (R175). -/
def logPoison (s : State) (p pa : Nat) : State :=
  let pa := pa / 64 * 64
  let x := part s p
  let x := if x.leftPoison.contains pa then { x with again := sins x.again pa } else x
  if x.plog.length < 4096 then setPart s p { x with plog := x.plog ++ [pa] }
  else stickyPart (setPart s p { x with plogOvf := true, plogLost := x.plogLost + 1 }) p 6

/-- A consumption of poison by a unit of a partition (R174): recorded, logged and a negative event. -/
def consume (s : State) (p pa : Nat) (step : Option Nat) (unit oper : Nat) : State :=
  let s := record s p unit oper 0x0023 (leBytes 8 pa ++ leBytes 2 unit)
  raise (logPoison s p pa) p 0x05 step unit

/-! ### Writes of device memory -/

/-- A write of physical bytes. -/
def pwrite (s : State) (pa : Nat) (b : Blob) : State :=
  let s := (pagesIn pa b.data.length).foldl cowHook s
  updMs s (fun m => { m with mem := wrBytes m.mem pa b.data, poison := pzAfter m.poison pa b })

/-- A read of physical bytes. -/
def pread (s : State) (pa n : Nat) : Blob := bread s.ms.mem s.ms.poison pa n

/-- The stack whose area journals a page (07 R208). -/
def journalStack (s : State) (p vpn ppn : Nat) : Nat :=
  let r := ppn / 2048
  if regionRanged s r then r / 92 else p * nstacks s + vpn % nstacks s

/-- Bytes of a journal area (07 R207). -/
def journalArea (s : State) (k : Nat) : Nat := regF s .dev (0x0800400 + 8 * k) 16 6 * 2 ^ 30

/-- Bytes that a segment takes (07 R209). -/
def segBytes (g : JournalSeg) : Nat := 64 + g.records.length * (64 + pageSize)

/-- The mirror window of a partition: first page and pages (07 R213). -/
def mirWindow (s : State) (p : Nat) : Nat × Nat := (regF s (.part p) 0x0800490 0 28, regF s (.part p) 0x0800494 0 22)

/-- The pre-image record of a page (07 R209). -/
def preImage (s : State) (p vpn ppn : Nat) : JournalRecord :=
  let g := (s.ms.poison.filter (fun x => decide (x / 8192 = ppn))).map (· % 8192)
  let w := mirWindow s p
  { vpn := vpn, ppn := ppn
    flags := b2n (!g.isEmpty) + 2 * b2n (decide (w.1 ≤ vpn) && decide (vpn < w.1 + w.2))
    page := mslice s.ms.mem (ppn * pageSize) pageSize, poison := g }

/-- A record added to the segment of a step in a stack, which opens with its first record (07 R209). -/
def addRecord (js : List JournalSeg) (k n gen : Nat) (r : JournalRecord) : List JournalSeg :=
  if js.any (fun g => g.stack == k && g.step == n) then
    js.map (fun g => if g.stack = k ∧ g.step = n then { g with records := g.records ++ [r] } else g)
  else js ++ [{ stack := k, state := 1, step := n, gen := gen, records := [r] }]

/-- The 64-byte header of a record (07 R209), its HCRC last. -/
def JournalRecord.header (p : Nat) (r : JournalRecord) : Bytes :=
  let b := leBytes 2 0x4A52 ++ leBytes 1 r.flags ++ zeros 1 ++ leBytes 4 (r.vpn % 2 ^ 28 + p * 2 ^ 28) ++ leBytes 4 r.ppn ++ zeros 4 ++
    leBytes 8 (crc64 (rdBytes r.page 0 pageSize)) ++ zeros 32
  b ++ leBytes 8 (crc64 b)

/-- The 64-byte header of a segment whose next one starts at `next` (07 R209). -/
def JournalSeg.header (g : JournalSeg) (next : Nat) : Bytes :=
  let b := leBytes 2 0x4A53 ++ leBytes 1 1 ++ leBytes 1 g.state ++ leBytes 6 g.step ++ leBytes 3 g.gen ++ zeros 3 ++
    leBytes 4 g.records.length ++ zeros 4 ++ leBytes 8 next ++ zeros 24
  b ++ leBytes 8 (crc64 b)

/-- The bytes of segments that follow one another in an area from offset `at_` (07 R209). -/
def segmentBytes (p : Nat) : Nat → List JournalSeg → Bytes
  | _, [] => []
  | at_, g :: r =>
    let next := at_ + segBytes g
    g.header next ++ g.records.flatMap (fun x => x.header p ++ rdBytes x.page 0 pageSize) ++ segmentBytes p next r

/-- The segments in a stack's area, in the order in which they opened. -/
def stackSegs (s : State) (p k : Nat) : List JournalSeg := (part s p).journal.filter (fun g => g.stack == k)

/-- The bytes in use of the journal area of a stack (07 R207, R209). -/
def journalBytes (s : State) (p k : Nat) : Bytes := segmentBytes p 0 (stackSegs s p k)

/-- Whether a step's segments hold the pre-image of a physical page. -/
def hasPreImage (s : State) (p n ppn : Nat) : Bool :=
  (part s p).journal.any (fun g => g.step == n && g.records.any (fun r => r.ppn == ppn))

/-- Bytes of the area of stack `k` that hold segments, with `m` records of step `n` more (07 R209). -/
def journalUsed (s : State) (p k n m : Nat) : Nat :=
  let js := stackSegs s p k
  js.foldl (fun a g => a + segBytes g) 0 + (if js.any (fun g => g.step == n) then 0 else 64) + m * (64 + pageSize)

/-- Whether older segments of the area may free (07 R211). -/
def journalOlder (s : State) (p k n : Nat) : Bool := (stackSegs s p k).any (fun g => decide (g.step < n))

/-- Whether writes of ranges stall for journal space (07 R211): in some stack the records that they need do not fit, and
older segments may free. -/
def journalStalls (s : State) (p : Nat) (step : Option Nat) (ranges : List (Nat × Nat)) : Bool :=
  match step with
  | none => false
  | some n =>
    let vs := (ranges.flatMap (fun r => if isHostVa r.1 then [] else pagesIn r.1 r.2)).foldl sins []
    let need := vs.filter (fun v => tteJournal (tte s p v) && !hasPreImage s p n (ttePpn (tte s p v)))
    (partStacks s p).any (fun k =>
      let m := (need.filter (fun v => journalStack s p v (ttePpn (tte s p v)) == k)).length
      m != 0 && decide (journalArea s k < journalUsed s p k n m) && journalOlder s p k n)

/-- The journal's part in the first write of a step to a JOURNALED page (07 R208, R211). An operation that stalls waits
before its writes (`journalStalls`, log 14). -/
def journalPage (s : State) (p vpn n : Nat) : State :=
  let e := tte s p vpn
  if tteJournal e then
    let ppn := ttePpn e
    let k := journalStack s p vpn ppn
    if hasPreImage s p n ppn then s
    else if journalUsed s p k n 1 ≤ journalArea s k ∨ journalOlder s p k n then
      updPart s p (fun x => { x with journal := addRecord x.journal k n (genOf s p) (preImage s p vpn ppn) })
    else raise s p 0x10 (some n) (ucEngine k)
  else s

/-- A write of a virtual range for a step, if any: host memory, or device memory through the journal and the
copy-on-write hooks. The range is in scope. -/
def vwriteFor (s : State) (p va : Nat) (b : Blob) (step : Option Nat) : State :=
  if isHostVa va then hwritePz s (partHp s p) (va % 2 ^ 47) b
  else
    let segs := segsOf s p va b.data.length
    let s := match step with
      | some n => (pagesIn va b.data.length).foldl (fun s v => journalPage s p v n) s
      | none => s
    segs.foldl (fun s x => pwrite s x.1 (b.slice x.2.1 x.2.2)) s

/-- A write of a virtual range, journaled for the open step. -/
def vwrite (s : State) (p va : Nat) (b : Blob) : State := vwriteFor s p va b (proof s p).openStep

/-- A read of a virtual range that is in scope. -/
def vread (s : State) (p va n : Nat) : Blob :=
  if isHostVa va then hread s (partHp s p) (va % 2 ^ 47) n
  else (segsOf s p va n).foldl (fun b x => b.append (pread s x.1 x.2.2)) ⟨[], []⟩

/-- The poisoned ranges of a virtual read: offset in the range and physical address of each. -/
def poisonedAt (s : State) (p va n : Nat) : List (Nat × Nat) :=
  if isHostVa va then []
  else (segsOf s p va n).flatMap (fun x => (pzOf s.ms.poison x.1 x.2.2).map (fun r => (x.2.1 + r.1, x.1 + r.1)))

/-- The physical addresses of the poisoned ranges of a virtual read. -/
def poisonedPa (s : State) (p va n : Nat) : List Nat := (poisonedAt s p va n).map (·.2)

/-- The stacks that `n` bytes at a physical address lie on (R166, R167): those of their lines. So many lines of a HASHED
region that they visit every entry of the hash lie on every stack of the partition. -/
def stacksAt (s : State) (p pa n : Nat) : List Nat :=
  let lines := (pa + n + 255) / 256 - pa / 256
  if regionRanged s (pa / 2 ^ 30) then [pa / 2 ^ 30 / 92]
  else if 2 * (4096 / nparts s) ≤ lines then partStacks s p
  else (upto (pa / 256) lines).map (fun l => channelOf s (256 * l) / 32)

/-- The stacks that the mapped pages of a virtual range lie on. -/
def stacksOf (s : State) (p va n : Nat) : List Nat :=
  if isHostVa va then []
  else ((segsOf s p va n).filter (fun x => tteValid (tte s p ((va + x.2.1) / pageSize)))).flatMap (fun x => stacksAt s p x.1 x.2.2)

/-- Whether a range is fenced (06 R183, 13 R405): the device is out of service, or the range lies on a stack held in
self-refresh. -/
def fencedMem (s : State) (p va n : Nat) : Bool :=
  s.faults.oos || (stacksOf s p va n).any (fun k => (stack s k).selfRefresh)

/-- Consumption of every poisoned granule of a virtual range. -/
def consumeRange (s : State) (p va n : Nat) (step : Option Nat) (unit oper : Nat) : State :=
  (poisonedPa s p va n).foldl (fun s pa => consume s p pa step unit oper) s

end Sys2Proof.Machine
end

