-- ==== Sys2Proof/Machine/Complete.lean ====
section
/-! DEFINITION. Completions: completion entries and interrupts (08 R225, R232 to R235), event counters (R236), step
records (R247), exit records and the end of programs (05 R149 to R152), core resets (13 R398, R404), FENCE and WAIT. -/

namespace Sys2Proof.Machine

/-! ### Descriptor header (08 R236) -/

/-- Field of a descriptor: byte, low bit in it, width. -/
def dF (d : Desc) (byte lo w : Nat) : Nat := fieldOf d (8 * byte + lo) w
/-- OPCODE. -/
def dOpcode (d : Desc) : Nat := dF d 0 0 8
/-- FENCE. -/
def dFence (d : Desc) : Bool := bitOf d 8
/-- IRQ. -/
def dIrq (d : Desc) : Bool := bitOf d 9
/-- SIGEN. -/
def dSigen (d : Desc) : Bool := bitOf d 10
/-- JIN. -/
def dJin (d : Desc) : Bool := bitOf d 11
/-- SIGCTR. -/
def dSigctr (d : Desc) : Nat := dF d 2 0 6
/-- TAG. -/
def dTag (d : Desc) : Nat := dF d 4 0 32

/-- Status codes (R238). -/
inductive St where
  /-- 0x00. -/
  | done
  /-- 0x01. -/
  | doneEmpty
  /-- 0x02. -/
  | doneSat
  /-- 0x03. -/
  | doneNonfinite
  /-- 0x10. -/
  | poisoned
  /-- 0x11. -/
  | fenced
  /-- 0x20. -/
  | badDesc
  /-- 0x21. -/
  | outOfScope
  /-- 0x22. -/
  | unsupported
  /-- 0x30. -/
  | rolledBack
  /-- 0x31. -/
  | stoppedPress
  /-- 0x32. -/
  | epochStale
  deriving DecidableEq, Repr, Inhabited

/-- The code of a status (R238). -/
def St.code : St → Nat
  | .done => 0x00 | .doneEmpty => 0x01 | .doneSat => 0x02 | .doneNonfinite => 0x03 | .poisoned => 0x10
  | .fenced => 0x11 | .badDesc => 0x20 | .outOfScope => 0x21 | .unsupported => 0x22 | .rolledBack => 0x30
  | .stoppedPress => 0x31 | .epochStale => 0x32

/-! ### Event counters -/

/-- An event counter of a partition (R236). -/
def ecOf (s : State) (p c : Nat) : Nat := (mget (part s p).ec 0 c).toNat

/-- An event counter set. -/
def setEc (s : State) (p c v : Nat) : State :=
  updPart s p (fun x => { x with ec := mset x.ec 0 c (BitVec.ofNat 64 (min v (2 ^ 64 - 1))) })

/-- An event counter raised, saturating. -/
def addEc (s : State) (p c v : Nat) : State := setEc s p c (ecOf s p c + v)

/-! ### Queues -/

/-- A FREEZE record: KIND, index, offending address (16 R472). -/
def recordFreeze (s : State) (p src kind idx addr : Nat) : State :=
  record s p src 0 0x0010 (leBytes 1 kind ++ leBytes 2 idx ++ leBytes 8 addr)

/-- A queue frozen (R235, 15 R465). -/
def freezeQueue (s : State) (h q addr : Nat) : State :=
  let p := (hpPart s h).getD 0
  let s := updQueue s h q (fun x => { x with state := 3, stopwhy := 0 })
  let s := stickyPart (recordFreeze s p (ucHost h) 2 q addr) p 4
  asyncCause s h 3

/-- Whether a step is PROVEN: at or below the last proven step. -/
def stepProven (s : State) (p n : Nat) : Bool := decide (n ≤ (proof s p).lastProven)

/-- The 16 bytes of a completion entry (R232). -/
def cqEntry (d : Desc) (didx qgen status result : Nat) (step : Option Nat) (proven phase : Bool) : Bytes :=
  leBytes 4 (dTag d) ++ leBytes 4 result ++ leBytes 2 didx ++ leBytes 1 status ++ leBytes 1 qgen ++
  leBytes 1 (dOpcode d) ++ leBytes 1 (b2n proven + 2 * b2n step.isSome) ++ leBytes 1 (step.getD 0 % 256) ++
  leBytes 1 (128 * b2n phase)

/-- The queue's interrupt after a completion entry (R225). -/
def queueIrq (s : State) (h q : Nat) (irq : Bool) : State :=
  let x := queue s h q
  if x.ien && (irq || (x.coalCnt != 0 && decide (x.coalCnt ≤ x.uncovered))) then
    sendMsix (updQueue s h q (fun x => { x with uncovered := 0 })) h x.iv
  else s

/-- A completion entry written (R230, R232, R233), unless its generation is old or the link is down (R234, R259). -/
def writeEntry (s : State) (h q didx qgen : Nat) (d : Desc) (step : Option Nat) (status result : Nat) : State :=
  let x := queue s h q
  let p := (hpPart s h).getD 0
  if x.gen = qgen ∧ hostUp s h then
    let proven := match step with
      | some n => stepProven s p n
      | none => true
    let s := hwrite s h (x.cqBase + 16 * x.cqNext) (cqEntry d didx qgen status result step proven x.phase)
    let next := (x.cqNext + 1) % x.ringsz
    let s := updQueue s h q (fun x => { x with cqNext := next, phase := (if next = 0 then !x.phase else x.phase),
                                               uncovered := x.uncovered + 1, lastTag := dTag d })
    queueIrq s h q (dIrq d)
  else s

/-- A logged descriptor put in descriptor order (R256). -/
def insLog (l : List Logged) (e : Logged) : List Logged :=
  l.filter (fun x => decide (x.seq < e.seq)) ++ [e] ++ l.filter (fun x => decide (e.seq < x.seq))

/-- A descriptor completes with a status (R232, R235, R236, R250, R256): SIGEN, completion entry, replay log, and the
freeze of R235 for its own scope failure. -/
def completeDesc (s : State) (h : Nat) (f : Flight) (st : St) (result : Nat) (ownScope : Bool) (addr : Nat)
    (input : Option Blob) : State :=
  let p := (hpPart s h).getD 0
  if f.replay then s
  else
    let s := if dSigen f.desc then addEc s p (dSigctr f.desc) 1 else s
    let s := match f.step with
      | some n =>
        if st.code ≤ 0x10 then
          updProof s p (fun x => { x with log := insLog x.log ⟨f.seq, n, h, f.q, f.desc, input, f.conc⟩ })
        else s
      | none => s
    let s := if f.lost then s else writeEntry s h f.q f.didx f.qgen f.desc f.step st.code result
    if st = .outOfScope ∧ ownScope then freezeQueue s h f.q addr else s

/-- A started descriptor taken off the list. -/
def dropFlight (s : State) (h : Nat) (f : Flight) : State :=
  updHp s h (fun x => { x with flights := x.flights.filter (fun g => g != f) })

/-- A started descriptor completes. -/
def finishFlight (s : State) (h : Nat) (f : Flight) (st : St) (result : Nat) : State :=
  completeDesc (dropFlight s h f) h f st result true 0 none

/-! ### FENCE and WAIT (08 R237, R248) -/

/-- The newest committed slot of a partition: 0 A, 1 B (12 R366). -/
def newestSlot (s : State) (p : Nat) : Option Nat :=
  let x := snap s p
  match decide (x.a.state = 3), decide (x.b.state = 3) with
  | true, true => some (if x.a.seq < x.b.seq then 1 else 0)
  | true, false => some 0
  | false, true => some 1
  | false, false => none

/-- A slot. -/
def slotOf (s : State) (p i : Nat) : Slot := if i = 0 then (snap s p).a else (snap s p).b

/-- Whether a WAIT's condition holds (R239, R248). -/
def condHolds (s : State) (p cond ctr value : Nat) : Bool :=
  match cond with
  | 0 => decide (value ≤ ecOf s p ctr)
  | 1 => decide (value ≤ (proof s p).lastProven)
  | 2 => decide (value ≤ (proof s p).lastComputed)
  | _ => match newestSlot s p with
    | some i => decide (value ≤ (slotOf s p i).step)
    | none => false

/-- Whether a started FENCE or WAIT can complete now. -/
def settled (s : State) (h : Nat) (f : Flight) : Bool :=
  let fs := (hport s h).flights
  match f.waits with
  | .fence scope => fs.all (fun g => g.replay || decide (f.seq ≤ g.seq) || (!scope && g.q != f.q))
  | .cond c k v => condHolds s ((hpPart s h).getD 0) c k v
  | _ => false

/-- The FENCEs and WAITs of a host port that can complete do, oldest first, for at most `n` rounds. -/
def settleHp (h : Nat) : Nat → State → State
  | 0, s => s
  | n + 1, s =>
    match (hport s h).flights.find? (settled s h) with
    | some f => settleHp h n (finishFlight s h f .done 0)
    | none => s

/-- Every FENCE and WAIT that can complete does. -/
def settle (s : State) : State := (activeHps s).foldl (fun s h => settleHp h (hport s h).flights.length s) s

/-! ### Step records (08 R247) -/

/-- FLAGS of a step record. -/
def stepFlags (r : StepRec) : Nat := b2n r.replayed + 2 * b2n r.fallback

/-- The 32 bytes of a step record. -/
def stepRecBytes (s : State) (p : Nat) (r : StepRec) : Bytes :=
  leBytes 6 r.step ++ leBytes 2 (xport s p).epoch ++ leBytes 1 (xport s p).reprint ++ leBytes 1 r.state ++
  leBytes 1 (stepFlags r) ++ leBytes 1 (if r.state = 5 then r.reason else 0) ++ leBytes 4 r.seq ++
  leBytes 8 (uptimeNs s) ++ zeros 8

/-- The step record of step n written and counted in SEQ, with STEP_IV after it (R224, R247); a write that finds its page
out of scope is not made and is recorded (WRITE_IGNORED, cause 1; log 15). While the host link is down step records are
discarded (R259), and a stack in self-refresh takes none (06 R183). -/
def writeStepRec (s : State) (p n : Nat) : State :=
  match stepRec s p n with
  | none => s
  | some r =>
    let h := partHp s p
    if !scopeOk s p .host true r.recVa 32 then record s p (ucHost h) 0 0x0002 (leBytes 4 r.recVa ++ leBytes 4 n ++ leBytes 1 1)
    else if !hostUp s h || fencedMem s p r.recVa 32 then s
    else
      let s := updStep s p n (fun r => { r with seq := r.seq + 1 })
      let s := vwrite s p r.recVa (.clean (stepRecBytes s p { r with seq := r.seq + 1 }))
      sendMsix s h (regF s (.hp h) 0x0049000 0 11)

/-- A step's state changed and its record written. -/
def setStep (s : State) (p n st : Nat) (f : StepRec → StepRec) : State :=
  writeStepRec (updStep s p n (fun r => f { r with state := st })) p n

/-! ### Programs (05 R149 to R152) -/

/-- A LAUNCH. -/
def launchOf (s : State) (id : Nat) : Option Launch := s.launches.find? (fun l => l.id == id)

/-- A LAUNCH updated. -/
def updLaunch (s : State) (id : Nat) (f : Launch → Launch) : State :=
  { s with launches := s.launches.map (fun l => if l.id = id then f l else l) }

/-- The flight of a LAUNCH, with its host port. -/
def launchFlight (s : State) (h id : Nat) : Option Flight := (hport s h).flights.find? (fun f => f.waits == .launch id)

/-- A LAUNCH completes once every named core has written its exit record (R152). -/
def launchDone (s : State) (id : Nat) : State :=
  match launchOf s id with
  | none => s
  | some l =>
    if l.waiting.isEmpty && l.running.isEmpty then
      let st : St := if 0 < l.stopped then .stoppedPress else if 0 < l.frozen then .outOfScope
        else if 0 < l.faulted then .badDesc else .done
      let s := { s with launches := s.launches.filter (fun x => x.id != id) }
      let h := partHp s l.part
      match launchFlight s h id with
      | some f => completeDesc (dropFlight s h f) h f st l.halted false 0 none
      | none => s
    else s

/-- The 16 bytes of an exit record (R151). -/
def exitBytes (exit outcome fault unit status pc : Nat) : Bytes :=
  leBytes 4 exit ++ leBytes 1 outcome ++ leBytes 1 fault ++ leBytes 1 unit ++ leBytes 1 status ++ leBytes 4 pc ++ zeros 4

/-- How a program ends (R151). -/
structure Exit where
  /-- EXIT. -/
  exit : Nat := 0
  /-- OUTCOME. -/
  outcome : Nat
  /-- FAULT. -/
  fault : Nat := 0
  /-- UNIT. -/
  unit : Nat := 0xFF
  /-- STATUS. -/
  status : Nat := 0
  /-- PC. -/
  pc : Nat
  deriving DecidableEq, Repr, Inhabited

/-- Every queue of a core's units emptied. -/
def emptyQueues (u : Units) : Units :=
  { u with ma0 := { u.ma0 with queue := [] }, ma1 := { u.ma1 with queue := [] }, sf := [], mv := [], moving := none }

/-- The program of a physical core ends: queued instructions are discarded, the exit record is written, the LAUNCH
counts it (R149 to R152). -/
def endProgram (s : State) (c : Nat) (x : Exit) : State :=
  let k := core s c
  match launchOf s k.launch, logicalOf s c with
  | some l, some n =>
    let s := updUnits s c emptyQueues
    let s := updCore s c (fun k => { k with csq := .idle, launch := 0 })
    let va := l.exitva + 16 * n
    let bs := exitBytes x.exit x.outcome x.fault x.unit x.status x.pc
    let s := if scopeOk s l.part .host true va 16 && !fencedMem s l.part va 16 then vwrite s l.part va (.clean bs) else s
    let s := updLaunch s l.id (fun l => { l with
      running := l.running.filter (· != n)
      halted := l.halted + b2n (x.outcome == 0), faulted := l.faulted + b2n (x.outcome == 1)
      frozen := l.frozen + b2n (x.outcome == 2), stopped := l.stopped + b2n (x.outcome == 3) })
    launchDone s l.id
  | _, _ => updCore (updUnits s c emptyQueues) c (fun k => { k with csq := .idle, launch := 0 })

/-- Whether a core runs a program. -/
def running (s : State) (c : Nat) : Bool := (core s c).csq != .idle

/-- A program stopped: OUTCOME STOPPED with the next address to fetch (R151). A core that waits in HALT has not completed
it: its own address (DEDUCED, log 19). -/
def stopProgram (s : State) (c : Nat) : State :=
  if running s c then endProgram s c { outcome := 3, pc := (core s c).pc } else s

/-- A logical core frozen (05 R150, 15 R465). -/
def freezeCore (s : State) (l addr : Nat) : State :=
  let p := lcorePart s l
  let s := { s with frozenCores := sins s.frozenCores l }
  let s := stickyPart (recordFreeze s p (ucCore (physOf s l)) 3 l addr) p 5
  asyncCause s (partHp s p) 3

/-! ### Core reset (13 R398, R404) -/

/-- What a core reset leaves (R398; 03 R63, R78, R81; 04 R103; 05 R130). -/
def coreCleared (k : Core) (pulses : Nat) : Core :=
  { k with csq := .idle, sem := [], epi := [], sfNan := 0, sfInf := 0, sfSat := 0, sfDiv0 := 0, poisonSeen := false,
           semSat := false, step := 0, gen := 0, argva := 0, lrank := 0, lcount := 0, cycleBase := pulses,
           launch := 0, inStep := false, bars0 := 0, bars1 := 0 }

/-- The units after a core reset. -/
def unitsCleared (u : Units) : Units := { resets := u.resets }

/-- A scratchpad of free bytes under a fresh key. -/
def freeSpad (k : Nat) : List Host.Cell :=
  mofList 0 0 ((List.range 0xC00000).map (fun i => Config.abandonedByte (2 ^ 32 * k + i)))

/-- The writable bits of word `w` of an epilogue record (03 R81). -/
def epiMask (w : Nat) : Nat := if w = 7 then 0 else if w = 5 ∨ w = 6 then 2 ^ 24 else 2 ^ 32

/-- A value cut to the bits of word `w` of an epilogue record. -/
def epiWord (w v : Nat) : BitVec 32 := BitVec.ofNat 32 (v % 2 ^ 32 % max (epiMask w) 1)

/-- The logical cores whose health-driven substitution is due: its step boundary has come and the core runs no program
(01 R27). Until the copy has been made, no program starts on them and no step opens. -/
def copyDue (s : State) (l : Nat) : Bool :=
  s.faults.subst.any (fun x => x.1 == l && !x.2.2 && !running s x.2.1) && (proof s (lcorePart s l)).openStep.isNone

/-- A reset of a core that a due copy reads or writes: the copy ends FENCED and the substitution moves to the restart
(13 R400). -/
def fenceCopy (s : State) (c : Nat) : State :=
  updFaults s (fun f => { f with subst := f.subst.map (fun x =>
    if copyDue s x.1 && (x.2.1 == c || replacement s (lcorePart s x.1) x.2.1 == some c) then (x.1, x.2.1, true) else x) })

/-- Units whose domain is reset while a dump is in progress (R400). -/
def dumpMeetsReset (s : State) (us : List Nat) : State :=
  if s.faults.dump.state = 1 then
    updFaults s (fun f => { f with dump := { f.dump with resetUnits := us.foldl sins f.dump.resetUnits } })
  else s

/-- Whether the reset of a core is the watchdog's answer to an injected stall (R393, kind 3): it is marked injected and
charges nothing. -/
def stallBarks (s : State) (c cause : Nat) : Bool := cause == 1 && (unitsOf s c).stalled

/-- A physical core reset (R398): exit record, cleared state, DOMAIN_RESET, the charge of 128, and the third reset in
600 s retires the core as a hard fault (R404). A galley or wider reset writes no record of its own (16 R472). -/
def resetCore (s : State) (c cause : Nat) (own : Bool) : State :=
  let p := coreOwner s c
  let inj := stallBarks s c cause
  let s := dumpMeetsReset (stopProgram (fenceCopy s c) c) [ucCore c]
  let s := updCore s c (fun k => coreCleared k (mget s.pulses 0 (c / 8)))
  let now := nowAll s
  let s := updUnits s c (fun u =>
    { unitsCleared u with resets := u.resets.filter (fun t => decide (now < t + 600000000000)) ++ [now] })
  let s := if own then recordE s p (ucCore c) 0 0x0051 (leBytes 1 1 ++ leBytes 1 cause) inj else s
  let s := if inj then s else charge s (ucCore c) 128
  if 3 ≤ (unitsOf s c).resets.length then retireCore s c true else s

/-- A reset that starts while a step is OPEN or COMPUTED records WATCHDOG against it, unless a negative event has
already been raised (R398). -/
def resetNegative (s : State) (p unit : Nat) (inj : Bool) : State :=
  if stepActive s p && !(proof s p).negative && s.raised.all (fun r => r.part != p) then raiseInj s p 0x07 none unit inj else s

end Sys2Proof.Machine
end

