-- ==== Sys2Proof/Machine/Scale.lean ====
section
/-! DEFINITION. The scale table and the scale shadow (07_stack_engines.md R199 to R204, 11_proof_and_reprint.md R342). -/

namespace Sys2Proof.Machine

/-- The entry that a tensor ID names (R199). -/
def scaleIndex (s : State) (p t : Nat) : Nat := sctBase s p + t % sctSize s p

/-- An entry of the scale table. -/
def scaleE (s : State) (i : Nat) : ScaleEntry := mget s.ms.scale {} i

/-- An entry replaced. -/
def setScaleE (s : State) (i : Nat) (e : ScaleEntry) : State := updMs s (fun m => { m with scale := mset m.scale {} i e })

/-- The slot of an entry for a step. -/
def slotFor (e : ScaleEntry) (n : Nat) : Option ScaleSlot := e.slots.find? (fun x => x.step == n)

/-- A slot of an entry changed. -/
def updSlot (e : ScaleEntry) (n : Nat) (f : ScaleSlot → ScaleSlot) : ScaleEntry :=
  { e with slots := e.slots.map (fun x => if x.step = n then f x else x) }

/-- An entry with a slot for step n (R201); none where all eight are taken. -/
def takeSlot (e : ScaleEntry) (n : Nat) : Option ScaleEntry :=
  match slotFor e n with
  | some _ => some e
  | none => if e.slots.length < 8 then some { e with slots := e.slots ++ [⟨n, 1, false, 0, 0⟩] } else none

/-- The larger of two FP32 maxima, both at or above +0. -/
def maxF (a b : BitVec 32) : BitVec 32 := if a < b then b else a

/-- A merge of a maximum, or of a NaN indication, for a step (R201); a merge that finds no slot is dropped and raises
SCALE_SLOT (R204). -/
def mergeMax (s : State) (p i n : Nat) (x : BitVec 32) (nan : Bool) (unit : Nat) : State :=
  match takeSlot (scaleE s i) n with
  | some e => setScaleE s i (updSlot e n (fun v => { v with max := maxF v.max x, maxNan := v.maxNan || nan }))
  | none => raise s p 0x09 (some n) unit

/-- fmax of a format code (R202). -/
def scaleFmax (fmt : Nat) : FVal :=
  match fmt with
  | 1 => f32 0x7F7F0000
  | 2 => f32 0x477FE000
  | 3 => f32 0x43E00000
  | _ => f32 0x47600000

/-- The largest k with h * 2^k at most fmax, for finite h above 0 (R202). -/
def scaleExp (h fmax : FVal) : Int :=
  match h, fmax with
  | .fin _ m e, .fin _ m' e' =>
    let k := ilog2 m' e' - ilog2 m e
    if (fmax.dy).lt ((h.dy).mul ⟨1, k⟩) then k - 1 else k
  | _, _ => 0

/-- The latest slot at or above state COMMITTED below a step (R202). -/
def latestBelow (e : ScaleEntry) (n lowest : Nat) : Option ScaleSlot :=
  (e.slots.filter (fun x => decide (lowest ≤ x.state) && decide (x.step < n))).foldl
    (fun a x => match a with
      | none => some x
      | some y => if y.step < x.step then some x else some y) none

/-- COMMITTED slots below a step, ascending. -/
def committedBelow (e : ScaleEntry) (n : Nat) : List ScaleSlot :=
  sortBy (·.step) (e.slots.filter (fun x => x.state == 2 && decide (x.step < n)))

/-- The ring, oldest first. -/
def ringOf (e : ScaleEntry) : List (BitVec 32) := (List.range 16).map (fun i => mget e.hist 0 ((e.hpos + i) % 16))

/-- NEWSCALE of step n from its history (R202). -/
def newScale (e : ScaleEntry) (n : Nat) (max : BitVec 32) : BitVec 32 :=
  let prev := match latestBelow e n 2 with
    | some x => x.newScale
    | none => e.cur
  let all := ringOf e ++ (committedBelow e n).map (·.max) ++ [max]
  let h := (all.drop (all.length - 16)).foldl maxF 0
  if e.frozen ∨ h = 0 ∨ h = 0x7F800000 then prev
  else
    let k := scaleExp (f32 h) (scaleFmax e.fmt) - e.margin
    let k : Int := if k < -126 then -126 else if 127 < k then 127 else k
    BitVec.ofNat 32 ((k + 127).toNat * 2 ^ 23)

/-- One entry committed for step n (R202); a commit that finds no slot is a merge beyond eight slots (R204). -/
def commitScale (s : State) (p i n : Nat) (unit : Nat) : State :=
  match takeSlot (scaleE s i) n with
  | some e =>
    let mx := match slotFor e n with
      | some x => x.max
      | none => 0
    setScaleE s i (updSlot e n (fun v => { v with state := 2, newScale := newScale e n mx }))
  | none => raise s p 0x09 (some n) unit

/-- An entry's slot for step n at PROVEN, then the fold of the PROVEN slots at or below n - w (R203). -/
def proveEntry (n w : Nat) (e : ScaleEntry) : ScaleEntry :=
  let e := match slotFor e n with
    | some x =>
      if x.state = 2 then
        { updSlot e n (fun v => { v with state := 3 }) with
          hist := mset e.hist 0 e.hpos x.max, hpos := (e.hpos + 1) % 16
          histInf := e.histInf || x.max == 0x7F800000, histNan := e.histNan || x.maxNan }
      else if x.state = 1 then { e with slots := e.slots.filter (fun v => v.step != n) } else e
    | none => e
  let old := sortBy (·.step) (e.slots.filter (fun x => x.state == 3 && decide (x.step + w ≤ n)))
  match old.getLast? with
  | some x => { e with cur := x.newScale, baseStep := x.step,
                       slots := e.slots.filter (fun x => !(x.state == 3 && decide (x.step + w ≤ n))) }
  | none => e

/-- An entry after a failure back to the last PROVEN step (R204). -/
def failEntry (proven : Nat) (e : ScaleEntry) : ScaleEntry := { e with slots := e.slots.filter (fun x => decide (x.step ≤ proven)) }

/-- Whether an entry lies in a partition's range. -/
def inScaleRange (s : State) (p i : Nat) : Bool := decide (sctBase s p ≤ i) && decide (i < sctBase s p + sctSize s p)

/-- R203 for every entry of a partition. -/
def proveScales (s : State) (p n : Nat) : State :=
  updMs s (fun m => { m with scale := mmapIf m.scale {} (inScaleRange s p) (proveEntry n (proof s p).w) })

/-- R204 for every entry of a partition. -/
def failScales (s : State) (p proven : Nat) : State :=
  updMs s (fun m => { m with scale := mmapIf m.scale {} (inScaleRange s p) (failEntry proven) })

/-- The scale in effect for a step (R203). -/
def scaleFor (e : ScaleEntry) (n w : Nat) : BitVec 32 :=
  match latestBelow { e with slots := e.slots.filter (fun x => x.state == 3) } (n - w) 3 with
  | some x => x.newScale
  | none => e.cur

/-! ### Bytes of an entry (R200) -/

/-- The 16 bytes of a slot. -/
def ScaleSlot.bytes (x : ScaleSlot) : Bytes :=
  leBytes 6 x.step ++ leBytes 1 x.state ++ leBytes 1 (b2n x.maxNan) ++ leBytes 4 x.max.toNat ++ leBytes 4 x.newScale.toNat

/-- The 208 bytes of an entry. -/
def ScaleEntry.bytes (e : ScaleEntry) : Bytes :=
  leBytes 4 e.cur.toNat ++ leBytes 1 e.fmt ++ leBytes 1 (toCode 8 e.margin) ++
  leBytes 1 (b2n e.frozen + 2 * b2n e.histInf + 4 * b2n e.histNan) ++ leBytes 1 e.hpos ++ leBytes 6 e.baseStep ++ zeros 2 ++
  (List.range 16).flatMap (fun i => leBytes 4 (mget e.hist 0 i).toNat) ++
  e.slots.flatMap ScaleSlot.bytes ++ zeros (16 * (8 - e.slots.length))

/-- An entry from its 208 bytes. -/
def ScaleEntry.ofBytes (bs : Bytes) : ScaleEntry :=
  let f := leAt bs 6 1
  { cur := BitVec.ofNat 32 (leAt bs 0 4), fmt := leAt bs 4 1 % 16, margin := sext 8 (leAt bs 5 1)
    frozen := f.testBit 0, histInf := f.testBit 1, histNan := f.testBit 2, hpos := leAt bs 7 1 % 16
    baseStep := leAt bs 8 6
    hist := mofList 0 0 ((List.range 16).map (fun i => BitVec.ofNat 32 (leAt bs (16 + 4 * i) 4)))
    slots := (List.range 8).filterMap (fun i =>
      let o := 80 + 16 * i
      if leAt bs (o + 6) 1 % 4 = 0 then none
      else some ⟨leAt bs o 6, leAt bs (o + 6) 1 % 4, (leAt bs (o + 7) 1).testBit 0, BitVec.ofNat 32 (leAt bs (o + 8) 4),
        BitVec.ofNat 32 (leAt bs (o + 12) 4)⟩) }

/-- Bytes `off .. off + n - 1` of a table of entries, of which entry 0 has table index `base`. -/
def scaleBytesAt (m : Map ScaleEntry) (base off n : Nat) : Bytes :=
  (sub ((upto (off / 208) ((off % 208 + n + 207) / 208)).flatMap (fun i => (mget m {} (base + i)).bytes)) (off % 208) n)

/-! ### The scale shadow (11 R342) -/

/-- SHADOW_VPN of a partition. -/
def shadowVpn (s : State) (p : Nat) : Nat := regF s (.part p) 0x020002C 0 28

/-- Whether the shadow is in place: its 26 pages mapped VALID, READ and WRITE, in RANGED regions of the partition. -/
def shadowInPlace (s : State) (p : Nat) : Bool :=
  (upto (shadowVpn s p) 26).all (fun v =>
    let e := tte s p v
    let r := ttePpn e / 2048
    tteValid e && tteRead e && tteWrite e && tteOwner e == p && regionRanged s r && regionPart s r == p)

/-- The shadow's entries changed; the pages from SHADOW_VPN receive the bytes of the entries that changed. -/
def setShadow (s : State) (p : Nat) (m : Map ScaleEntry) : State :=
  let old := (mirror s p).shadow
  let s := updMirror s p (fun x => { x with shadow := m })
  let ks := (old.map (·.1) ++ m.map (·.1)).filter (fun i => decide (mget old {} i ≠ mget m {} i))
  ks.foldl (fun s i =>
    let va := shadowVpn s p * pageSize + 208 * i
    let bs := (mget m {} i).bytes
    if shadowInPlace s p then
      (segsOf s p va 208).foldl (fun s x => pwrite s x.1 (.clean ((bs.drop x.2.1).take x.2.2))) s
    else s) s

/-- PROVEN(n) at the shadow: the pending records of step n, then the fold (R342). -/
def proveShadow (s : State) (p n : Nat) : State :=
  let x := mirror s p
  let m := (x.pendingScale.filter (fun r => r.1 == n)).foldl (fun m r =>
    let e := mget m {} r.2.1
    let e := { e with slots := e.slots.filter (fun v => v.step != n) ++ [⟨n, 2, r.2.2.1, r.2.2.2.1, r.2.2.2.2⟩] }
    mset m {} r.2.1 e) x.shadow
  let m := mmapIf m {} (fun _ => true) (proveEntry n (proof s p).w)
  setShadow (updMirror s p (fun x => { x with pendingScale := x.pendingScale.filter (fun r => r.1 != n) })) p m

end Sys2Proof.Machine
end

