-- ==== Sys2Proof/Machine/Tile.lean ====
section
/-! DEFINITION. What the four units of a core share (05_core_sequencer.md R132 to R135, R142, R149, R150): semaphores,
issue queues, the start and the end of a queue entry, and the consumption of a poisoned scratchpad line (R128). -/

namespace Sys2Proof.Machine

/-! ### Semaphores (R142) -/

/-- A semaphore. -/
def semOf (k : Core) (i : Nat) : Nat := (mget k.sem 0 (i % 64)).toNat

/-- A semaphore set. -/
def setSem (k : Core) (i v : Nat) : Core := { k with sem := mset k.sem 0 (i % 64) (BitVec.ofNat 32 v) }

/-- An addition, which stops at 2^32 - 1 and sets SEM_SAT. -/
def semAdd (k : Core) (i v : Nat) : Core :=
  if semOf k i + v < 2 ^ 32 then setSem k i (semOf k i + v) else { setSem k i (2 ^ 32 - 1) with semSat := true }

/-- A take, when the value covers it. -/
def semTake (k : Core) (i v : Nat) : Option Core := if v ≤ semOf k i then some (setSem k i (semOf k i - v)) else none

/-! ### Tile instructions (R132, R133) -/

/-- UNIT. -/
def TileEntry.unit (e : TileEntry) : Nat := fieldOf e.word 0 3
/-- CSEN. -/
def TileEntry.csen (e : TileEntry) : Bool := bitOf e.word 3
/-- CSEM. -/
def TileEntry.csem (e : TileEntry) : Nat := fieldOf e.word 4 6
/-- WSEM. -/
def TileEntry.wsem (e : TileEntry) : Nat := fieldOf e.word 10 6
/-- WCNT. -/
def TileEntry.wcnt (e : TileEntry) : Nat := fieldOf e.word 16 4
/-- The unit-specific bits [31:20] of word 0. -/
def TileEntry.spec (e : TileEntry) : Nat := fieldOf e.word 20 12
/-- BLOCK. -/
def TileEntry.blk (e : TileEntry) : Nat := fieldOf e.word 32 24
/-- FLAGDST. -/
def TileEntry.flagdst (e : TileEntry) : Nat := fieldOf e.word 64 24
/-- FEN. -/
def TileEntry.fen (e : TileEntry) : Bool := bitOf e.word 88

/-- Whether the reserved bits of words 1 to 3 are 0. -/
def tileReservedOk (w : BitVec 128) : Bool := fieldOf w 56 8 == 0 && fieldOf w 89 39 == 0

/-- Whether a report or record of `n` bytes may go to FLAGDST: 8-byte aligned and inside the scratchpad. -/
def flagOk (e : TileEntry) (n : Nat) : Bool := !e.fen || (e.flagdst % 8 == 0 && decide (e.flagdst + n ≤ spadSize))

/-! ### Queues (R134) -/

/-- The queue of a unit. -/
def unitQ (u : Units) (n : Nat) : List TileEntry :=
  match n with
  | 0 => u.ma0.queue
  | 1 => u.ma1.queue
  | 2 => u.sf
  | _ => u.mv

/-- The queue of a unit set. -/
def setUnitQ (u : Units) (n : Nat) (q : List TileEntry) : Units :=
  match n with
  | 0 => { u with ma0 := { u.ma0 with queue := q } }
  | 1 => { u with ma1 := { u.ma1 with queue := q } }
  | 2 => { u with sf := q }
  | _ => { u with mv := q }

/-- Whether all four queues are empty. -/
def queuesEmpty (u : Units) : Bool := (List.range 4).all (fun n => (unitQ u n).isEmpty)

/-- The program's step, when its LAUNCH belongs to one (R131, 11 R333). -/
def coreStep (k : Core) : Option Nat := if k.inStep then some k.step else none

/-- Consumption of poison from the scratchpad (R128, 03 R75, 04 R116): recorded with a free address, for the line keeps
one poison bit and no address (R123; log 8). -/
def consumeLine (s : State) (c oper : Nat) : State :=
  let (k, s) := fresh s
  consume s (coreOwner s c) ((Config.lineAddress k).toNat % 2 ^ 41) (coreStep (core s c)) (ucCore c) oper

/-- HALT's end once every queue is empty (R149). -/
def finishHalt (s : State) (c : Nat) : State :=
  match (core s c).csq with
  | .halting v pc => if queuesEmpty (unitsOf s c) then endProgram s c { exit := v.toNat, outcome := 0, pc := pc } else s
  | _ => s

/-- Whether the galley arbiter grants leave (14 R429, R433). -/
def granted (s : State) (c : Nat) : Bool := !(s.power.edcHold || (part s (coreOwner s c)).grantHold)

/-- Whether an entry needs leave (14 R430): every matrix instruction, and a stream instruction whose forme enables more than
four compute units. -/
def needsLeave (u : Units) (e : TileEntry) : Bool :=
  if e.unit < 2 then true
  else if e.unit = 2 then decide (4 < (bitsSet (leAt (mget u.formes [] (e.spec % 64)) 8 3) 24).length)
  else false

/-- Whether a mover entry is a FORME load of a slot. -/
def isFormeLoad (e : TileEntry) (slot : Nat) : Bool := e.spec % 16 == 3 && leAt e.block 18 1 % 64 == slot

/-- Whether an entry waits for a forme (04 R103): a stream instruction for an earlier load of its slot, a load for an
earlier stream instruction that names its slot. -/
def formeWaits (u : Units) (e : TileEntry) : Bool :=
  if e.unit = 2 then u.mv.any (fun x => decide (x.seq < e.seq) && isFormeLoad x (e.spec % 64))
  else if e.unit = 3 ∧ e.spec % 16 = 3 then
    u.sf.any (fun x => decide (x.seq < e.seq) && x.spec % 64 == leAt e.block 18 1 % 64)
  else false

/-- The head of a unit's queue when it can start, with WCNT taken (R134, R142). -/
def startEntry (s : State) (c n : Nat) : Option (TileEntry × State) :=
  match unitQ (unitsOf s c) n with
  | [] => none
  | e :: _ =>
    if (needsLeave (unitsOf s c) e && !granted s c) || formeWaits (unitsOf s c) e then none
    else if e.wcnt = 0 then some (e, s)
    else (semTake (core s c) e.wsem e.wcnt).map (fun k => (e, updCore s c (fun _ => k)))

/-- An entry completes: it leaves its queue and signals CSEM (R134); a waiting HALT may end. -/
def completeEntry (s : State) (c n : Nat) (e : TileEntry) : State :=
  let s := updUnits s c (fun u => setUnitQ u n (unitQ u n).tail)
  let s := if e.csen then updCore s c (fun k => semAdd k e.csem 1) else s
  finishHalt s c

/-- A program ends by a tile instruction's status (R150, R151). -/
def tileFault (s : State) (c unit : Nat) (st : St) (pc : Nat) : State :=
  if st = .outOfScope then endProgram s c { outcome := 2, fault := 6, unit := unit, status := st.code, pc := pc }
  else endProgram s c { outcome := 1, fault := 5, unit := unit, status := st.code, pc := pc }

/-- A queued entry whose start checks fail. -/
def failQueued (s : State) (c n : Nat) (e : TileEntry) (st : St) : State :=
  tileFault (updUnits s c (fun u => setUnitQ u n (unitQ u n).tail)) c n st e.pc

end Sys2Proof.Machine
end

