-- ==== Sys2Proof/Machine/Matrix.lean ====
section
/-! DEFINITION. Matrix tile instructions (03_matrix_arrays.md R61 to R88, 05_core_sequencer.md R136, R137): the issue
checks, group-exact accumulation, the proof column, the fused epilogue and the tile report; sampled chains and their
captures (11_proof_and_reprint.md R335, R336). -/

namespace Sys2Proof.Machine

/-! ### The matrix block (R136) -/

/-- M. -/
def mbM (b : Bytes) : Nat := leAt b 0 2
/-- N. -/
def mbN (b : Bytes) : Nat := leAt b 2 2
/-- K. -/
def mbK (b : Bytes) : Nat := leAt b 4 2
/-- FMTA. -/
def mbFmtA (b : Bytes) : Nat := leAt b 6 1 % 16
/-- FMTB. -/
def mbFmtB (b : Bytes) : Nat := leAt b 6 1 / 16
/-- A base, stride or scale field at a byte offset. -/
def mbAddr (b : Bytes) (off : Nat) : Nat := leAt b off 3

/-- ACC = KEEP. -/
def mtKeep (e : TileEntry) : Bool := e.spec.testBit 0
/-- EMIT. -/
def mtEmit (e : TileEntry) : Bool := e.spec.testBit 1
/-- STRICT. -/
def mtStrict (e : TileEntry) : Bool := e.spec.testBit 2
/-- EPI. -/
def mtEpi (e : TileEntry) : Nat := natFld e.spec 3 4

/-- A field of the epilogue record read at issue (R81). -/
def epF (e : TileEntry) (w lo n : Nat) : Nat := fieldOf (e.epi.getD w 0) lo n

/-- Bytes of a row of `n` packed elements (02 R39). -/
def rowBytes (f : Fmt) (n : Nat) : Nat := (n * f.bits + 7) / 8

/-- Whether `rows` rows of `len` bytes lie in the scratchpad. -/
def rowsIn (base rows stride len : Nat) : Bool := rows == 0 || len == 0 || decide (base + (rows - 1) * stride + len ≤ spadSize)

/-- Blocks or groups that `k` elements take. -/
def blocksOf (f : Fmt) (k : Nat) : Nat := if f.group = 0 then 0 else (k + f.group - 1) / f.group

/-- The format of the epilogue's output (R81). -/
def outFmt (e : TileEntry) : Fmt := (fmtOf (epF e 0 8 4)).getD .fp32

/-- The epilogue record's checks (R82). -/
def epiOk (e : TileEntry) : Bool :=
  let m := mbM e.block
  let n := mbN e.block
  let bias := epF e 0 2 2
  let z := if bias = 1 then 4 else 2
  let lo := f32 (e.epi.getD 3 0)
  let hi := f32 (e.epi.getD 4 0)
  epF e 0 0 2 != 3 && bias != 3 && decide (epF e 0 4 3 ≤ 4) && decide (epF e 0 8 4 ≤ 4) && decide (epF e 0 12 2 ≤ 1) &&
  epF e 0 14 2 != 3 &&
  (epF e 0 0 2 != 2 || (epF e 5 0 24 % 4 == 0 && (m == 0 || decide (epF e 5 0 24 + 4 * (leAt e.block 48 4 + m) ≤ spadSize)))) &&
  (bias == 0 || (epF e 6 0 24 % z == 0 && (n == 0 || decide (epF e 6 0 24 + z * (leAt e.block 52 4 + n) ≤ spadSize)))) &&
  (epF e 0 4 3 != 4 || !(lo.isNan || hi.isNan || hi.lt lo))

/-- A scale array's alignment and the operand's K0 (R42, R137). -/
def scaleOk (f : Fmt) (b : Bytes) (base stride : Nat) : Bool :=
  f.scalar || (mbAddr b base % f.scaleBytes == 0 && mbAddr b stride % f.scaleBytes == 0 && leAt b 60 4 % f.group == 0)

/-- The checks of a matrix instruction at issue (R82, R137); none where they pass. A misaligned BLOCK or FLAGDST is
BAD_DESC (DEDUCED from R132, log 29). An instruction that names INT32 and also breaks another check gets BAD_DESC (DEDUCED,
log 60). -/
def matrixCheck (e : TileEntry) : Option St :=
  let b := e.block
  let m := mbM b
  let n := mbN b
  let k := mbK b
  if !tileReservedOk e.word || decide (128 ≤ e.spec) || e.blk % 64 != 0 || decide (spadSize < e.blk + 64) then some .badDesc
  else if leAt b 7 1 != 0 || !((upto 2 10).all (fun i => leAt b (4 * i + 3) 1 == 0)) || decide (64 < m) || decide (64 < n) then
    some .badDesc
  else match fmtOf (mbFmtA b), fmtOf (mbFmtB b) with
    | some fa, some fb =>
      if !((upto 2 6).all (fun i => mbAddr b (4 * i) % 16 == 0)) then some .badDesc
      else if !scaleOk fa b 32 36 || !scaleOk fb b 40 44 then some .badDesc
      else if !rowsIn (mbAddr b 8) m (mbAddr b 12) (rowBytes fa k) || !rowsIn (mbAddr b 16) k (mbAddr b 20) (rowBytes fb n) then
        some .badDesc
      else if !rowsIn (mbAddr b 32) m (mbAddr b 36) (blocksOf fa k * fa.scaleBytes) ||
          !rowsIn (mbAddr b 40) (blocksOf fb k) (mbAddr b 44) (n * fb.scaleBytes) then some .badDesc
      else if mtEmit e && (!epiOk e || !flagOk e 8 || !rowsIn (mbAddr b 24) m (mbAddr b 28) (rowBytes (outFmt e) n)) then
        some .badDesc
      else if fa = .int32 ∨ fb = .int32 then some .unsupported
      else none
    | _, _ => some .badDesc

/-! ### Operands (R66 to R68, R75) -/

/-- Rows read from the scratchpad. -/
def readRows (k : Core) (base rows stride len : Nat) : List Blob :=
  (List.range rows).map (fun i => spadRead k (base + i * stride) len)

/-- Element `x` of an operand under scale entry `sc`: an MX scale is applied exactly, an INT4 element stays an integer
and a NaN group scale makes it NaN (R41, R73). -/
def operandOf (f : Fmt) (x sc : Nat) : FVal :=
  if f.scalar then f.elem x
  else match f with
    | .int4g32 | .int4g128 => if (fpDecode Machine.fp32 sc).isNan then .nan else f.elem x
    | _ => f.scaled x sc

/-- The operands of a matrix instruction as the array takes them. -/
structure MatIn where
  /-- Format of A. -/
  fa : Fmt
  /-- Format of B. -/
  fb : Fmt
  /-- Rows of A. -/
  a : List (List FVal)
  /-- Columns of B. -/
  b : List (List FVal)
  /-- INT4 scale of A row i and group g of 32. -/
  sa : List (List FVal)
  /-- INT4 scale of B column j and group g of 32. -/
  sb : List (List FVal)
  /-- An operand line was poisoned. -/
  poison : Bool
  deriving DecidableEq, Repr, Inhabited

/-- Whether a format is INT4 with group scales. -/
def isInt4 (f : Fmt) : Bool := f == .int4g32 || f == .int4g128

/-- The operands that a block names. -/
def matIn (k : Core) (b : Bytes) : MatIn :=
  let m := mbM b
  let n := mbN b
  let kk := mbK b
  let fa := (fmtOf (mbFmtA b)).getD .fp32
  let fb := (fmtOf (mbFmtB b)).getD .fp32
  let ra := readRows k (mbAddr b 8) m (mbAddr b 12) (rowBytes fa kk)
  let rb := readRows k (mbAddr b 16) kk (mbAddr b 20) (rowBytes fb n)
  let ssa := readRows k (mbAddr b 32) (if fa.scalar then 0 else m) (mbAddr b 36) (blocksOf fa kk * fa.scaleBytes)
  let ssb := readRows k (mbAddr b 40) (blocksOf fb kk) (mbAddr b 44) (n * fb.scaleBytes)
  let sca (i x : Nat) : Nat := leAt ((ssa.getD i default).data) (x / max fa.group 1 * fa.scaleBytes) fa.scaleBytes
  let scb (j x : Nat) : Nat := leAt ((ssb.getD (x / max fb.group 1) default).data) (j * fb.scaleBytes) fb.scaleBytes
  let groups := List.range ((kk + 31) / 32)
  { fa := fa, fb := fb
    a := (ra.zipIdx).map (fun r => (List.range kk).map (fun x => operandOf fa (elemAt fa.bits r.1.data x) (sca r.2 x)))
    b := (List.range n).map (fun j => (rb.zipIdx).map (fun r => operandOf fb (elemAt fb.bits r.1.data j) (scb j r.2)))
    sa := (List.range m).map (fun i => groups.map (fun g => if isInt4 fa then fpDecode Machine.fp32 (sca i (32 * g)) else .fin false 1 0))
    sb := (List.range n).map (fun j => groups.map (fun g => if isInt4 fb then fpDecode Machine.fp32 (scb j (32 * g)) else .fin false 1 0))
    poison := (ra ++ rb ++ ssa ++ ssb).any Blob.bad }

/-! ### Group-exact accumulation (R70 to R73) -/

/-- An exact value rounded once to FP32 by RNE, finite overflow clamped, and whether it clamped (R72). -/
def satRound (v : FVal) : BitVec 32 × Bool :=
  let r := fpRound Machine.fp32 .rne v
  (BitVec.ofNat 32 r.1, r.2 == .saturated)

/-- The exact contribution of a group of products (R70, R73); `scale` is the INT4 factor, where an operand is INT4. -/
def groupVal (fa fb : Fmt) (ab : List (FVal × FVal)) (scale : FVal) : FVal :=
  let bad (p : FVal × FVal) : Bool := p.1.isNan || p.2.isNan || (p.1.isInf && p.2.isZero) || (p.1.isZero && p.2.isInf)
  if ab.any bad then .nan
  else
    let infs := ab.filter (fun p => p.1.isInf || p.2.isInf)
    let pos := infs.any (fun p => p.1.neg == p.2.neg)
    let neg := infs.any (fun p => p.1.neg != p.2.neg)
    let v := if pos && neg then FVal.nan
      else if pos then .inf false
      else if neg then .inf true
      else
        let negz := ab.all (fun p => (p.1.isZero || p.2.isZero) && p.1.neg != p.2.neg)
        (ab.foldl (fun a p => a.add (splitMul fa fb p.1 p.2)) Dy.zero).val negz
    if isInt4 fa || isInt4 fb then v.mul scale else v

/-- One group into an accumulator: the rounded group sum, then the rounded addition (R70), with SAT (R72). -/
def accGroup (x : BitVec 32 × Bool) (g : FVal) : BitVec 32 × Bool :=
  let r := satRound g
  let y := satRound ((f32 x.1).add (f32 r.1))
  (y.1, x.2 || r.2 || y.2)

/-- An accumulator after one instruction: row `i` of A against column `j` of B, groups of 32 in ascending K. -/
def accumulate (x : MatIn) (kk i j : Nat) (start : BitVec 32) : BitVec 32 × Bool :=
  let ab := (x.a.getD i []).zip (x.b.getD j [])
  (List.range ((kk + 31) / 32)).foldl (fun r g =>
    let s := ((x.sa.getD i []).getD g .nan).mul ((x.sb.getD j []).getD g .nan)
    accGroup r (groupVal x.fa x.fb ((ab.drop (32 * g)).take 32) s)) (start, false)

/-- A bank after one instruction's products (R62, R65, R70), with its proof column (R79): whether the proof column
differs from column PCOL. -/
def bankRun (x : MatIn) (m n kk : Nat) (b : Bank) : Bank × Bool :=
  let rows := (List.range m).map (fun i => (List.range n).map (fun j => accumulate x kk i j (mget b.acc 0 (64 * i + j))))
  let acc := (rows.zipIdx).foldl (fun a r => mreplace a (64 * r.2) n (mofList 0 0 (r.1.map (·.1)))) b.acc
  let proof := (List.range m).map (fun i => (accumulate x kk i b.pcol (mget b.proof 0 i)).1)
  let differ := (proof.zipIdx).any (fun p => p.1 != mget acc 0 (64 * p.2 + b.pcol))
  ({ b with
      acc := acc, proof := mreplace b.proof 0 m (mofList 0 0 proof), m := m, n := n
      sat := b.sat || rows.any (fun r => r.any (·.2)), poison := b.poison || x.poison }, differ)

/-- A free bank at a CLEAR (R62): the tile's accumulators +0, chain flags clear. -/
def bankClear (b : Bank) (m n pcol : Nat) : Bank :=
  { acc := (List.range m).foldl (fun a i => mreplace a (64 * i) n []) b.acc
    proof := mreplace b.proof 0 m [], m := m, n := n, pcol := pcol }

/-! ### The fused epilogue (R81 to R87) -/

/-- One binary32 operation rounded by RNE, overflow to infinity (R85). -/
def f32op (v : FVal) : FVal := fpDecode Machine.fp32 (ieeeRound Machine.fp32 v)

/-- A function unit's result (R109). -/
def fnF (op : Nat) (v : FVal) : FVal := f32op (fnVal op v)

/-- GELU (R85). -/
def gelu (x : FVal) : FVal :=
  match x with
  | .nan => .nan
  | .inf s => if s then .fin true 0 0 else .inf false
  | x =>
    let x3 := f32op ((f32op (x.mul x)).mul x)
    let u := f32op ((f32 0x3F4C422A).mul (f32op (x.add (f32op ((f32 0x3D372713).mul x3)))))
    let e := f32op ((fnF 1 (f32op (u.mul (f32 0x4038AA3B)))).add (.fin false 1 0))
    let t := f32op ((FVal.fin false 2 0).mul (fnF 3 e))
    f32op ((f32op ((FVal.fin false 1 (-1)).mul x)).mul (f32op ((FVal.fin false 2 0).add t.negate)))

/-- SiLU (R85). -/
def silu (x : FVal) : FVal :=
  match x with
  | .nan => .nan
  | .inf s => if s then .fin true 0 0 else .inf false
  | x =>
    let e := fnF 1 (f32op (x.negate.mul (f32 0x3FB8AA3B)))
    f32op (x.mul (fnF 3 (f32op ((FVal.fin false 1 0).add e))))

/-- The activation stage (R85). -/
def activate (act : Nat) (lo hi : BitVec 32) (y : BitVec 32) : BitVec 32 :=
  let x := f32 y
  match act with
  | 0 => y
  | 1 => if x.isNan then 0x7FC00000 else if (FVal.fin false 0 0).lt x then y else 0
  | 2 => toF32 (gelu x)
  | 3 => toF32 (silu x)
  | _ => if x.isNan then 0x7FC00000 else if x.lt (f32 lo) then lo else if (f32 hi).lt x then hi else y

/-- Whether an FP32 word is finite. -/
def finite32 (x : BitVec 32) : Bool := !(f32 x).isNan && !(f32 x).isInf

/-- What the epilogue makes of one accumulator. -/
structure EpiElem where
  /-- The output element. -/
  code : Nat
  /-- The post-activation value. -/
  y : BitVec 32
  /-- ESAT. -/
  esat : Bool
  /-- ENF. -/
  enf : Bool
  deriving DecidableEq, Repr, Inhabited

/-- The five stages for one accumulator (R84 to R87); `s` and `b` are the scale and the bias, where a stage has one, and
`pos` the element's position in the output tensor. An E4M3 output made NaN by an infinite accumulator sets ENF too: R87 sets
it for NAN_MADE whatever the accumulator (DEDUCED, log 60). -/
def epiElem (e : TileEntry) (x : BitVec 32) (s b : Option FVal) (pos : Nat) : EpiElem :=
  let y1 : BitVec 32 × Bool := match s with
    | some s => satRound ((f32 x).mul s)
    | none => (x, false)
  let y2 : BitVec 32 × Bool := match b with
    | some b => satRound ((f32 y1.1).add b)
    | none => (y1.1, false)
  let y := activate (epF e 0 4 3) (e.epi.getD 3 0) (e.epi.getD 4 0) y2.1
  let q := match epF e 0 14 2 with
    | 0 => FVal.fin false 1 0
    | 1 => f32 (e.epi.getD 2 0)
    | _ => f32 e.oscale
  let r := (outFmt e).round (rndOf (epF e 0 12 2) e.step (epF e 0 16 16) pos) ((f32 y).mul q)
  { code := r.1, y := y
    esat := y1.2 || y2.2 || r.2 == .saturated
    enf := (finite32 x && !finite32 y) || r.2 == .nanMade || (finite32 x && (r.2 == .infPassed || r.2 == .nanPassed)) }

/-- What an EMIT writes. -/
structure EmitOut where
  /-- Output rows. -/
  rows : List Bytes
  /-- Word 0 of the report without SAT, PMIS, POISON and PCOL. -/
  flags : Nat
  /-- AMAX. -/
  amax : BitVec 32
  /-- AMAX_NAN. -/
  amaxNan : Bool
  /-- A vector element lay in a poisoned line (R75). -/
  poison : Bool
  /-- NF or ENF (R77). -/
  nonfinite : Bool
  deriving DecidableEq, Repr, Inhabited

/-- The epilogue of a bank (R74, R83 to R87). -/
def emitOf (k : Core) (e : TileEntry) (bank : Bank) : EmitOut :=
  let m := mbM e.block
  let n := mbN e.block
  let row0 := leAt e.block 48 4
  let col0 := leAt e.block 52 4
  let len := leAt e.block 56 4
  let z := if epF e 0 2 2 = 1 then 4 else 2
  let rv := if epF e 0 0 2 = 2 then spadRead k (epF e 5 0 24 + 4 * row0) (4 * m) else ⟨[], []⟩
  let bv := if epF e 0 2 2 = 0 then ⟨[], []⟩ else spadRead k (epF e 6 0 24 + z * col0) (z * n)
  let scale (i : Nat) : Option FVal := match epF e 0 0 2 with
    | 0 => none
    | 1 => some (f32 (e.epi.getD 1 0))
    | _ => some (fpDecode Machine.fp32 (leAt rv.data (4 * i) 4))
  let bias (j : Nat) : Option FVal := match epF e 0 2 2 with
    | 0 => none
    | 1 => some (fpDecode Machine.fp32 (leAt bv.data (4 * j) 4))
    | _ => some (fpDecode Machine.bf16 (leAt bv.data (2 * j) 2))
  let els := (List.range m).map (fun i => (List.range n).map (fun j =>
    epiElem e (mget bank.acc 0 (64 * i + j)) (scale i) (bias j) (((row0 + i) * len + col0 + j) % 2 ^ 48)))
  let all := els.flatMap id
  let nf := ((List.range m).flatMap (fun i => (List.range n).map (fun j => 64 * i + j))).find?
    (fun i => !finite32 (mget bank.acc 0 i))
  let ys := all.map (·.y)
  let nan := ys.any (fun y => (f32 y).isNan)
  let enf := all.any (·.enf)
  { rows := els.map (fun r => packElems (outFmt e).bits (r.map (·.code)))
    flags := 2 * b2n nf.isSome + 4 * b2n (all.any (·.esat)) + 8 * b2n enf + 64 * b2n nan + 256 * nf.getD 0
    amax := (ys.filter (fun y => !(f32 y).isNan)).foldl (fun a y => maxF a (y &&& 0x7FFFFFFF)) 0
    amaxNan := nan, poison := rv.bad || bv.bad, nonfinite := nf.isSome || enf }

/-- Word 0 of the tile report (R76). -/
def reportWord0 (b : Bank) (o : EmitOut) : Nat :=
  o.flags + b2n b.sat + 16 * b2n (b.poison || o.poison) + 32 * b2n b.pmis + 2 ^ 20 * b.pcol

/-! ### Sampling (11 R335, R336) -/

/-- Whether a chain is sampled (R335). -/
def sampledChain (step lcore array ordinal k : Nat) : Bool :=
  let x := srMix ((BitVec.ofNat 64 step <<< 16) ||| BitVec.ofNat 64 (2 * lcore + array))
  let x := srMix (x + BitVec.ofNat 64 ordinal * 0x9E3779B97F4A7C15)
  x.toNat / 2 ^ (64 - k) == 0

/-- Bytes of a capture by the contents that R336 lists. -/
def captureSize (c : Capture) : Nat :=
  c.steps.foldl (fun a st =>
    let b := st.entry.block
    let m := mbM b
    let n := mbN b
    let kk := mbK b
    let fa := (fmtOf (mbFmtA b)).getD .fp32
    let fb := (fmtOf (mbFmtB b)).getD .fp32
    a + 64 + m * rowBytes fa kk + kk * rowBytes fb n + m * blocksOf fa kk * fa.scaleBytes + blocksOf fb kk * n * fb.scaleBytes +
      (if mtEmit st.entry then 32 + 4 + (if epF st.entry 0 0 2 = 2 then 4 * m else 0) +
        (match epF st.entry 0 2 2 with
          | 0 => 0
          | 1 => 4 * n
          | _ => 2 * n) else 0)) (6 + c.output.length + 8)

/-- A capture abandoned (R336). -/
def skipSample (s : State) (p : Nat) : State :=
  stickyPart (updProof s p (fun x => { x with sampleSkipped := min (x.sampleSkipped + 1) (2 ^ 64 - 1) })) p 8

/-- Bytes of the partition's sample area. -/
def sampleArea (s : State) (p : Nat) : Nat := regF s (.part p) 0x0200028 16 4 * 2 ^ 30

/-- A capture that reached its EMIT goes to the sample area, or is abandoned where it finds no room (R336). -/
def keepCapture (s : State) (p : Nat) (c : Capture) : State :=
  let used := (proof s p).captures.foldl (fun a c => a + captureSize c) 0
  let sz := captureSize c
  if sz ≤ 8 * 2 ^ 20 ∧ used + sz ≤ sampleArea s p then
    updProof s p (fun x => { x with captures := x.captures ++ [c], sampled := min (x.sampled + 1) (2 ^ 64 - 1) })
  else skipSample s p

/-- A capture under way is abandoned where there is no sample area, so that every selected chain counts as skipped, and as
soon as it passes 8 MiB (R336). -/
def trimCapture (s : State) (p : Nat) (a : MArray) : State × MArray :=
  if a.capture.any (fun c => sampleArea s p == 0 || decide (8 * 2 ^ 20 < captureSize c)) then (skipSample s p, { a with capture := none })
  else (s, a)

/-! ### One instruction -/

/-- An array of a core. -/
def arrayOf (u : Units) (n : Nat) : MArray := if n = 0 then u.ma0 else u.ma1

/-- An array of a core set. -/
def setArray (u : Units) (n : Nat) (a : MArray) : Units := if n = 0 then { u with ma0 := a } else { u with ma1 := a }

/-- The bank in use. -/
def curBank (a : MArray) : Bank := if a.cur then a.bank1 else a.bank0

/-- The bank in use set. -/
def setCurBank (a : MArray) (b : Bank) : MArray := if a.cur then { a with bank1 := b } else { a with bank0 := b }

/-- The array and its bank as the instruction's products find them (R62 to R64, R78), and whether a chain starts. -/
def openBank (a : MArray) (e : TileEntry) : MArray × Bool :=
  let m := mbM e.block
  let n := mbN e.block
  if mtKeep e then ({ a with fresh := false }, a.fresh)
  else
    let a := { a with cur := !a.cur, fresh := false }
    let b := bankClear (curBank a) m n (a.ptr % n)
    ({ setCurBank a b with ptr := (a.ptr + 1) % 64 }, true)

/-- The chain's ordinal and capture as it starts (R335, R336). -/
def openChain (s : State) (c n : Nat) (a : MArray) : MArray :=
  let k := core s c
  let p := coreOwner s c
  let lc := (logicalOf s c).getD 0
  let sk := if observed s (ucCore c) || (proof s p).observe then 4 else (proof s p).kNow
  if k.inStep then
    { a with
      ordinal := a.ordinal + 1
      capture := if sampledChain k.step lc n a.ordinal sk then
          some { step := k.step, lcore := lc, array := n, ordinal := a.ordinal, phys := c, steps := [], output := [], report := (0, 0), poison := false }
        else none }
  else { a with capture := none }

/-- The instruction joins the chain's capture. -/
def captureEntry (k : Core) (e : TileEntry) (poison : Bool) (a : MArray) : MArray :=
  { a with capture := a.capture.map (fun x => { x with steps := x.steps ++ [⟨e, k.spad⟩], poison := x.poison || poison }) }

/-- EMIT (R62, R74 to R77, R86): output rows, tile report, maximum, strict violation, the capture's end. -/
def emitTile (s : State) (c n : Nat) (e : TileEntry) : State :=
  let k := core s c
  let p := coreOwner s c
  let a := arrayOf (unitsOf s c) n
  let b := curBank a
  let o := emitOf k e b
  let bad := b.poison || o.poison
  let w0 := reportWord0 b o
  let rep : Bytes := leBytes 4 w0 ++ leBytes 4 o.amax.toNat
  let k := (o.rows.zipIdx).foldl (fun k r =>
    spadWrite k (mbAddr e.block 24 + r.2 * mbAddr e.block 28) ⟨r.1, if bad then [(0, r.1.length)] else []⟩) k
  let k := if e.fen then spadWrite k e.flagdst (.clean rep) else k
  let s := updCore s c (fun _ => k)
  let s := if o.poison then consumeLine s c (operTile n) else s
  let s := if epF e 0 7 1 = 1 ∧ k.inStep then
      mergeMax s p (scaleIndex s p (epF e 0 16 16)) k.step o.amax o.amaxNan (ucCore c)
    else s
  let s := if mtStrict e && (b.sat || o.nonfinite) then raise s p 0x06 (coreStep k) (ucCore c) else s
  match a.capture with
  | some x =>
    let s := updUnits s c (fun u => setArray u n { arrayOf u n with capture := none })
    keepCapture s p { x with output := o.rows.flatMap id, report := (BitVec.ofNat 32 w0, o.amax), poison := x.poison || o.poison }
  | none => s

/-- A matrix instruction with M and N above 0 that has passed R63. -/
def matrixRun (s : State) (c n : Nat) (e : TileEntry) : State :=
  let k := core s c
  let p := coreOwner s c
  let x := matIn k e.block
  let (a, starts) := openBank (arrayOf (unitsOf s c) n) e
  let a := if starts then openChain s c n a else a
  let (s, a) := trimCapture s p (captureEntry k e x.poison a)
  let (b, differ) := bankRun x (mbM e.block) (mbN e.block) (mbK e.block) (curBank a)
  let inj := a.inject && starts
  let b := if differ || inj then { b with pmis := true } else b
  let s := updUnits s c (fun u => setArray u n (setCurBank a b))
  let s := if inj then updUnits s c (fun u => { u with ma0 := { u.ma0 with inject := false }, ma1 := { u.ma1 with inject := false } }) else s
  let s := if x.poison then consumeLine s c (operTile n) else s
  let s := if differ || inj then
      let s := raiseInj s p 0x01 (coreStep k) (ucCore c) (inj && !differ)
      if differ then charge s (ucCore c) 192 else s
    else s
  if mtEmit e then emitTile s c n e else s

/-- MATRIX_INSTRUCTION: the head of an array's queue starts and completes, when it can. -/
def matrixInstruction (s : State) (c n : Nat) : State :=
  match startEntry s c n with
  | none => s
  | some (e, s) =>
    let m := mbM e.block
    let nn := mbN e.block
    let b := curBank (arrayOf (unitsOf s c) n)
    if m = 0 ∨ nn = 0 then
      let s := if mtEmit e && e.fen then updCore s c (fun k => spadWrite k e.flagdst (.clean (zeros 8))) else s
      completeEntry s c n e
    else if mtKeep e ∧ (b.m ≠ m ∨ b.n ≠ nn) then failQueued s c n e .badDesc
    else completeEntry (matrixRun s c n e) c n e

end Sys2Proof.Machine
end

