-- ==== Sys2Proof/Machine/Forme.lean ====
section
/-! DEFINITION. Formes (04_stream_fabric.md R97 to R102): their layout, their sources and rate domains, and the
validation of a load. -/

namespace Sys2Proof.Machine

/-- A compute type code: FP32, BF16, FP16 or INT32 (R99). -/
def typeOk (t : Nat) : Bool := t == 0 || t == 1 || t == 2 || t == 6

/-- A unit record (R101). -/
structure UnitRec where
  /-- Record number 0 to 23. -/
  u : Nat
  /-- OP. -/
  op : Nat
  /-- TYPE. -/
  ty : Nat
  /-- MODE. -/
  mode : Nat
  /-- SRCA. -/
  a : Nat
  /-- SRCB. -/
  b : Nat
  /-- SRCC. -/
  c : Nat
  /-- SRCD. -/
  d : Nat
  /-- DTYPE. -/
  dty : Nat
  deriving DecidableEq, Repr, Inhabited

/-- The kinds of unit (R89). -/
inductive UKind where
  /-- ALU. -/
  | alu
  /-- FMA/MUL. -/
  | fma
  /-- Function unit. -/
  | fn
  /-- Scan unit. -/
  | scan
  /-- Compress/expand unit. -/
  | ce
  /-- Ordered reducer. -/
  | red
  deriving DecidableEq, Repr, Inhabited

/-- The kind of a record (R98). -/
def UnitRec.kind (r : UnitRec) : UKind :=
  if r.u < 8 then .alu else if r.u < 16 then .fma else if r.u < 18 then .fn else if r.u < 20 then .scan
  else if r.u < 22 then .ce else .red

/-- SIZE of a forme. -/
def foSize (f : Bytes) : Nat := leAt f 4 2
/-- Enabled input records. -/
def foInputs (f : Bytes) : List Nat := bitsSet (leAt f 12 1) 8
/-- Enabled output records. -/
def foOutputs (f : Bytes) : List Nat := bitsSet (leAt f 13 1) 4
/-- Compute type of an input record. -/
def foInType (f : Bytes) (i : Nat) : Nat := leAt f (0x40 + 4 * i) 1 % 16
/-- ROLE DENSE of an input record. -/
def foDense (f : Bytes) (i : Nat) : Bool := (leAt f (0x40 + 4 * i) 1).testBit 4
/-- SRC of an output record. -/
def foSrc (f : Bytes) (o : Nat) : Nat := leAt f (0x1E0 + 4 * o) 1
/-- QSRC of an output record. -/
def foQsrc (f : Bytes) (o : Nat) : Nat := leAt f (0x1E1 + 4 * o) 1
/-- A constant. -/
def foConst (f : Bytes) (k : Nat) : Nat := leAt f (0x1F0 + 4 * k) 4
/-- A unit record. -/
def foUnit (f : Bytes) (u : Nat) : UnitRec :=
  let o := 0x60 + 16 * u
  ⟨u, leAt f o 1, leAt f (o + 1) 1 % 16, leAt f (o + 1) 1 / 16, leAt f (o + 2) 1, leAt f (o + 3) 1, leAt f (o + 4) 1,
    leAt f (o + 5) 1, leAt f (o + 6) 1⟩
/-- The enabled unit records. -/
def foUnits (f : Bytes) : List UnitRec := (bitsSet (leAt f 8 3) 24).map (foUnit f)

/-- The operands an opcode uses (R106 to R114): the typed ones, then a mask or flag of any type; none where the opcode,
TYPE, MODE or DTYPE is not listed for the unit. ACC192, whose table names 32-byte records and no TYPE, takes INT32 alone, the
type of the records' words (DEDUCED, log 60). -/
def UnitRec.uses (r : UnitRec) : Option (List Nat × List Nat) :=
  let cvt := r.kind == .alu && r.op == 0x12
  if !typeOk r.ty || (if cvt then !typeOk r.dty else r.dty != 0) then none
  else match r.kind with
    | .alu =>
      if decide (r.mode ≤ (if r.op = 5 then 5 else 0)) then
        match r.op with
        | 0x01 | 0x02 | 0x03 | 0x04 | 0x05 | 0x07 | 0x08 | 0x09 => some ([r.a, r.b], [])
        | 0x06 => some ([r.a, r.b], [r.d])
        | 0x0A | 0x0E | 0x0F | 0x12 | 0x13 => some ([r.a], [])
        | 0x0B | 0x0C | 0x0D | 0x10 | 0x11 => if r.ty = 6 then some ([r.a, r.b], []) else none
        | _ => none
      else none
    | .fma =>
      if r.mode = 0 then
        match r.op with
        | 1 => some ([r.a, r.b], [])
        | 2 | 3 => some ([r.a, r.b, r.c], [])
        | _ => none
      else none
    | .fn => if r.mode = 0 ∧ r.ty = 0 ∧ 1 ≤ r.op ∧ r.op ≤ 6 then some ([r.a], []) else none
    | .scan =>
      if (r.ty = 0 ∨ r.ty = 6) ∧ r.mode ≤ 3 ∧ 1 ≤ r.op ∧ r.op ≤ 3 then
        some ([r.a, r.c], if r.mode.testBit 1 then [r.d] else [])
      else none
    | .ce =>
      if r.mode = 0 then
        match r.op with
        | 1 => some ([r.a], [r.d])
        | 2 => some ([r.a, r.c], [r.d])
        | _ => none
      else none
    | .red =>
      let tyOk := match r.op with
        | 1 | 2 | 3 => r.ty == 0 || r.ty == 6
        | 4 | 5 => r.ty == 0
        | 6 => r.ty == 6
        | _ => false
      if tyOk && decide (r.mode ≤ 1) then
        some (if r.mode = 1 then r.a :: [r.b, r.c, r.d].takeWhile (· != 0xFF) else [r.a], [])
      else none

/-- The type of a unit's output (R102): CMP gives INT32, CVT gives DTYPE, 32-byte records are INT32 words. -/
def UnitRec.outTy (r : UnitRec) : Nat :=
  match r.kind with
  | .alu => if r.op = 5 then 6 else if r.op = 0x12 then r.dty else r.ty
  | .red => if 5 ≤ r.op then 6 else r.ty
  | _ => r.ty

/-- Rate domains (R100). -/
inductive Dom where
  /-- Any. -/
  | any
  /-- FULL. -/
  | full
  /-- A DENSE input's. -/
  | denseIn (i : Nat)
  /-- A COMPRESS unit's, with its mask source. -/
  | dense (u mask : Nat)
  /-- A reducer's own. -/
  | reduced (u : Nat)
  deriving DecidableEq, Repr, Inhabited

/-- Whether a source code is listed and, for ports and units, enabled (R100). -/
def srcListed (f : Bytes) (c : Nat) : Bool :=
  if c < 8 then (foInputs f).contains c
  else if 0x10 ≤ c ∧ c ≤ 0x27 then (bitsSet (leAt f 8 3) 24).contains (c - 0x10)
  else (decide (0x28 ≤ c) && decide (c ≤ 0x2B)) || (decide (0x30 ≤ c) && decide (c ≤ 0x41))

/-- Type and rate domain of a source, once known: `known` lists the units already typed. -/
def srcInfo (f : Bytes) (known : List (Nat × Nat × Dom)) (c : Nat) : Option (Option Nat × Dom) :=
  if c < 8 then some (some (foInType f c), if foDense f c then .denseIn c else .full)
  else if c = 0x41 then some (some 6, .full)
  else if 0x10 ≤ c ∧ c ≤ 0x27 then (known.find? (fun k => k.1 == c - 0x10)).map (fun k => (some k.2.1, k.2.2))
  else some (none, .any)

/-- The domain that a list of sources lies in (R102): FULL where all are Any, none where two differ. -/
def joinDom (ds : List Dom) : Option Dom :=
  match ds.filter (· != .any) with
  | [] => some .full
  | d :: r => if r.all (· == d) then some d else none

/-- The domain of a unit's output (R100, R102, R111); none where R102 refuses it. -/
def unitDom (r : UnitRec) (src : Nat → Dom) (used masks : List Nat) : Option Dom :=
  let fullish (c : Nat) : Bool := src c == .full || src c == .any
  match r.kind with
  | .ce =>
    if r.op = 1 then (if (used ++ masks).all fullish then some (.dense r.u r.d) else none)
    else
      let okA := match src r.a with
        | .denseIn _ => true
        | .dense _ m => m == r.d
        | _ => false
      if okA && fullish r.c && fullish r.d then some .full else none
  | .red =>
    match joinDom (used.map src) with
    | some (.denseIn _) => none
    | some (.reduced _) => none
    | some _ => some (.reduced r.u)
    | none => none
  | _ =>
    match joinDom ((used ++ masks).map src) with
    | some (.denseIn _) => none
    | some (.reduced _) => none
    | d => d

/-- One unit typed once all its sources are (R102): its output's type and domain. -/
def typeUnit (f : Bytes) (known : List (Nat × Nat × Dom)) (r : UnitRec) : Option (Nat × Nat × Dom) :=
  match r.uses with
  | none => none
  | some (used, masks) =>
    let ok := (used ++ masks).all (fun c => srcListed f c && (srcInfo f known c).isSome) &&
      used.all (fun c => match srcInfo f known c with
        | some (some t, _) => t == r.ty
        | _ => true)
    if ok then
      (unitDom r (fun c => match srcInfo f known c with
        | some (_, d) => d
        | none => .any) used masks).map (fun d => (r.u, r.outTy, d))
    else none

/-- Units typed in an order that follows the links, for at most `n` of them; a cycle leaves units untyped (R102). -/
def typeUnits (f : Bytes) : Nat → List UnitRec → List (Nat × Nat × Dom) → List (Nat × Nat × Dom)
  | 0, _, known => known
  | n + 1, rest, known =>
    match rest.find? (fun r => (typeUnit f known r).isSome) with
    | some r => match typeUnit f known r with
      | some k => typeUnits f n (rest.filter (fun x => x.u != r.u)) (known ++ [k])
      | none => known
    | none => known

/-- The units of a forme typed. -/
def typedUnits (f : Bytes) : List (Nat × Nat × Dom) := typeUnits f 24 (foUnits f) []

/-- An output record's checks (R99, R102). An immediate, a constant or ZERO as QSRC has no type and no rate domain of its
own: it counts as FP32 and as of SRC's domain (DEDUCED, log 60). -/
def outRecOk (f : Bytes) (known : List (Nat × Nat × Dom)) (o : Nat) : Bool :=
  let info (c : Nat) : Option Nat × Dom := (srcInfo f known c).getD (none, .any)
  let q := foQsrc f o
  srcListed f (foSrc f o) &&
  (q == 0xFF || (srcListed f q && ((info q).1 == none || (info q).1 == some 0) &&
    ((info q).2 == .any || (info q).2 == (if (info (foSrc f o)).2 = .any then .full else (info (foSrc f o)).2))))

/-- Whether the header of a forme passes (R98): MAGIC, VERSION, SIZE, CRC and reserved fields. -/
def formeHeaderOk (f : Bytes) : Bool :=
  let z (lo n : Nat) : Bool := ((f.drop lo).take n).all (· == 0)
  leAt f 0 2 == 0x4D46 && leAt f 2 1 == 1 && z 3 1 && foSize f == f.length && decide (560 ≤ f.length) && decide (f.length ≤ 4096) &&
  z 6 2 && z 11 1 && decide (leAt f 13 1 < 16) && z 14 46 &&
  crc32 (f.take 0x3C ++ zeros 4 ++ f.drop 0x40) == leAt f 0x3C 4

/-- Whether the reserved fields of every record are 0, those of records that are not enabled too: R102 exempts none. -/
def recordsReservedOk (f : Bytes) : Bool :=
  (List.range 8).all (fun i => decide (leAt f (0x40 + 4 * i) 1 < 32) && leAt f (0x41 + 4 * i) 3 == 0) &&
  (List.range 24).all (fun u => leAt f (0x67 + 16 * u) 9 == 0) &&
  (List.range 4).all (fun o => leAt f (0x1E2 + 4 * o) 2 == 0)

/-- Whether a forme load is valid (R102). -/
def formeOk (f : Bytes) : Bool :=
  formeHeaderOk f && recordsReservedOk f &&
  (foInputs f).all (fun i => typeOk (foInType f i)) &&
  (typedUnits f).length == (foUnits f).length &&
  (foOutputs f).all (outRecOk f (typedUnits f))

end Sys2Proof.Machine
end

