-- ==== Sys2Proof/Machine/Mover.lean ====
section
/-! DEFINITION. The mover (05_core_sequencer.md R138 to R141): the move block, its checks at issue and at start, LOAD,
STORE, XCORE and FORME, and the move record. -/

namespace Sys2Proof.Machine

/-- MOP. -/
def mvOp (e : TileEntry) : Nat := e.spec % 16
/-- ADDR. -/
def mvAddr (b : Bytes) : Nat := leAt b 0 6
/-- SPA. -/
def mvSpa (b : Bytes) : Nat := leAt b 8 3
/-- ROWBYTES. -/
def mvRowBytes (b : Bytes) : Nat := leAt b 12 3
/-- ROWS. -/
def mvRows (b : Bytes) : Nat := leAt b 16 2
/-- TCORE or SLOT. -/
def mvTcore (b : Bytes) : Nat := leAt b 18 1
/-- RSEM. -/
def mvRsem (b : Bytes) : Nat := leAt b 19 1 % 64
/-- RSEN. -/
def mvRsen (b : Bytes) : Bool := (leAt b 19 1).testBit 6
/-- SSTRIDE. -/
def mvSstride (b : Bytes) : Nat := leAt b 20 3
/-- DSTRIDE. -/
def mvDstride (b : Bytes) : Nat := leAt b 24 6

/-- Whether the move moves nothing (R140). -/
def mvEmpty (b : Bytes) : Bool := mvRows b * mvRowBytes b == 0

/-- The checks of a move at issue (R139, R141). -/
def moverCheck (e : TileEntry) : Option St :=
  let b := e.block
  let op := mvOp e
  let ok :=
    tileReservedOk e.word && decide (e.spec < 16) && e.blk % 32 == 0 && decide (e.blk + 32 ≤ spadSize) && flagOk e 8 &&
    decide (op ≤ 3) && leAt b 6 2 == 0 && leAt b 11 1 == 0 && leAt b 15 1 == 0 && decide (mvRowBytes b ≤ spadSize) &&
    leAt b 23 1 == 0 && leAt b 30 2 == 0 &&
    (op == 2 || leAt b 19 1 == 0) && decide (leAt b 19 1 < 128) &&
    (op != 2 || (decide (mvAddr b < 2 ^ 24) && decide (mvDstride b < 2 ^ 24) && decide (mvTcore b < 128))) &&
    (decide (1 < op) || mvTcore b == 0) && (op != 3 || (mvRows b == 1 && decide (mvTcore b < 64))) &&
    (op == 3 || rowsIn (mvSpa b) (mvRows b) (mvSstride b) (mvRowBytes b)) &&
    (op != 2 || rowsIn (mvAddr b) (mvRows b) (mvDstride b) (mvRowBytes b))
  if ok then none else some .badDesc

/-- The move record (R140). -/
def moveRecord (st : St) (poison : Bool) (moved : Nat) : Bytes :=
  leBytes 1 st.code ++ leBytes 1 (b2n poison) ++ zeros 2 ++ leBytes 4 moved

/-- The record written at FLAGDST when FEN is 1. -/
def writeMoveRecord (s : State) (c : Nat) (e : TileEntry) (st : St) (poison : Bool) (moved : Nat) : State :=
  if e.fen then updCore s c (fun k => spadWrite k e.flagdst (.clean (moveRecord st poison moved))) else s

/-- The device address of row `r`. -/
def mvRowVa (b : Bytes) (r : Nat) : Nat := (mvAddr b + r * mvDstride b) % 2 ^ 48

/-- The first row whose device range is out of scope (R141). -/
def mvBadRow (s : State) (p : Nat) (e : TileEntry) : Option Nat :=
  if mvOp e = 2 then none
  else (List.range (mvRows e.block)).find? (fun r => !scopeOk s p .core (mvOp e == 1) (mvRowVa e.block r) (mvRowBytes e.block))

/-- Whether a row touches a fenced stack (06 R183, 13 R405). -/
def mvFenced (s : State) (p : Nat) (e : TileEntry) : Bool :=
  if mvOp e = 2 then s.faults.oos
  else (List.range (mvRows e.block)).any (fun r => fencedMem s p (mvRowVa e.block r) (mvRowBytes e.block))

/-- Bytes `o .. o + n - 1` of a row of a LOAD, STORE or XCORE, and whether they carried poison. -/
def movePart (s : State) (c : Nat) (e : TileEntry) (r o n : Nat) : State × Bool :=
  let b := e.block
  let p := coreOwner s c
  let va := mvRowVa b r + o
  let sp := mvSpa b + r * mvSstride b + o
  match mvOp e with
  | 0 =>
    let s := touch s p va n
    let x := vread s p va n
    (updCore s c (fun k => spadWrite k sp x), x.bad)
  | 1 =>
    let x := spadRead (core s c) sp n
    (vwrite s p va x, x.bad)
  | _ =>
    let x := spadRead (core s c) sp n
    (updCore s (physOf s (mvTcore b)) (fun k => spadWrite k (mvAddr b + r * mvDstride b + o) x), x.bad)

/-- One row. -/
def moveRow (s : State) (c : Nat) (e : TileEntry) (r : Nat) : State × Bool := movePart s c e r 0 (mvRowBytes e.block)

/-- Every row in ascending order. -/
def moveRows (s : State) (c : Nat) (e : TileEntry) : State × Bool :=
  (List.range (mvRows e.block)).foldl (fun a r => let y := moveRow a.1 c e r; (y.1, a.2 || y.2)) (s, false)

/-- A forme slot set; no bytes make it invalid (04 R102). -/
def setForme (s : State) (c slot : Nat) (bs : Bytes) : State :=
  updUnits s c (fun u => { u with formes := mset u.formes [] slot bs })

/-- A FORME load whose pages are in scope (R140, 04 R102). -/
def moveForme (s : State) (c : Nat) (e : TileEntry) : State :=
  let b := e.block
  let p := coreOwner s c
  let n := mvRowBytes b
  let s := touch s p (mvAddr b) n
  let x := vread s p (mvAddr b) n
  if x.bad then completeEntry (writeMoveRecord (setForme s c (mvTcore b) []) c e .poisoned true 0) c 3 e
  else if formeOk x.data then completeEntry (writeMoveRecord (setForme s c (mvTcore b) x.data) c e .done false n) c 3 e
  else completeEntry (writeMoveRecord (setForme s c (mvTcore b) []) c e .badDesc false 0) c 3 e

/-- A move out of scope with the bytes that it had moved (R141, R150): the record, the frozen core and the end of its
program. -/
def moveOutAfter (s : State) (c : Nat) (e : TileEntry) (addr : Nat) (poison : Bool) (moved : Nat) : State :=
  let s := writeMoveRecord s c e .outOfScope poison moved
  let s := match logicalOf s c with
    | some l => freezeCore s l addr
    | none => s
  failQueued s c 3 e .outOfScope

/-- A move out of scope before its first byte. -/
def moveOut (s : State) (c : Nat) (e : TileEntry) (addr : Nat) : State := moveOutAfter s c e addr false 0

/-- A LOAD, STORE or XCORE ends, all of it moved. -/
def moveDone (s : State) (c : Nat) (e : TileEntry) (bad : Bool) : State :=
  let b := e.block
  let s := updUnits s c (fun u => { u with moving := none })
  let s := if mvOp e = 2 ∧ mvRsen b then updCore s (physOf s (mvTcore b)) (fun k => semAdd k (mvRsem b) 1) else s
  completeEntry (writeMoveRecord s c e (if bad then .poisoned else .done) bad (mvRows b * mvRowBytes b)) c 3 e

/-- The lines of a move in order (R141), each a request of its own: row, offset in the row, bytes. A row is cut where its
device range or its target range passes from one 256-byte line to the next. -/
def moveLines (b : Bytes) : List (Nat × Nat × Nat) :=
  (List.range (mvRows b)).flatMap (fun r =>
    let a := mvRowVa b r
    let n := mvRowBytes b
    (upto (a / 256) ((a + n + 255) / 256 - a / 256)).map (fun l =>
      let lo := max a (256 * l)
      (r, lo - a, min (a + n) (256 * (l + 1)) - lo)))

/-- Up to `n` lines of the move in progress, of which `k` lines have moved with poison `bad`: each is translated as it is
issued (R141), and the first that finds its page out of scope ends the move. -/
def moveOn (c : Nat) (e : TileEntry) : Nat → Nat → Bool → State → State
  | 0, k, bad, s => if k < (moveLines e.block).length then updUnits s c (fun u => { u with moving := some (k, bad) }) else moveDone s c e bad
  | n + 1, k, bad, s =>
    match (moveLines e.block)[k]? with
    | none => moveDone s c e bad
    | some (r, o, len) =>
      let va := mvRowVa e.block r + o
      if mvOp e = 2 ∨ scopeOk s (coreOwner s c) .core (mvOp e == 1) va len then
        let (s, x) := movePart s c e r o len
        moveOn c e n (k + 1) (bad || x) s
      else
        moveOutAfter (updUnits s c (fun u => { u with moving := none })) c e va bad
          (((moveLines e.block).take k).foldl (fun a l => a + l.2.2) 0)

/-- Whether a STORE stalls for undo-journal space (07 R211). -/
def moveStalls (s : State) (c : Nat) (e : TileEntry) : Bool :=
  mvOp e == 1 && journalStalls s (coreOwner s c) (proof s (coreOwner s c)).openStep
    ((List.range (mvRows e.block)).map (fun r => (mvRowVa e.block r, mvRowBytes e.block)))

/-- A move starts with its checks (R141); one that passes them goes on as `go` says. -/
def moveStart (s : State) (c : Nat) (h : TileEntry) (go : State → TileEntry → State) : State :=
  if moveStalls s c h then s
  else match startEntry s c 3 with
    | none => s
    | some (e, s) =>
      let b := e.block
      let p := coreOwner s c
      if mvEmpty b then completeEntry (writeMoveRecord s c e .doneEmpty false 0) c 3 e
      else if mvOp e = 2 ∧ (120 ≤ mvTcore b ∨ lcorePart s (mvTcore b) ≠ p) then moveOut s c e (mvAddr b)
      else match mvBadRow s p e with
        | some r => moveOut s c e (mvRowVa b r)
        | none =>
          -- A FORME load that completes with FENCED leaves its slot as it was (DEDUCED, log 60).
          if mvFenced s p e then completeEntry (writeMoveRecord s c e .fenced false 0) c 3 e
          else go s e

/-- The head of the mover's queue starts and completes, when it can and when it is the operation `op`; a move in progress
completes. -/
def moverInstruction (s : State) (c op : Nat) : State :=
  match unitQ (unitsOf s c) 3 with
  | [] => s
  | h :: _ =>
    if mvOp h ≠ op then s
    else match (unitsOf s c).moving with
      | some (k, bad) => moveOn c h ((moveLines h.block).length - k) k bad s
      | none => moveStart s c h (fun s e =>
        if op = 3 then moveForme s c e
        else
          let (s, bad) := moveRows s c e
          moveDone s c e bad)

/-- The mover's turn: it starts the move at the head of its queue, or moves the next line of it. A FORME load is whole. -/
def moverTurn (s : State) (c : Nat) : State :=
  match unitQ (unitsOf s c) 3 with
  | [] => s
  | h :: _ =>
    match (unitsOf s c).moving with
    | some (k, bad) => moveOn c h 1 k bad s
    | none => moveStart s c h (fun s e =>
      if mvOp e = 3 then moveForme s c e else updUnits s c (fun u => { u with moving := some (0, false) }))

end Sys2Proof.Machine
end

