-- ==== Sys2Proof/Machine/Points.lean ====
section
/-! DEFINITION. Operating points: the point in force of each partition, the VCORE target and the pulse ratios
(14_power_clocks_thermal.md R421, R423 to R425). -/

namespace Sys2Proof.Machine

/-- OP_VCORE of a point in mV (R423). -/
def opMv (s : State) (i : Nat) : Nat := regF s .dev (0x0080040 + 4 * i) 0 10

/-- OP_K of a point. -/
def opK (s : State) (i : Nat) : Nat := regF s .dev (0x0080040 + 4 * i) 16 5

/-- PART_OP.DEF of a partition. -/
def opDef (s : State) (p : Nat) : Nat := regF s .dev (0x0080060 + 4 * p) 8 3

/-- The requested point: that of the latest PHASE since the restart, DEF before the first (R424). -/
def opRequested (s : State) (p : Nat) : Nat := if (part s p).phased then (part s p).opReq else opDef s p

/-- The point in force (R424). -/
def opInForce (s : State) (p : Nat) : Nat := min (opRequested s p) (part s p).opCap

/-- The VCORE target that the points in force ask for (R424). -/
def targetMv (s : State) : Nat := ((List.range (nparts s)).map (fun p => opMv s (opInForce s p))).foldl max 0

/-- Galleys of a partition. -/
def partGalleys (s : State) (p : Nat) : List Nat := upto (p * (16 / nparts s)) (16 / nparts s)

/-- The pulse ratio of a galley (R419). -/
def ratioOf (s : State) (g : Nat) : Nat := mget s.power.k 16 g

/-- The pulse ratio of a galley set. -/
def setRatio (s : State) (g v : Nat) : State := updPower s (fun x => { x with k := mset x.k 16 g v })

/-- Every galley taken towards its partition's point: lowered at once, raised only where `up` allows it (R425). -/
def moveRatios (s : State) (up : Bool) : State :=
  (List.range (nparts s)).foldl (fun s p =>
    let want := opK s (opInForce s p)
    (partGalleys s p).foldl (fun s g => if up || decide (want < ratioOf s g) then setRatio s g want else s) s) s

/-- VCORE written over AVSBus (R421); not while an AVS failure is retried. -/
def writeTarget (s : State) (mv : Nat) : State :=
  let s := updPower s (fun x => { x with target := mv })
  if s.power.avsPending then s else emit s (.avs mv)

/-- The operating points followed (R425): a higher target is written first, and ratios wait for VCORE; lower ratios take
effect first. -/
def followPoints (s : State) : State :=
  let t := targetMv s
  if s.power.avsPending then (if t = s.power.target then s else writeTarget s t)
  else if s.power.target < t then updPower (writeTarget (moveRatios s false) t) (fun x => { x with raising := true })
  else
    let s := moveRatios s (!s.power.raising)
    if t < s.power.target then writeTarget s t else s

/-- The operating points followed once the device is ready. -/
def syncPoints (s : State) : State := if s.pins.stage = .ready then followPoints s else s

/-- VMIN of a pulse ratio in mV (R423; 17 R490). -/
def vminOf (s : State) (k : Nat) : Nat := mget s.fuses.vmin 0 k

/-- The highest ratio that a confirmed VCORE carries (R421); 8 where it carries none (DESIGN CHOICE, log 38). -/
def safeRatio (s : State) (mv : Nat) : Nat := ((upto 8 9).filter (fun k => decide (vminOf s k ≤ mv))).foldl max 8

end Sys2Proof.Machine
end

