-- ==== Sys2Proof/Machine/Packets.lean ====
section
/-! DEFINITION. Sending: transport packets and their flits (10_jilan_transport.md R294 to R297), planes (R307 to R309),
and the transmitting link layer with credits and the replay buffer (09_jilan_links.md R263 to R274). -/

namespace Sys2Proof.Machine

/-! ### The fields of a flit (09 R264) -/

/-- KIND. -/
def fKind (f : Flit) : Nat := fieldOf f 0 2
/-- VC. -/
def fVc (f : Flit) : Nat := fieldOf f 2 3
/-- POISON. -/
def fPoison (f : Flit) : Nat := fieldOf f 5 4
/-- ACK. -/
def fAck (f : Flit) : Nat := fieldOf f 9 10
/-- CRVC. -/
def fCrvc (f : Flit) : Nat := fieldOf f 19 3
/-- CRCUM. -/
def fCrcum (f : Flit) : Nat := fieldOf f 22 10
/-- Payload. -/
def fPayload (f : Flit) : Bytes := sub (flitToBytes f) 4 248

/-- A transport header (10 R295). -/
def packetHeader (ptype : Nat) (k : Packet) : Bytes :=
  leBytes 1 ptype ++ leBytes 1 k.sub ++ leBytes 3 k.src ++ leBytes 3 k.dst ++ leBytes 3 k.gen ++ zeros 1 ++
  leBytes 2 k.data.length ++ leBytes 2 k.group ++ leBytes 6 k.addr ++ zeros 2 ++ leBytes 4 k.msg ++ leBytes 4 k.imptag

/-- POISON bits of payload bytes `lo .. lo + 247` of a packet whose poisoned ranges are given by payload byte (R297). -/
def poisonBits (pz : List (Nat × Nat)) (lo : Nat) : Nat :=
  ofBits ((List.range 4).filter (fun k =>
    pz.any (fun r => decide (0 < r.2) && decide (r.1 < lo + min 248 (64 * (k + 1))) && decide (lo + 64 * k < r.1 + r.2))))

/-- The payloads of a packet's flits with their POISON bits (R294, R297). -/
def packetFlits (ptype : Nat) (k : Packet) : List (Bytes × Nat) :=
  let bs := packetHeader ptype k ++ k.data
  let pz := shiftPz k.poison 32
  (List.range ((bs.length + 247) / 248)).map (fun i => (sub (bs.drop (248 * i)) 0 248, poisonBits pz (248 * i)))

/-! ### The transmitting link layer -/

/-- DATA flits of a VC that the receiver has not freed (R269, R270). -/
def heldByPeer (l : Link) (vc : Nat) : Nat := (mget l.sent 0 vc % 1024 + 1024 - mget l.freed 0 vc) % 1024

/-- Credits available to send on a VC (R269). -/
def creditsOf (l : Link) (vc : Nat) : Nat := mget l.credit 0 vc - heldByPeer l vc

/-- The VC that sends next: VC0 to VC2 in strict priority, then VC3 to VC7 round-robin (R268). -/
def txPick (l : Link) : Option Nat :=
  ([0, 1, 2] ++ (List.range 5).map (fun i => 3 + (l.rr - 3 + 1 + i) % 5)).find? (fun v =>
    l.txq.any (fun e => e.1 == v) && decide (0 < creditsOf l v))

/-- STALL of every VC with a flit waiting and no credit in a flit slot (R292). -/
def countStalls (s : State) (j : Nat) : State :=
  updPort s j (fun x =>
    let waiting (v : Nat) : Bool := x.link.txq.any (fun e => e.1 == v) && creditsOf x.link v == 0
    let next := (List.range 8).foldl (fun m v =>
      if waiting v then mset m 0 v (min (mget m 0 v + 1) (2 ^ 64 - 1)) else m) x.stall
    { x with stall := next })

/-- A flit slot with a DATA flit (R268, R269, R272), when a VC has a flit and a credit and the replay buffer has room. -/
def txOne (s : State) (j : Nat) : State :=
  let l := (port s j).link
  match txPick l with
  | none => s
  | some v =>
    match l.txq.find? (fun e => e.1 == v) with
    | none => s
    | some (_, f) =>
      if l.replay.length < 512 then
        let g := flitOf (flitBytes (hdrNow l 1 v (fPoison f)) (fPayload f))
        let s := updPort (countStalls s j) j (fun x => { x with
          txFlits := min (x.txFlits + 1) (2 ^ 64 - 1)
          link := { l with txq := l.txq.eraseP (fun e => e.1 == v), replay := l.replay ++ [(l.txSeq, g)],
                           txSeq := (l.txSeq + 1) % 1024, sent := mset l.sent 0 v (mget l.sent 0 v + 1),
                           crvc := (l.crvc + 1) % 8, rr := if v < 3 then l.rr else v } })
        emit s (.flit j l.txSeq g)
      else s

/-- Up to `n` waiting DATA flits sent, in ACTIVE only (R277) and not while the port waits for a newer IDENT (R283). -/
def txPump (j : Nat) : Nat → State → State
  | 0, s => s
  | n + 1, s => if (port s j).state = 5 ∧ (port s j).epochWait = false then txPump j n (txOne s j) else s

/-- Everything that can be sent on a port is sent. -/
def pump (s : State) (j : Nat) : State := txPump j ((port s j).link.txq.length) s

/-- A flit slot of a port in ACTIVE: a DATA flit where one can go, else an IDLE flit (R264, R270; log 16). -/
def flitSlot (s : State) (j : Nat) : State :=
  if (port s j).state ≠ 5 then s
  else if (port s j).epochWait || (txPick (port s j).link).isNone || decide (512 ≤ (port s j).link.replay.length) then
    sendCtrl (countStalls s j) j 0 []
  else txOne s j

/-- Whether a port is out of service for a while only: ACTIVE, or in RECOVER or RETRAIN entered from ACTIVE (R279). -/
def keepsLink (x : Port) : Bool := x.state == 5 || ((x.state == 6 || x.state == 7) && x.from_ == 5)

/-- A packet sent on a port: its flits join the port's queue (R294), which a port in RECOVER or RETRAIN sends once it is
ACTIVE again. A STRUCK partition sends no DATA flit (11 R353); a port out of ACTIVE carries none (R279). -/
def sendPort (s : State) (p j ptype : Nat) (k : Packet) : State :=
  if (proof s p).slice = 9 ∨ keepsLink (port s j) = false then s
  else
    let s := emit s (.packet p j ptype k)
    let fs := (packetFlits ptype k).map (fun x => (k.vc, flitOf (leBytes 4 (flitHdr 1 k.vc x.2 0 0 0) ++ x.1 ++ zeros 4)))
    pump (updLink s j (fun l => { l with txq := l.txq ++ fs })) j

/-! ### Ranks and planes (10 R299, R307 to R309) -/

/-- Ranks of the loaded imposition. -/
def nranks (s : State) (p : Nat) : Nat := match (xport s p).imp with
  | some m => m.ranks.length
  | none => 0

/-- A rank entry. -/
def rankEntry (s : State) (p r : Nat) : Option RankEntry := (xport s p).imp.bind (fun m => m.ranks[r]?)

/-- The rank of a device ID. -/
def rankOfDev (s : State) (p dev : Nat) : Option Nat :=
  (xport s p).imp.bind (fun m => m.ranks.findIdx? (fun e => e.devid == dev))

/-- The partition's own rank. -/
def ownRank (s : State) (p : Nat) : Nat := (xport s p).rank

/-- The facing rank; the own rank where there is none (11 R338). -/
def facingRank (s : State) (p : Nat) : Nat := match rankEntry s p (ownRank s p) with
  | some e => e.facing
  | none => ownRank s p

/-- Whether the partition has a facing rank. -/
def hasFacing (s : State) (p : Nat) : Bool := facingRank s p != ownRank s p

/-- The partition's ACTIVE fabric ports as a set. -/
def activeNow (s : State) (p : Nat) : Nat :=
  ofBits ((partPorts s p).filter (fun j => isFabric j && (port s j).state == 5 && !(port s j).epochWait))

/-- Eligible planes towards a rank (R307), ascending. -/
def eligible (s : State) (p d : Nat) : List Nat :=
  match rankEntry s p d with
  | some e => bitsSet (e.planes &&& (xport s p).active &&& mget (xport s p).peers 0 d) 28
  | none => []

/-- Whether a port offers its plane now (09 R279, R283). -/
def offersPlane (x : Port) : Bool := x.state == 5 && !x.epochWait

/-- The eligible plane with the most credits on a VC, lowest number first (R309), among those whose ports offer them; a
packet for which none does waits on an eligible plane whose port comes back from RECOVER or RETRAIN (log 87). -/
def planeFor (s : State) (p d vc : Nat) : Option Nat :=
  let es := eligible s p d
  let now := es.filter (fun j => offersPlane (port s j))
  let back := es.filter (fun j => keepsLink (port s j))
  match if !now.isEmpty then now else if back.isEmpty then es else back with
  | [] => none
  | j :: r => some (r.foldl (fun a i => if creditsOf (port s a).link vc < creditsOf (port s i).link vc then i else a) j)

/-- SLICE_CRC of the loaded image. -/
def sliceCrc (s : State) (p : Nat) : Nat := match (xport s p).imp with
  | some m => m.crc
  | none => 0

/-- A packet to a device on the fabric. -/
def fabricPacket (s : State) (p dst vc sub group addr msg : Nat) (b : Blob) : Packet :=
  { vc := vc, sub := sub, src := devId s p, dst := dst, gen := genOf s p, group := group, addr := addr % 2 ^ 48, msg := msg % 2 ^ 32,
    imptag := sliceCrc s p % 2 ^ 32, data := b.data, poison := b.pz }

/-- A packet to a rank (R309); an empty eligible set raises UNREACHABLE. -/
def sendRank (s : State) (p d ptype vc sub group addr msg : Nat) (b : Blob) : State :=
  match rankEntry s p d, planeFor s p d vc with
  | some e, some j => sendPort s p j ptype (fabricPacket s p e.devid vc sub group addr msg b)
  | _, _ => raise s p 0x1A none (ucXport p)

/-- A transfer of bytes to a rank in packets of up to 4,096 bytes, by offset; `addr` is the first byte's address. -/
def sendBytes (s : State) (p d ptype vc sub group addr msg : Nat) (b : Blob) : State :=
  (List.range ((b.data.length + 4095) / 4096)).foldl (fun s i =>
    sendRank s p d ptype vc sub group (addr + 4096 * i) msg (b.slice (4096 * i) 4096)) s

/-- A STOPPRESS packet on every ACTIVE fabric plane (11 R348). -/
def broadcast (s : State) (p sub : Nat) (data : Bytes) : State :=
  (bitsSet (activeNow s p) 28).foldl (fun s j =>
    sendPort s p j 0x20 (fabricPacket s p 0xFFFFF 0 sub 0 0 0 (.clean data))) s

/-- A message on a reserved-role port (10 R319). -/
def sendReserved (s : State) (p j ptype sub addr msg : Nat) (b : Blob) : State :=
  match (port s j).peer with
  | some i => sendPort s p j ptype
      { vc := 7, sub := sub, src := devId s p, dst := i.id, gen := 0, group := 0, addr := addr % 2 ^ 48, msg := msg % 2 ^ 32,
        imptag := 0, data := b.data, poison := b.pz }
  | none => s

end Sys2Proof.Machine
end

