-- ==== Sys2Proof/Machine/Sections.lean ====
section
/-! DEFINITION. The bytes of a snapshot's state sections (12_snapshots.md R362, R365) and what such bytes say. R362 gives
their contents and order, 07_stack_engines.md R200 and R209 the layout of SCALE and UNDO; the rest of the encoding is the
model's own (log 17). -/

namespace Sys2Proof.Machine

/-- A multiple of 64 at or above `n`. -/
def up64 (n : Nat) : Nat := (n + 63) / 64 * 64

/-! ### Data as 64-bit words -/

/-- What a reader takes from the front of a list of words. -/
abbrev Reads (α : Type) := List Nat → α × List Nat

/-- One word; 0 past the end. -/
def getW : Reads Nat
  | [] => (0, [])
  | w :: r => (w, r)

/-- A fixed number of items. -/
def getMany {α : Type} (g : Reads α) : Nat → Reads (List α)
  | 0, ws => ([], ws)
  | n + 1, ws =>
    let (x, ws) := g ws
    let (xs, ws) := getMany g n ws
    (x :: xs, ws)

/-- A list of items, its length first. -/
def getList {α : Type} (g : Reads α) (ws : List Nat) : List α × List Nat :=
  let (n, ws) := getW ws
  getMany g (min n ws.length) ws

/-- The words of a list of items, its length first. -/
def putList {α : Type} (f : α → List Nat) (xs : List α) : List Nat := xs.length :: xs.flatMap f

/-- A pair of numbers. -/
def getPair (ws : List Nat) : (Nat × Nat) × List Nat :=
  let (a, ws) := getW ws
  let (b, ws) := getW ws
  ((a, b), ws)

/-- The words of a pair. -/
def putPair (x : Nat × Nat) : List Nat := [x.1, x.2]

/-- The words of a bit vector, the lowest first. -/
def putBits (n x : Nat) : List Nat := (List.range n).map (fun i => x / 2 ^ (64 * i) % 2 ^ 64)

/-- A bit vector of `n` words. -/
def getBits (n : Nat) (ws : List Nat) : Nat × List Nat :=
  ((ws.take n).zipIdx.foldl (fun a w => a + w.1 * 2 ^ (64 * w.2)) 0, ws.drop n)

/-- The words of bytes: their number, then a word for each. -/
def putBytes (bs : Bytes) : List Nat := putList (fun b => [b.toNat]) bs

/-- Bytes. -/
def getBytes (ws : List Nat) : Bytes × List Nat :=
  let (xs, ws) := getList getW ws
  (xs.map (BitVec.ofNat 8), ws)

/-- The bytes of words. -/
def wordBytes (ws : List Nat) : Bytes := ws.flatMap (leBytes 8)

/-- The words of bytes. -/
def bytesWords (bs : Bytes) : List Nat := (List.range (bs.length / 8)).map (fun i => leAt bs (8 * i) 8)

/-! ### STEP, INPUT and SAMPLE -/

/-- The words of a step record. -/
def StepRec.words (r : StepRec) : List Nat :=
  [r.step, r.state, r.recVa, r.seq, b2n r.replayed + 2 * b2n r.fallback + 4 * b2n r.sealed, r.reason, r.portions, r.optims] ++
  putList (fun i => [i]) r.digestSet

/-- A step record. -/
def getStepRec (ws : List Nat) : StepRec × List Nat :=
  let f := ws.getD 4 0
  let (ds, ws') := getList getW (ws.drop 8)
  ({ step := ws.getD 0 0, state := ws.getD 1 0, recVa := ws.getD 2 0, seq := ws.getD 3 0, replayed := f.testBit 0
     fallback := f.testBit 1, sealed := f.testBit 2, reason := ws.getD 5 0, portions := ws.getD 6 0, optims := ws.getD 7 0
     digestSet := ds }, ws')

/-- The words of the STEP section: the open step with the ordinals of D(open step), last PROVEN step, epoch, reprint count,
W, SAMPLE_K as written and as applied, OBSERVE, PHASEID, MBB and MBATCH. -/
def stepWords (b : SnapState) : List Nat :=
  [b.lastProven, b.epoch, b.reprint, b.w, b.sampleK, b.kNow, b2n b.observe, b.phase] ++
  (match b.mbb with
    | none => [0, 0, 0]
    | some (m, n) => [1, b2n m, n]) ++
  putList StepRec.words b.open_.toList

/-- The STEP section of words, in the rest of a snapshot's state. -/
def stepOfWords (b : SnapState) (ws : List Nat) : SnapState :=
  { b with
    lastProven := ws.getD 0 0, epoch := ws.getD 1 0, reprint := ws.getD 2 0, w := ws.getD 3 0, sampleK := ws.getD 4 0
    kNow := ws.getD 5 0, observe := ws.getD 6 0 == 1, phase := ws.getD 7 0
    mbb := if ws.getD 8 0 = 1 then some (ws.getD 9 0 == 1, ws.getD 10 0) else none
    open_ := (getList getStepRec (ws.drop 11)).1.head? }

/-- The words of a blob. -/
def Blob.words (b : Blob) : List Nat := putBytes b.data ++ putList putPair b.pz

/-- A blob. -/
def getBlob (ws : List Nat) : Blob × List Nat :=
  let (d, ws) := getBytes ws
  let (z, ws) := getList getPair ws
  (⟨d, z⟩, ws)

/-- The words of a logged descriptor with its input-journal bytes. -/
def Logged.words (e : Logged) : List Nat :=
  [e.seq, e.step, e.hp, e.q] ++ putBits 8 e.desc.toNat ++ putList Blob.words e.input.toList ++ putList (fun i => [i]) e.conc

/-- A logged descriptor. -/
def getLogged (ws : List Nat) : Logged × List Nat :=
  let (d, r) := getBits 8 (ws.drop 4)
  let (i, r) := getList getBlob r
  let (c, r) := getList getW r
  ({ seq := ws.getD 0 0, step := ws.getD 1 0, hp := ws.getD 2 0, q := ws.getD 3 0, desc := BitVec.ofNat 512 d, input := i.head?
     conc := c }, r)

/-- The words of a tile instruction as its queue held it. -/
def TileEntry.words (e : TileEntry) : List Nat :=
  putBits 2 e.word.toNat ++ [e.pc, e.oscale.toNat, e.step, e.seq] ++ putBytes e.block ++ putList (fun w => [w.toNat]) e.epi

/-- A tile instruction. -/
def getTileEntry (ws : List Nat) : TileEntry × List Nat :=
  let (w, r) := getBits 2 ws
  let (b, r') := getBytes (r.drop 4)
  let (x, r') := getList getW r'
  ({ word := BitVec.ofNat 128 w, pc := r.getD 0 0, block := b, epi := x.map (BitVec.ofNat 32)
     oscale := BitVec.ofNat 32 (r.getD 1 0), step := r.getD 2 0, seq := r.getD 3 0 }, r')

/-- The words of an instruction of a capture with the bytes that it may read. -/
def CaptureStep.words (c : CaptureStep) : List Nat := c.entry.words ++ putList (fun x => [x.1, x.2.toNat]) c.spad

/-- An instruction of a capture. -/
def getCaptureStep (ws : List Nat) : CaptureStep × List Nat :=
  let (e, ws) := getTileEntry ws
  let (m, ws) := getList getPair ws
  (⟨e, m.map (fun x => (x.1, BitVec.ofNat 8 x.2))⟩, ws)

/-- The words of a capture. -/
def Capture.words (c : Capture) : List Nat :=
  [c.step, c.lcore, c.array, c.ordinal, c.phys, c.report.1.toNat, c.report.2.toNat, b2n c.poison] ++
  putList CaptureStep.words c.steps ++ putBytes c.output

/-- A capture. -/
def getCapture (ws : List Nat) : Capture × List Nat :=
  let (ss, r) := getList getCaptureStep (ws.drop 8)
  let (o, r) := getBytes r
  ({ step := ws.getD 0 0, lcore := ws.getD 1 0, array := ws.getD 2 0, ordinal := ws.getD 3 0, phys := ws.getD 4 0
     report := (BitVec.ofNat 32 (ws.getD 5 0), BitVec.ofNat 32 (ws.getD 6 0)), poison := ws.getD 7 0 == 1, steps := ss
     output := o }, r)

/-! ### CORES -/

/-- Byte `i` of a number. -/
def natByte (x i : Nat) : Byte := BitVec.ofNat 8 (x / 256 ^ i)

/-- Bytes of an accumulator bank: its values, then a word of chain flags and shape. -/
def bankLen : Nat := 4096 * 4 + 8

/-- Bytes of an array: both banks, then the active bank with the proof-column pointer, then the chain ordinal. -/
def arrayLen : Nat := 2 * bankLen + 16

/-- Offsets in a core's part: program memory, ENTRY with the image-valid flag in bit 32, mask of the valid formes, formes,
control-space words, arrays. -/
def coreParts : Nat × Nat × Nat × Nat × Nat × Nat :=
  (0xC00000, 0xC40000, 0xC40008, 0xC40010, 0xC80010, 0xC80010 + 196 * 8)

/-- Bytes of a core's part, a multiple of 64. -/
def coreLen : Nat := up64 (0xC80010 + 196 * 8 + 2 * arrayLen)

/-- The word of a bank's chain flags, shape and proof column. -/
def Bank.word (b : Bank) : Nat := b.m + 256 * b.n + 2 ^ 16 * (b2n b.sat + 2 * b2n b.poison + 4 * b2n b.pmis) + 2 ^ 24 * b.pcol

/-- A byte of a bank. -/
def Bank.byte (b : Bank) (o : Nat) : Byte :=
  if o < 4096 * 4 then natByte (mget b.acc 0 (o / 4)).toNat (o % 4) else natByte b.word (o - 4096 * 4)

/-- A byte of an array. -/
def MArray.byte (a : MArray) (o : Nat) : Byte :=
  if o < bankLen then a.bank0.byte o
  else if o < 2 * bankLen then a.bank1.byte (o - bankLen)
  else if o < 2 * bankLen + 8 then natByte (b2n a.cur + 2 * b2n a.fresh + 256 * a.ptr) (o - 2 * bankLen)
  else natByte a.ordinal (o - 2 * bankLen - 8)

/-- Control-space entries 0x040 to 0x07F, 0x100 to 0x17F, 0x180 to 0x183. -/
def coreWord (k : Core) (i : Nat) : Nat :=
  if i < 64 then (mget k.sem 0 i).toNat
  else if i < 192 then (mget k.epi 0 (i - 64)).toNat
  else ([k.sfNan, k.sfInf, k.sfSat, k.sfDiv0].getD (i - 192) 0).toNat

/-- Mask of the valid formes. -/
def formeMask (u : Units) : Nat := u.formes.foldl (fun a c => a + 2 ^ c.1) 0

/-- A byte of a core's part. -/
def coreByte (k : Core) (u : Units) (o : Nat) : Byte :=
  let (pm, en, ma, fo, cs, ar) := coreParts
  if o < pm then rdByte k.spad o
  else if o < en then natByte (mget k.pm 0 ((o - pm) / 4)).toNat ((o - pm) % 4)
  else if o < ma then natByte (k.entry + 2 ^ 32 * b2n k.imageValid) (o - en)
  else if o < fo then natByte (formeMask u) (o - ma)
  else if o < cs then (mget u.formes [] ((o - fo) / 4096)).getD ((o - fo) % 4096) 0
  else if o < ar then natByte (coreWord k ((o - cs) / 8)) ((o - cs) % 8)
  else if o < ar + arrayLen then u.ma0.byte (o - ar)
  else u.ma1.byte (o - ar - arrayLen)

/-- Whether a byte of a core's part is poisoned: a poisoned scratchpad line, a marked word of program memory. -/
def coreBad (k : Core) (o : Nat) : Bool :=
  let pm := coreParts.1
  if o < pm then k.spadPoison.contains (o / 64) else decide (o < coreParts.2.1) && k.pmBad.contains ((o - pm) / 4)

/-- The bank that bytes from `o` hold. The proof column's accumulators, which the section leaves out, are those of the
column that it recomputes. -/
def bankOf (m : List Host.Cell) (o : Nat) : Bank :=
  let v (i : Nat) : BitVec 32 := BitVec.ofNat 32 (leNat (rdBytes m (o + 4 * i) 4))
  let w := leNat (rdBytes m (o + 4096 * 4) 8)
  let c := natFld w 24 6
  { acc := mofList 0 0 ((List.range 4096).map v), proof := mofList 0 0 ((List.range 64).map (fun i => v (64 * i + c)))
    m := natFld w 0 7, n := natFld w 8 7, sat := w.testBit 16, poison := w.testBit 17, pmis := w.testBit 18, pcol := c }

/-- The array that bytes from `o` hold. -/
def arrayAt (m : List Host.Cell) (o : Nat) : MArray :=
  let w := leNat (rdBytes m (o + 2 * bankLen) 8)
  { bank0 := bankOf m o, bank1 := bankOf m (o + bankLen), cur := w.testBit 0, fresh := w.testBit 1, ptr := natFld w 8 6
    ordinal := leNat (rdBytes m (o + 2 * bankLen + 8) 8) }

/-- Poisoned 64-byte units of `n` bytes from `o`, from 0. -/
def unitsFrom (bad : List Nat) (o n : Nat) : List Nat :=
  (bad.filter (fun g => decide (o / 64 ≤ g) && decide (g < o / 64 + n / 64))).map (· - o / 64)

/-- The core that bytes from `o` hold: what the section gives, the rest as after a reset. -/
def coreOf (m : List Host.Cell) (bad : List Nat) (o : Nat) : Core × Units :=
  let (pm, en, ma, fo, cs, ar) := coreParts
  let e := leNat (rdBytes m (o + en) 8)
  let mask := leNat (rdBytes m (o + ma) 8)
  let w (i : Nat) : Nat := leNat (rdBytes m (o + cs + 8 * i) 8)
  ({ spad := mslice m o pm, spadPoison := unitsFrom bad o pm
     pm := mofList 0 0 ((List.range 65536).map (fun i => BitVec.ofNat 32 (leNat (rdBytes m (o + pm + 4 * i) 4))))
     pmBad := (unitsFrom bad (o + pm) (en - pm)).flatMap (fun g => upto (16 * g) 16)
     entry := e % 2 ^ 32, imageValid := e.testBit 32
     sem := mofList 0 0 ((List.range 64).map (fun i => BitVec.ofNat 32 (w i)))
     epi := mofList 0 0 ((List.range 128).map (fun i => epiWord (i % 8) (w (64 + i))))
     sfNan := BitVec.ofNat 64 (w 192), sfInf := BitVec.ofNat 64 (w 193), sfSat := BitVec.ofNat 64 (w 194)
     sfDiv0 := BitVec.ofNat 64 (w 195) },
   { ma0 := arrayAt m (o + ar), ma1 := arrayAt m (o + ar + arrayLen)
     formes := ((List.range 64).filter mask.testBit).map (fun i => (i, rdBytes m (o + fo + 4096 * i) 4096)) })

/-! ### QUEUES -/

/-- The bytes of the QUEUES section: SQ_HEAD, GEN and TAG of each queue, then the event counters. -/
def queueBytes (b : SnapState) : Bytes :=
  (List.range 64).flatMap (fun q =>
    let (h, g, t) := mget b.queues (0, 0, 0) q
    leBytes 2 h ++ leBytes 1 g ++ zeros 1 ++ leBytes 4 t) ++
  (List.range 64).flatMap (fun i => leBytes 8 (mget b.ec 0 i).toNat)

/-- The QUEUES section of bytes. -/
def queuesOf (b : SnapState) (bs : Bytes) : SnapState :=
  { b with
    queues := (List.range 64).map (fun q => (q, (leAt bs (8 * q) 2, leAt bs (8 * q + 2) 1, leAt bs (8 * q + 4) 4)))
    ec := mofList 0 0 ((List.range 64).map (fun i => BitVec.ofNat 64 (leAt bs (512 + 8 * i) 8))) }

/-! ### UNDO -/

/-- The open step's segment of every stack of a partition, an empty one where the step has none there. -/
def undoSegs (s : State) (p : Nat) (b : SnapState) : List JournalSeg :=
  (partStacks s p).map (fun k => (b.undo.find? (fun g => g.stack == k)).getD { stack := k, state := 1, step := 0, gen := 0, records := [] })

/-- A byte of segments that follow one another from offset `at_` of an area, and its poison (07 R209). -/
def segsByte (p : Nat) : Nat → List JournalSeg → Nat → Byte × Bool
  | _, [], _ => (0, false)
  | at_, g :: r, o =>
    let next := at_ + segBytes g
    if o < 64 then ((g.header next).getD o 0, false)
    else if o < segBytes g then
      let q := o - 64
      match g.records[q / (64 + pageSize)]? with
      | none => (0, false)
      | some x =>
        let t := q % (64 + pageSize)
        if t < 64 then ((x.header p).getD t 0, false) else (rdByte x.page (t - 64), x.poison.contains ((t - 64) / 64))
    else segsByte p next r (o - segBytes g)

/-- A record that bytes from `o` hold. -/
def undoRecordAt (m : List Host.Cell) (bad : List Nat) (o : Nat) : JournalRecord :=
  let h := rdBytes m o 64
  { vpn := leAt h 4 4 % 2 ^ 28, ppn := leAt h 8 4, flags := leAt h 2 1, page := mslice m (o + 64) pageSize
    poison := unitsFrom bad (o + 64) pageSize }

/-- The segments, one for each of a list of stacks, that bytes from `o` hold; one without a record is dropped. -/
def segsOfBytes (m : List Host.Cell) (bad : List Nat) : List Nat → Nat → List JournalSeg
  | [], _ => []
  | k :: r, o =>
    let h := rdBytes m o 64
    let n := leAt h 16 4
    let g : JournalSeg := { stack := k, state := leAt h 3 1, step := leAt h 4 6, gen := leAt h 10 3
                            records := (List.range n).map (fun i => undoRecordAt m bad (o + 64 + i * (64 + pageSize))) }
    (if n = 0 then [] else [g]) ++ segsOfBytes m bad r (o + segBytes g)

/-! ### The sections by code -/

/-- The words of a section that is written as words: STEP, INPUT, SAMPLE. -/
def sectionWords (b : SnapState) (code : Nat) : List Nat :=
  match code with
  | 4 => stepWords b
  | 6 => putList Logged.words b.log
  | _ => putList Capture.words b.captures

/-- LENGTH of a section. -/
def stateLen (s : State) (p : Nat) (b : SnapState) (code : Nat) : Nat :=
  match code with
  | 1 => coreLen * lcores s
  | 2 => 1024
  | 3 => 208 * sctSize s p
  | 5 => (undoSegs s p b).foldl (fun a g => a + segBytes g) 0
  | _ => 8 * (sectionWords b code).length

/-- A byte of a section and its poison. -/
def stateByte (s : State) (p : Nat) (b : SnapState) (code o : Nat) : Byte × Bool :=
  match code with
  | 1 =>
    let c := mget b.cores default (p * lcores s + o / coreLen)
    (coreByte c.1 c.2 (o % coreLen), coreBad c.1 (o % coreLen))
  | 2 => ((queueBytes b).getD o 0, false)
  | 3 => ((scaleBytesAt b.scale 0 0 (208 * sctSize s p)).getD o 0, false)
  | 5 => segsByte p 0 (undoSegs s p b) o
  | _ => (natByte ((sectionWords b code).getD (o / 8) 0) (o % 8), false)

/-- A section read back from `n` bytes at `o`. -/
def readSection (s : State) (p : Nat) (m : List Host.Cell) (bad : List Nat) (b : SnapState) (code o n : Nat) : SnapState :=
  match code with
  | 1 => { b with cores := (List.range (lcores s)).map (fun i => (p * lcores s + i, coreOf m bad (o + i * coreLen))) }
  | 2 => queuesOf b (rdBytes m o 1024)
  | 3 => { b with scale := mofList {} 0 ((List.range (sctSize s p)).map (fun i => ScaleEntry.ofBytes (rdBytes m (o + 208 * i) 208))) }
  | 4 => stepOfWords b (bytesWords (rdBytes m o n))
  | 5 => { b with undo := segsOfBytes m bad (partStacks s p) o }
  | 6 => { b with log := (getList getLogged (bytesWords (rdBytes m o n))).1 }
  | 7 => { b with captures := (getList getCapture (bytesWords (rdBytes m o n))).1 }
  | _ => b

/-- Whether a snapshot's state carries poison (R371): scratchpad lines, marked program memory, undo records. -/
def SnapState.poisoned (b : SnapState) : Bool :=
  b.cores.any (fun c => !c.2.1.spadPoison.isEmpty || !c.2.1.pmBad.isEmpty) ||
  b.undo.any (fun g => g.records.any (fun r => !r.poison.isEmpty))

end Sys2Proof.Machine
end

