-- ==== Sys2Proof/Machine/Snap.lean ====
section
/-! DEFINITION. Snapshot slots, captures, commits and drains (12_snapshots.md R362 to R377, 10_jilan_transport.md R321
to R323). A slot holds its pages and state as data; its bytes are formed where a drain or a register reads them. -/

namespace Sys2Proof.Machine

/-! ### Slots (R364 to R369) -/

/-- A slot updated: 0 A, 1 B. -/
def updSlotN (s : State) (p i : Nat) (f : Slot → Slot) : State :=
  updSnap s p (fun x => if i = 0 then { x with a := f x.a } else { x with b := f x.b })

/-- The target slot (R369). -/
def targetSlot (s : State) (p : Nat) : Nat := match newestSlot s p with
  | some i => 1 - i
  | none => 0

/-- Whether a drain reads a slot (R368). -/
def draining (s : State) (p i : Nat) : Bool := (snap s p).drains.any (fun d => d.slot == i)

/-- Bytes of the target half of stack k's area (R364). -/
def snapHalf (s : State) (p k : Nat) : Nat := regF s (.part p) (0x0300040 + 8 * k) 16 7 / 2 * 2 ^ 30

/-- VPNs that the partition's context maps VALID with PERSISTENT (R362), ascending. -/
def persistentPages (s : State) (p : Nat) : List Nat :=
  (s.ms.tt.filter (fun c => decide (ctxBase s p ≤ c.1) && decide (c.1 < ctxBase s p + ctxSize s p) && tteValid c.2 && ttePersist c.2)).map
    (fun c => c.1 - ctxBase s p)

/-- The home stack of a page (R365). -/
def homeStack (s : State) (p vpn : Nat) : Nat := journalStack s p vpn (ttePpn (tte s p vpn))

/-- The state sections at the capture point (R362); those of the open step are left out where there is none. -/
def captureState (s : State) (p : Nat) (quiesce : Bool) : SnapState :=
  let h := partHp s p
  let x := proof s p
  let mine (n : Nat) : Bool := !quiesce && x.openStep == some n
  { cores := (upto (p * lcores s) (lcores s)).map (fun l => (l, (core s (physOf s l), unitsOf s (physOf s l))))
    queues := (hport s h).queues.map (fun c => (c.1, (c.2.sqHead, c.2.gen, c.2.lastTag)))
    ec := (part s p).ec
    scale := mslice s.ms.scale (sctBase s p) (sctSize s p)
    open_ := x.steps.find? (fun r => mine r.step), lastProven := x.lastProven, w := x.w, sampleK := x.sampleK, kNow := x.kNow
    observe := x.observe, phase := x.phase, mbb := x.mbb
    epoch := (xport s p).epoch, reprint := (xport s p).reprint
    undo := (part s p).journal.filter (fun g => mine g.step), log := x.log.filter (fun e => mine e.step)
    captures := x.captures.filter (fun c => mine c.step) }

/-- Codes of the sections a snapshot holds (R362). -/
def codesOf (quiesce : Bool) : List Nat := if quiesce then [1, 2, 3, 4] else [1, 2, 3, 4, 5, 6, 7]

/-- Bytes of the sections of a snapshot taken now, each from a 64-byte boundary (R365). -/
def sectionRoom (s : State) (p : Nat) (quiesce : Bool) : Nat :=
  let b := captureState s p quiesce
  (codesOf quiesce).foldl (fun a c => up64 a + stateLen s p b c) 0

/-- Whether a snapshot fits (R369). -/
def snapFits (s : State) (p : Nat) (quiesce : Bool) : Bool :=
  let vs := persistentPages s p
  (partStacks s p).all (fun k =>
    let n := (vs.filter (fun v => homeStack s p v == k)).length
    let sect := if k = p * nstacks s then sectionRoom s p quiesce else 0
    let mine := n ≠ 0 ∨ k = p * nstacks s
    !decide mine || decide (2 * 2 ^ 20 + 2 ^ 19 * n + sect ≤ snapHalf s p k))

/-- A page as the directory lists it, not yet copied. -/
def snapPage (s : State) (p vpn : Nat) : SnapPage :=
  let e := tte s p vpn
  { vpn := vpn, ppn := ttePpn e
    flags := 2 * b2n (tteMirror e) + 4 * b2n (tteJournal e) + 8 * b2n (tteRepair e) + 16 * b2n (tteRanged e)
    copied := false, page := [], poison := [] }

/-- A page copied from its captured physical page (R371, R372). -/
def copyPage (m : MemSys) (g : SnapPage) : SnapPage :=
  if g.copied then g
  else
    let z := (m.poison.filter (fun x => decide (x / 8192 = g.ppn))).map (· % 8192)
    { g with copied := true, page := mslice m.mem (g.ppn * pageSize) pageSize, poison := z,
             flags := g.flags + b2n (!z.isEmpty) }

/-- The capture of a snapshot into its target slot (R366, R369, R371, R383): the slot after the SNAPSHOT's completion. -/
def capture (s : State) (p : Nat) (cow quiesce autoDrain : Bool) (dfrac : Nat) : State :=
  let i := targetSlot s p
  let x := snap s p
  let pr := proof s p
  let pages := (persistentPages s p).map (snapPage s p)
  let pages := if cow ∧ !quiesce then pages else pages.map (copyPage s.ms)
  let st : Slot :=
    { state := if quiesce then 3 else 2, seq := max x.a.seq x.b.seq + 1, quiesce := quiesce, cow := cow && !quiesce
      step := if quiesce then pr.lastProven else pr.openStep.getD 0
      epoch := (xport s p).epoch, reprint := (xport s p).reprint, w := pr.w, rank := ownRank s p
      slice := match (xport s p).imp with
        | some m => m.slice
        | none => 0
      devid := devId s p
      mbatch := if quiesce then 0xFFFFFFFF else match pr.mbb with
        | some (_, b) => b
        | none => 0xFFFFFFFF
      autoDrain := autoDrain, dfrac := dfrac, pages := pages, body := some (captureState s p quiesce) }
  let s := updSlotN s p i (fun _ => st)
  updSnap s p (fun x => { x with lastCapture := uptimeNs s, held := none })

/-- Whether anything copied into a slot carries poison (R371). -/
def slotPoisoned (x : Slot) : Bool := x.pages.any (fun g => g.copied && !g.poison.isEmpty) || x.body.any SnapState.poisoned

/-- Why a snapshot is refused (R369). -/
def snapRefused (s : State) (p : Nat) (quiesce : Bool) : Bool :=
  let i := targetSlot s p
  let x := slotOf s p i
  x.state == 1 || x.state == 2 || draining s p i || !snapFits s p quiesce

/-! ### Bytes of a slot (R365 to R367, R377) -/

/-- Codes of the sections a slot holds (R362). -/
def sectionCodes (x : Slot) : List Nat := codesOf x.quiesce

/-- LENGTH of a section. -/
def sectionLen (s : State) (p : Nat) (x : Slot) (code : Nat) : Nat := stateLen s p (x.body.getD {}) code

/-- A byte of a section, with its poison. -/
def sectionByte (s : State) (p : Nat) (x : Slot) (code o : Nat) : Byte × Bool := stateByte s p (x.body.getD {}) code o

/-- CRC of a section over its bytes. -/
def sectionCrc (s : State) (p : Nat) (x : Slot) (code : Nat) : Nat :=
  crc64 ((List.range (sectionLen s p x code)).map (fun o => (sectionByte s p x code o).1))

/-- The pages of a portion. -/
def portionPages (s : State) (p : Nat) (x : Slot) (k : Nat) : List SnapPage :=
  x.pages.filter (fun g => journalStack s p g.vpn g.ppn == k)

/-- Offsets of the sections of an anchor portion with `n` pages: code, offset, length (R365). -/
def sectionOffsets (s : State) (p : Nat) (x : Slot) (n : Nat) : List (Nat × Nat × Nat) :=
  ((sectionCodes x).foldl (fun (a : Nat × List (Nat × Nat × Nat)) c =>
    let o := up64 a.1
    (o + sectionLen s p x c, a.2 ++ [(c, o, sectionLen s p x c)])) (0x200000 + n * 2 ^ 19, [])).2

/-- DATA_END of a portion. -/
def dataEnd (s : State) (p : Nat) (x : Slot) (k : Nat) : Nat :=
  let n := (portionPages s p x k).length
  let e := 0x200000 + n * 2 ^ 19
  if k = p * nstacks s then match (sectionOffsets s p x n).getLast? with
    | some (_, o, l) => o + l
    | none => e
  else e

/-- The 16 bytes of a directory entry. -/
def dirEntry (g : SnapPage) : Bytes :=
  leBytes 4 g.vpn ++ leBytes 1 g.flags ++ zeros 3 ++ leBytes 8 (crc64 (rdBytes g.page 0 pageSize))

/-- The section table of the anchor portion. -/
def sectionTable (s : State) (p : Nat) (x : Slot) (n : Nat) : Bytes :=
  (sectionOffsets s p x n).flatMap (fun e => leBytes 2 e.1 ++ zeros 6 ++ leBytes 8 e.2.1 ++ leBytes 8 e.2.2 ++ leBytes 8 (sectionCrc s p x e.1))

/-- The portions of a slot, ascending: the stacks that hold pages, and the anchor. -/
def portions (s : State) (p : Nat) (x : Slot) : List Nat :=
  (partStacks s p).filter (fun k => k == p * nstacks s || !(portionPages s p x k).isEmpty)

/-- DIGEST (R367). -/
def slotDigest (s : State) (p : Nat) (x : Slot) : Nat :=
  crc64 ((portions s p x).flatMap (fun k =>
    let g := portionPages s p x k
    g.flatMap dirEntry ++ (if k = p * nstacks s then sectionTable s p x g.length else [])))

/-- Start of each portion in the object, and the object's LENGTH (R377). -/
def objectLayout (s : State) (p : Nat) (x : Slot) : List (Nat × Nat) × Nat :=
  (portions s p x).foldl (fun a k =>
    let o := (a.2 + 2 ^ 20 - 1) / 2 ^ 20 * 2 ^ 20
    (a.1 ++ [(k, o)], o + dataEnd s p x k)) ([], 0)

/-- The 64 bytes of the commit record (R366). -/
def commitRecord (s : State) (p i : Nat) (x : Slot) : Bytes :=
  let b := leBytes 2 0x5343 ++ leBytes 1 1 ++ leBytes 1 (i + 2 * b2n x.quiesce + 4 * b2n x.cow) ++ leBytes 6 x.step ++
    leBytes 2 x.epoch ++ leBytes 1 x.reprint ++ leBytes 1 x.w ++ leBytes 2 x.rank ++ leBytes 4 x.slice ++ leBytes 3 x.devid ++
    leBytes 1 (s.pmode + 4 * p) ++ leBytes 4 x.mbatch ++ leBytes 4 x.pages.length ++ leBytes 8 x.seq ++
    leBytes 8 (objectLayout s p x).2 ++ leBytes 8 (slotDigest s p x)
  b ++ leBytes 8 (crc64 b)

/-- The 64 bytes of a portion header (R365). -/
def portionHeader (s : State) (p i : Nat) (x : Slot) (k : Nat) : Bytes :=
  let anchor := decide (k = p * nstacks s)
  let b := leBytes 2 0x5350 ++ leBytes 1 1 ++ leBytes 1 i ++ leBytes 1 k ++ zeros 3 ++ leBytes 4 (portionPages s p x k).length ++
    leBytes 4 (if anchor then (sectionCodes x).length else 0) ++ leBytes 8 x.seq ++ leBytes 8 (dataEnd s p x k) ++ zeros 24
  b ++ leBytes 8 (crc64 b)

/-- A byte of a portion by its offset, with its poison. -/
def portionByte (s : State) (p i : Nat) (x : Slot) (k o : Nat) : Byte × Bool :=
  let g := portionPages s p x k
  let anchor := decide (k = p * nstacks s)
  if o < 0x40 then ((portionHeader s p i x k).getD o 0, false)
  else if o < 0x80 then (if anchor then (commitRecord s p i x).getD (o - 0x40) 0 else 0, false)
  else if 0x800 ≤ o ∧ o < 0xC00 then (if anchor then (sectionTable s p x g.length).getD (o - 0x800) 0 else 0, false)
  else if 0x1000 ≤ o ∧ o < 0x1000 + 16 * g.length then
    match g[(o - 0x1000) / 16]? with
    | some e => ((dirEntry e).getD ((o - 0x1000) % 16) 0, false)
    | none => (0, false)
  else if 0x200000 ≤ o ∧ o < 0x200000 + g.length * 2 ^ 19 then
    match g[(o - 0x200000) / 2 ^ 19]? with
    | some e => (rdByte e.page ((o - 0x200000) % 2 ^ 19), e.poison.contains ((o - 0x200000) % 2 ^ 19 / 64))
    | none => (0, false)
  else if anchor then
    match (sectionOffsets s p x g.length).find? (fun e => decide (e.2.1 ≤ o) && decide (o < e.2.1 + e.2.2)) with
    | some e => sectionByte s p x e.1 (o - e.2.1)
    | none => (0, false)
  else (0, false)

/-- A byte of a slot's object, with its poison. -/
def objectByte (s : State) (p i : Nat) (x : Slot) (o : Nat) : Byte × Bool :=
  match ((objectLayout s p x).1.filter (fun e => decide (e.2 ≤ o))).getLast? with
  | some (k, b) => if o - b < dataEnd s p x k then portionByte s p i x k (o - b) else (0, false)
  | none => (0, false)

/-- Bytes of a slot's object. -/
def objectBlob (s : State) (p i : Nat) (x : Slot) (o n : Nat) : Blob :=
  let bs := (upto o n).map (objectByte s p i x)
  ⟨bs.map (·.1), ((List.range n).filter (fun j => (bs.getD j (0, false)).2)).map (fun j => (j, 1))⟩

/-! ### Drains (10 R321 to R323) -/

/-- STORAGE ports of a partition (R291). -/
def storagePorts (s : State) (p : Nat) : List Nat := (partPorts s p).filter (fun j => decide (28 ≤ j) && jpRole s j == 1)

/-- The manifest of a drain (R321). -/
def manifest (s : State) (p : Nat) (d : Drain) : Bytes :=
  let x := slotOf s p d.slot
  let len := (objectLayout s p x).2
  let b := leBytes 8 d.object ++ leBytes 4 x.slice ++ leBytes 2 x.epoch ++ leBytes 1 x.reprint ++ leBytes 1 d.slot ++
    leBytes 6 x.step ++ zeros 2 ++ leBytes 3 x.devid ++ zeros 1 ++ leBytes 2 x.rank ++ zeros 2 ++ leBytes 8 len ++
    leBytes 4 ((len + 2 ^ 20 - 1) / 2 ^ 20) ++ zeros 4 ++ leBytes 8 (slotDigest s p x)
  b ++ leBytes 8 (crc64 b)

/-- DRN_DFRAC or a descriptor's DFRAC (R322): 0 selects the default, and a default of 0 is 1. -/
def drainShare (s : State) (p dfrac : Nat) : Nat :=
  if dfrac ≠ 0 then dfrac else max 1 (regF s (.part p) 0x020403C 0 8)

/-- The next MSG of a partition, and the state that has used it. -/
def nextMsg (s : State) (p : Nat) : Nat × State :=
  ((xport s p).nextMsg % 2 ^ 32, updXport s p (fun x => { x with nextMsg := x.nextMsg + 1 }))

/-- A drain with a MSG starts: DR_OPEN on every selected port (R321). -/
def startDrain (s : State) (p msg slot object : Nat) (ports : List Nat) (dfrac : Nat) (byDesc : Bool) : State :=
  let len := (objectLayout s p (slotOf s p slot)).2
  let d : Drain := { msg := msg, slot := slot, object := object, ports := ports, ready := [], chunks := (len + 2 ^ 20 - 1) / 2 ^ 20, next := 0,
                     flying := [], manifest := false, share := drainShare s p dfrac, byDesc := byDesc }
  let s := updSnap s p (fun x => { x with drains := x.drains ++ [d] })
  ports.foldl (fun s j => sendReserved s p j 0x40 0 0 msg (.clean ((manifest s p d).take 48))) s

/-- DRAIN_FAIL: the sticky bit, and the asynchronous cause of a drain that fails (R377, 17 R496). -/
def drainFailed (s : State) (p st : Nat) : State :=
  asyncCause (stickyPart (updSnap s p (fun x => { x with drainStatus := st })) p 7) (partHp s p) 5

/-- The automatic drain of a slot just committed (R377, 19 R532). -/
def autoDrain (s : State) (p i : Nat) : State :=
  let x := slotOf s p i
  if x.autoDrain then
    match storagePorts s p with
    | [] => drainFailed s p 0x22
    | js =>
      let base := regW s (.part p) 0x0300018 + 2 ^ 32 * regW s (.part p) 0x030001C
      let (m, s) := nextMsg s p
      startDrain s p m i ((base + x.seq) % 2 ^ 64) js x.dfrac false
  else s

/-- A PROVISIONAL slot commits once its copy is complete and its step is PROVEN (R373). -/
def tryCommitSlot (s : State) (p i : Nat) : State :=
  let x := slotOf s p i
  if x.state == 2 && x.pages.all (·.copied) && stepProven s p x.step then
    autoDrain (updSlotN s p i (fun x => { x with state := 3 })) p i
  else s

/-- Both slots. -/
def tryCommit (s : State) (p : Nat) : State := tryCommitSlot (tryCommitSlot s p 0) p 1

/-- The provisional snapshots of failed steps are discarded (R374). -/
def discardSnaps (s : State) (p proven : Nat) : State :=
  let drop (x : Slot) : Slot := if (x.state = 1 ∨ x.state = 2) ∧ proven < x.step then {} else x
  updSnap s p (fun x => { x with a := drop x.a, b := drop x.b })

end Sys2Proof.Machine
end

