-- ==== Sys2Proof/Machine/Vote.lean ====
section
/-! DEFINITION. Proof of a step: PROVEN and its effects, page digests, the mirror's outgoing portions and the proof
vote (11_proof_and_reprint.md R334, R338 to R346; 07_stack_engines.md R205, R206). -/

namespace Sys2Proof.Machine

/-! ### PROVEN (R346) -/

/-- The effects of a step becoming PROVEN (R346), but for its retirement, which STEP_RETIRE carries out. -/
def proveStep (s : State) (p n : Nat) : State :=
  let s := updProof s p (fun x => { x with lastProven := max x.lastProven n, lastComputed := max x.lastComputed n })
  let s := setStep s p n 3 id
  let s := proveShadow (proveScales s p n) p n
  tryCommit s p

/-- A step's retirement (R328): its journal segments, input-journal and replay-log entries and captures are freed. -/
def retireStep (s : State) (p n : Nat) : State :=
  match stepRec s p n with
  | some r =>
    if r.state = 3 then
      let s := updPart s p (fun x => { x with journal := x.journal.filter (fun g => g.step != n) })
      updProof s p (fun x => { x with
        steps := x.steps.filter (fun r => r.step != n), log := x.log.filter (fun e => e.step != n),
        captures := x.captures.filter (fun c => c.step != n), lastRetired := max x.lastRetired n,
        ups := x.ups.filter (fun u => u.1 != n), upSent := x.upSent.filter (· != n) })
    else s
  | none => s

/-! ### Page digests (07 R205, R206) -/

/-- The bytes of a physical page. -/
def pageBytes (s : State) (ppn : Nat) : Bytes := rdBytes s.ms.mem (ppn * pageSize) pageSize

/-- The digest over pages given as (ordinal, physical page), and whether a granule of them is poisoned. -/
def digestOver (s : State) (ps : List (Nat × Nat)) : BitVec 64 × Bool :=
  (BitVec.ofNat 64 (ps.foldl (fun a x => a ^^^ rotl64 (crc64 (pageBytes s x.2)) x.1) 0),
   ps.any (fun x => s.ms.poison.any (fun g => g / 8192 == x.2)))

/-- Own MIRRORED pages by ordinal, with their physical pages. -/
def ownPages (s : State) (p : Nat) (os : List Nat) : List (Nat × Nat) :=
  os.filterMap (fun i => ((mirror s p).ordinals[i]?).map (fun v => (i, ttePpn (tte s p v))))

/-- Mirror-window pages by ordinal, with their physical pages (07 R213). -/
def windowPages (s : State) (p : Nat) (os : List Nat) : List (Nat × Nat) :=
  os.map (fun i => (i, ttePpn (tte s p ((mirWindow s p).1 + i))))

/-- The digest of step n with a sub-code, if held: own or received. -/
def digestHeld (s : State) (p n sub : Nat) (own : Bool) : Option DigestVal :=
  (mirror s p).digests.find? (fun d => d.step == n && d.sub == sub && d.own == own)

/-- Own sub-code against the received one (R341): each member compares its SUB 0 with the SUB 1 received and its SUB 1
with the SUB 0 received. -/
def checkDigests (s : State) (p n ownSub : Nat) : State :=
  match digestHeld s p n ownSub true, digestHeld s p n (1 - ownSub) false with
  | some a, some b =>
    let s := if a.value ≠ b.value ∨ a.pages ≠ b.pages then raise s p 0x03 (some n) (ucXport p) else s
    if b.poison then raise s p 0x05 (some n) (ucXport p) else s
  | _, _ => s

/-- Whether both digest comparisons of a step have matched (R334). -/
def digestsMatch (s : State) (p n : Nat) : Bool :=
  !hasFacing s p ||
  ([0, 1].all (fun sub => match digestHeld s p n sub true, digestHeld s p n (1 - sub) false with
    | some a, some b => a.value == b.value && a.pages == b.pages && !a.poison && !b.poison
    | _, _ => false))

/-- An own digest formed, sent and compared (R341): SUB 0 over the own pages, SUB 1 over the mirror pages. -/
def formDigest (s : State) (p n sub : Nat) (os : List Nat) : State :=
  if (digestHeld s p n sub true).isSome then s
  else
    let ps := if sub = 0 then ownPages s p os else windowPages s p os
    let (v, bad) := digestOver s ps
    let s := if bad then ps.foldl (fun s x => (s.ms.poison.filter (fun g => decide (g / 8192 = x.2))).foldl
        (fun s g => consume s p (g * 64) (some n) (ucEngine (channelOf s (g * 64) / 32)) 0) s) s else s
    let s := updMirror s p (fun x => { x with digests := x.digests ++ [⟨n, sub, true, v, os.length, bad⟩] })
    let s := sendRank s p (facingRank s p) 0x24 1 sub 0 n 0
      (.clean (leBytes 8 v.toNat ++ leBytes 4 os.length ++ leBytes 1 (b2n bad)))
    checkDigests s p n sub

/-- The facing digest of a step once every portion that SEAL counts is applied (R341). -/
def tryFacingDigest (s : State) (p n : Nat) : State :=
  let m := mirror s p
  if m.sealedAt.any (fun c => c.1 == n && c.2 == mget m.applied 0 n) then formDigest s p n 1 (mget m.facingSet [] n) else s

/-! ### Mirror portions to send (R339, R340) -/

/-- The first portion waiting is sent, once the one before it is DONE (R340). -/
def pumpMirror (s : State) (p : Nat) : State :=
  match (mirror s p).out with
  | [] => s
  | o :: _ =>
    if (mirror s p).outSent then s
    else
      let d := facingRank s p
      let s := updMirror s p (fun x => { x with outSent := true })
      let s := updStep s p o.step (fun r => { r with portions := r.portions + 1 })
      let open_ := sub o.block 0 160 ++ leBytes 4 o.clip.toNat ++ leBytes 4 o.q.toNat ++ leBytes 4 o.optim ++ zeros 4 ++
        leBytes 5 o.first ++ zeros 3 ++ leBytes 5 o.count
      let s := sendRank s p d 0x30 7 0 0 o.step o.optim (.clean open_)
      sendBytes s p d 0x30 7 1 0 0 o.optim (.clean (rdBytes o.got 0 (4 * o.count)))

/-- The SCALE records of a step: every entry with a COMMITTED slot for it (R340). -/
def scaleRecords (s : State) (p n : Nat) : Bytes :=
  (s.ms.scale.filter (fun c => inScaleRange s p c.1)).flatMap (fun c => match slotFor c.2 n with
    | some x =>
      if x.state = 2 then
        leBytes 2 (c.1 - sctBase s p) ++ leBytes 1 (b2n x.maxNan) ++ zeros 1 ++ leBytes 4 x.max.toNat ++ leBytes 4 x.newScale.toNat
      else []
    | none => [])

/-- SCALE records, 341 to a packet, and SEAL for a COMPUTED step whose portions have all been answered (R340). -/
def sealStep (s : State) (p n : Nat) : State :=
  match stepRec s p n with
  | some r =>
    if r.state == 2 && !r.sealed && (mirror s p).out.all (fun o => o.step != n) then
      let d := facingRank s p
      let b := scaleRecords s p n
      let s := updStep s p n (fun r => { r with sealed := true })
      let s := (List.range ((b.length + 4091) / 4092)).foldl (fun s i =>
        sendRank s p d 0x30 7 4 0 n 0 (.clean ((b.drop (4092 * i)).take 4092))) s
      sendRank s p d 0x30 7 3 0 n 0 (.clean (leBytes 4 r.portions))
    else s
  | none => s

/-- The mirror traffic that can go out now, while the partition runs or replays: the SEAL of a step goes out before a
portion of a later one, so that its digest covers no later write (R340, R341). -/
def settleMirror (s : State) (p : Nat) : State :=
  let x := proof s p
  if (x.slice == 1 || x.slice == 7) && hasFacing s p then
    pumpMirror (x.steps.foldl (fun s r => sealStep s p r.step) s) p
  else s

/-! ### The vote (R334, R344) -/

/-- The local verdict of a step is positive (R334). -/
def verdict (s : State) (p n : Nat) : Bool :=
  let x := proof s p
  (match stepRec s p n with
    | some r => r.state == 2
    | none => false) &&
  n == x.lastProven + 1 && x.captures.all (fun c => c.step != n) && digestsMatch s p n && !x.negative

/-- Children of a rank in the vote tree (R344). -/
def childrenOf (s : State) (p : Nat) : List Nat :=
  (upto (16 * ownRank s p + 1) 16).filter (fun r => decide (r < nranks s p))

/-- The parent of the own rank. -/
def parentRank (s : State) (p : Nat) : Nat := (ownRank s p - 1) / 16

/-- PROVEN forwarded to the children (R344, R345). -/
def forwardProven (s : State) (p n : Nat) : State :=
  (childrenOf s p).foldl (fun s d => sendRank s p d 0x22 1 1 0 n 0 (.clean [])) s

/-- The vote moves as far as one step allows: UP to the parent, or PROVEN decided by rank 0. -/
def voteOnce (s : State) (p : Nat) : State :=
  let n := (proof s p).lastProven + 1
  if (xport s p).imp.isSome && (proof s p).slice != 0 && (proof s p).slice != 9 && verdict s p n &&
      (childrenOf s p).all (fun d => (proof s p).ups.contains (n, d)) then
    if ownRank s p = 0 then forwardProven (proveStep s p n) p n
    else if (proof s p).upSent.contains n then s
    else sendRank (updProof s p (fun x => { x with upSent := x.upSent ++ [n] })) p (parentRank s p) 0x22 1 0 0 n 0 (.clean [])
  else s

/-- The vote for every step that can move. -/
def settleVotes (p : Nat) : Nat → State → State
  | 0, s => s
  | k + 1, s => settleVotes p k (voteOnce s p)

end Sys2Proof.Machine
end

