-- ==== Sys2Proof/Machine/Decide.lean ====
section
/-! DEFINITION. Negative events, stop-press, the decision and strikes (11_proof_and_reprint.md R332, R333, R347 to R354,
08_host_queues.md R255, 19_mode_combinations.md R533). -/

namespace Sys2Proof.Machine

/-! ### Management frames sent (15 R443, R446) -/

/-- The 32-byte header of a frame of the device (15 R443); a frame about the whole device has PART 0xFF. -/
def frameHeader (s : State) (m ftype part blen : Nat) : Bytes :=
  let one (n : Nat) : Nat := if part < 4 then n else 0
  leBytes 1 1 ++ leBytes 1 ftype ++ leBytes 2 blen ++ leBytes 4 (mget s.mgmt.txSeq 0 m) ++ leBytes 8 s.fuses.serial ++ leBytes 1 part ++
  leBytes 3 (one (devId s part)) ++ leBytes 2 (one (xport s part).epoch) ++ leBytes 1 m ++ zeros 1 ++ leBytes 8 (uptimeNs s)

/-- A frame of a port counted in the SEQ of its frames. -/
def countFrame (s : State) (m : Nat) : State := updMgmt s (fun x => { x with txSeq := mset x.txSeq 0 m (mget x.txSeq 0 m + 1) })

/-- A frame sent on a management port whose link is up, while a Speush controller runs. -/
def sendFrame (s : State) (m ftype part : Nat) (body : Bytes) : State :=
  if mget s.mgmt.mup 0 m = 1 ∧ speushUp s then
    emit (countFrame s m) (.frame m (frameHeader s m ftype part body.length ++ body))
  else s

/-- A STOPPRESS packet of a generation sent: on every ACTIVE fabric plane (10 R309, R348), and mirrored once onto M0 and
M1 (15 R446). -/
def sendStopPress (s : State) (p gen subc dst : Nat) (data : Bytes) : State :=
  let k := { fabricPacket s p dst 0 subc 0 0 0 (.clean data) with gen := gen }
  let s := (bitsSet (activeNow s p) 28).foldl (fun s j => sendPort s p j 0x20 k) s
  let f := packetHeader 0x20 k ++ data
  sendFrame (sendFrame s 0 3 p f) 1 3 p f

/-! ### The STOPPRESS data (R347) -/

/-- A strike entry's four bytes. -/
def StrikeEntry.bytes (e : StrikeEntry) : Bytes :=
  leBytes 2 e.rank ++ leBytes 1 (b2n e.health + 2 * b2n e.observe + 4 * b2n e.suspect) ++ leBytes 1 e.reason

/-- The data bytes of a STOPPRESS packet. -/
def StopMsg.bytes (m : StopMsg) : Bytes :=
  let ss := m.strikes.take 1018
  leBytes 6 m.step ++ leBytes 1 m.reason ++ leBytes 1 (b2n m.applied + 2 * b2n m.fallback + 4 * b2n m.hold) ++
  leBytes 6 m.provenTo ++ leBytes 2 ss.length ++ leBytes 3 m.origin ++ leBytes 1 m.round ++ leBytes 2 m.orank ++ zeros 2 ++
  ss.flatMap StrikeEntry.bytes

/-- The message of STOPPRESS data bytes. -/
def StopMsg.ofBytes (bs : Bytes) : StopMsg :=
  let f := leAt bs 7 1
  { step := leAt bs 0 6, reason := leAt bs 6 1, applied := f.testBit 0, fallback := f.testBit 1, hold := f.testBit 2
    provenTo := leAt bs 8 6, origin := leAt bs 16 3 % 2 ^ 20, round := leAt bs 19 1, orank := leAt bs 20 2
    strikes := (List.range (min (leAt bs 14 2) 1018)).map (fun i =>
      let o := 24 + 4 * i
      let g := leAt bs (o + 2) 1
      ⟨leAt bs o 2, g.testBit 0, g.testBit 1, g.testBit 2, leAt bs (o + 3) 1⟩) }

/-- Two strike lists joined, ascending by rank, each entry once. -/
def joinStrikes (a b : List StrikeEntry) : List StrikeEntry :=
  sortBy (·.rank) (a ++ b.filter (fun e => !a.contains e))

/-- The lower of two STOPs by STEP and then ORANK (R351). -/
def lowerStop (a b : StopMsg) : StopMsg :=
  if b.step < a.step ∨ (b.step = a.step ∧ b.orank < a.orank) then b else a

/-! ### Stopping the work of a partition (08 R255, 11 R350) -/

/-- Whether a STOP halts a started descriptor: it belongs to a step, waits to open one, or is a RESTORE (12 R380). -/
def halts (f : Flight) : Bool :=
  f.step.isSome || match f.waits with
    | .stepBegin _ _ => true
    | .restore => true
    | _ => false

/-- Programs and waiting LAUNCHes of a partition's steps stopped: exit records with OUTCOME STOPPED (05 R150, R151); those
of a LAUNCH that belongs to no step run on (R255; log 19). A named core whose program has not started starts none; it
writes its record with PC at the image's ENTRY (log 19). -/
def stopLaunches (s : State) (p : Nat) : State :=
  let s := (upto (p * lcores s) (lcores s)).foldl (fun s l =>
    if (core s (physOf s l)).inStep then stopProgram s (physOf s l) else s) s
  (s.launches.filter (fun l => l.part == p && l.step.isSome)).foldl (fun s l =>
    let s := l.waiting.foldl (fun s n =>
      let va := l.exitva + 16 * n
      let bs := exitBytes 0 3 0 0xFF 0 (core s (physOf s n)).entry
      let s := if scopeOk s p .host true va 16 then vwrite s p va (.clean bs) else s
      updLaunch s l.id (fun l => { l with stopped := l.stopped + 1 })) s
    launchDone (updLaunch s l.id (fun l => { l with waiting := [] })) l.id) s

/-- Every queue of a host port set to STOPPED with a STOPWHY (R255, R259); a FROZEN queue stays FROZEN until its freeze is
lifted (R229; log 20). -/
def stopQueues (s : State) (h why : Nat) : State :=
  let stop (q : Queue) : Queue := if q.state = 3 then q else { q with state := 2, stopwhy := why }
  updHp s h (fun x => { x with queues := (List.range 64).foldl (fun m i => mset m {} i (stop (mget m {} i))) x.queues })

/-- Every unit of the partition at its safe point (R255, R350). Work is whole or not done in this model, so nothing
abandoned leaves values (log 21). -/
def stopWork (s : State) (p : Nat) : State :=
  let h := partHp s p
  let s := stopLaunches (stopQueues s h 1) p
  let s := ((hport s h).flights.filter halts).foldl (fun s f => finishFlight s h f .stoppedPress 0) s
  let s := updXport s p (fun x => { x with
    colls := x.colls.filter (fun c => c.step.isNone)
    rmas := x.rmas.filter (fun r => !r.origin || (hport s h).flights.any (fun f => f.waits == .rma r.msg)) })
  let s := updMirror s p (fun x => { x with out := [], outSent := false, inp := none, early := 0 })
  updSnap s p (fun x => { x with held := none, restoring := none })

/-! ### Rounds (R348, R351, R354) -/

/-- Health strikes applied in the last 3,600 s (R354). -/
def strikesHour (s : State) (p : Nat) : Nat :=
  let now := uptimeNs s
  ((proof s p).strikeTimes.filter (fun t => decide (now < t + 3600000000000))).length

/-- Steps that end FAILED, with their records; a WAIT with COND 1 on one of them completes (R247, 08 R248). -/
def failThese (s : State) (p : Nat) (ns : List Nat) (reason : Nat) (fallback : Bool) : State :=
  let s := ns.foldl (fun s n => setStep s p n 5 (fun r => { r with reason := reason, fallback := fallback })) s
  let s := if fallback && !ns.isEmpty then stickyPart s p 1 else s
  let h := partHp s p
  let proven := (proof s p).lastProven
  let s := updProof s p (fun x => { x with openStep := x.openStep.filter (fun n => !ns.contains n), ending := false })
  ((hport s h).flights.filter (fun f => match f.waits with
    | .cond 1 _ v => ns.any (fun n => decide (n ≤ v) && decide (proven < n))
    | _ => false)).foldl (fun s f => finishFlight s h f .rolledBack 0) s

/-- The steps above a step that are OPEN or COMPUTED. -/
def liveAbove (s : State) (p k : Nat) : List Nat :=
  ((proof s p).steps.filter (fun r => decide (k < r.step) && (r.state == 1 || r.state == 2))).map (·.step)

/-- STRUCK (R353): the steps fail with the REASON of the packet that strikes, their scale slots are freed (07 R204), and
the partition is fenced. -/
def strikeSelf (s : State) (p why reason : Nat) : State :=
  if (proof s p).slice = 9 then s
  else
    let s := failThese s p (liveAbove s p (proof s p).lastProven) why false
    let s := failScales s p (proof s p).lastProven
    let s := updProof s p (fun x => { x with slice := 9 })
    let s := stickyPart s p 2
    let s := record s p (ucXport p) 0 0x0033 (leBytes 2 (ownRank s p) ++ leBytes 1 reason)
    (partPorts s p).foldl (fun s j => updLink s j (fun l => { l with txq := [] })) s

/-- The REPORT of a member for its round (R351), in which a member under OBSERVE repeats its request (R354); once a DECISION is applied it carries that decision (APPLIED). -/
def reportOf (s : State) (p : Nat) (r : Round) : StopMsg :=
  match (proof s p).appliedDecision with
  | some d => { d with applied := true, round := r.no }
  | none =>
    let mine : List StrikeEntry := if (proof s p).observe then [ownStrike s p true 0x22] else []
    { r.chosen with
      applied := false, fallback := (proof s p).fallback, hold := (proof s p).hold, provenTo := (proof s p).lastProven
      round := r.no, strikes := joinStrikes r.strikes mine }

/-- Ranks that a root waits for: those not on its strike list (R351). -/
def awaited (s : State) (p : Nat) (r : Round) : List Nat :=
  (List.range (nranks s p)).filter (fun d => r.strikes.all (fun e => e.rank != d))

/-- HEALTH entries beyond the budget become OBSERVE, in ascending rank (R354). -/
def budgetStrikes (room : Nat) : List StrikeEntry → List StrikeEntry
  | [] => []
  | e :: r =>
    if e.health && !e.observe then
      match room with
      | 0 => { e with observe := true } :: budgetStrikes 0 r
      | k + 1 => e :: budgetStrikes k r
    else e :: budgetStrikes room r

/-- The DECISION of a root (R351). -/
def decide_ (s : State) (p : Nat) (r : Round) : StopMsg :=
  match r.reports.find? (fun x => x.2.applied) with
  | some (_, d) => { d with applied := false }
  | none =>
    let ms := r.reports.map (·.2)
    let chosen := ms.foldl lowerStop r.chosen
    let reported (d : Nat) : Bool := r.reports.any (fun x => x.1 == d)
    let named := (ms.foldl (fun a m => joinStrikes a m.strikes) []).filter (fun e => !(e.suspect && reported e.rank))
    let silent := ((List.range (nranks s p)).filter (fun d => !reported d)).map (fun d => (⟨d, false, false, false, 0x23⟩ : StrikeEntry))
    let budget := match (xport s p).imp with
      | some m => m.budget
      | none => 0
    let strikes := budgetStrikes (budget - strikesHour s p) (joinStrikes named silent)
    let struck := (strikes.filter (fun e => !e.observe)).map (·.rank)
    let orphan := struck.any (fun d => match rankEntry s p d with
      | some e => e.facing == d || struck.contains e.facing
      | none => true)
    { chosen with
      applied := false, fallback := ms.any (·.fallback) || orphan, hold := !struck.isEmpty || ms.any (·.hold)
      provenTo := ms.foldl (fun a m => max a m.provenTo) 0, round := r.no, strikes := strikes }

/-- LAST_COMPUTED and the records of the steps that a DECISION fails (R352, step 2). A step that an earlier DECISION of the
restart failed has its record written again where FALLBACK has come since (R357). -/
def failSteps (s : State) (p : Nat) (d : StopMsg) : State :=
  let again := ((proof s p).steps.filter (fun r => d.fallback && decide (d.provenTo < r.step) && r.state == 5 && !r.fallback)).map (·.step)
  let s := failThese s p (sortBy id (liveAbove s p d.provenTo ++ again)) d.reason d.fallback
  updProof s p (fun x => { x with lastComputed := min x.lastComputed d.provenTo })

/-- What applying a DECISION leaves at the member's own rank (R353, R354). -/
def applyStrikes (s : State) (p : Nat) (d : StopMsg) : State :=
  let now := uptimeNs s
  let n := (d.strikes.filter (fun e => e.health && !e.observe)).length
  let s := updProof s p (fun x => { x with strikeTimes := x.strikeTimes ++ List.replicate n now })
  let own := d.strikes.filter (fun e => e.rank == ownRank s p)
  match own.find? (fun e => !e.observe) with
  | some e => strikeSelf s p d.reason e.reason
  | none => if own.isEmpty then s else updProof s p (fun x => { x with observe := true })

/-- A DECISION applied (R352, R355). -/
def applyDecision (s : State) (p : Nat) (d : StopMsg) : State :=
  let x := proof s p
  if x.appliedDecision.isSome ∨ (x.slice ≠ 2 ∧ x.slice ≠ 3) then s
  else
    let s := record s p (ucXport p) 0 0x0032 (leBytes 8 d.provenTo ++ leBytes 1 d.round ++ leBytes 2 d.strikes.length ++
      leBytes 1 (2 * b2n d.fallback + 4 * b2n d.hold))
    let again := d.reason == 0x1A && x.unreachable
    let s := updProof s p (fun x => { x with
      restarts := min (x.restarts + 1) (2 ^ 64 - 1), lastRound := d.round, appliedDecision := some d, unreachable := d.reason == 0x1A })
    let ready := sortBy id ((x.steps.filter (fun r => r.state == 2 && decide (r.step ≤ d.provenTo))).map (·.step))
    let s := ready.foldl (fun s n => proveStep s p n) s
    let s := failSteps s p d
    let full := decide (255 ≤ (xport s p).reprint)
    let s := updXport s p (fun y => { y with
      reprint := if full then y.reprint else y.reprint + 1, collCount := [], readyCount := [], early := [], colls := []
      rmas := [], dropsSeen := if full then y.dropsSeen else [], peers := [] })
    let s := updProof s p (fun x => { x with slice := 4, toHold := d.hold || again || full || (part s p).pstate == 2, fallback := false, hold := false })
    applyStrikes s p d

/-- The root broadcasts its DECISION and applies it (R351). -/
def sendDecision (s : State) (p : Nat) (r : Round) : State :=
  let d := decide_ s p r
  let s := updProof s p (fun x => { x with round := some { r with decided := true } })
  applyDecision (sendStopPress s p r.gen 2 0xFFFFF d.bytes) p d

/-- Whether the partition is the root of a round and has yet to send its DECISION (R351). -/
def decides (s : State) (p : Nat) (r : Round) : Bool :=
  r.root == ownRank s p && !r.decided && ((proof s p).slice == 3 || (proof s p).appliedDecision.isSome)

/-- A root decides once every awaited rank has reported (R351). -/
def tryDecide (s : State) (p : Nat) : State :=
  match (proof s p).round with
  | some r =>
    if decides s p r ∧ (awaited s p r).all (fun d => r.reports.any (fun x => x.1 == d)) then sendDecision s p r
    else s
  | none => s

/-- The REPORT goes to the root of the round, or is held where the root is the own rank. -/
def sendReport (s : State) (p : Nat) : State :=
  match (proof s p).round with
  | some r =>
    let m := reportOf s p r
    if r.root = ownRank s p then
      tryDecide (updProof s p (fun x => { x with round := some { r with reports := r.reports.filter (fun y => y.1 != r.root) ++ [(r.root, m)] } })) p
    else match rankEntry s p r.root with
      | some e => sendStopPress s p r.gen 1 e.devid m.bytes
      | none => s
  | none => s

/-- Whether a round collects: STOPPING or DECIDING. -/
def inRound (s : State) (p : Nat) : Bool := (proof s p).slice == 2 || (proof s p).slice == 3

/-- Whether a FALLBACK is pending (R357): a condition of the member itself, or that of the DECISION whose restart has not
led to the RESTORE yet. -/
def Proof.fallbackPending (x : Proof) : Bool :=
  x.fallback || x.slice == 8 || ((x.slice == 4 || x.slice == 5 || x.slice == 6) && x.appliedDecision.any (·.fallback))

/-- What the copies of one STOP have in common (R348), and a packet that carries it (R348): STEP, REASON, ORIGIN, ORANK and
the strike entries. -/
def StopMsg.stop (m : StopMsg) : StopMsg := { m with applied := false, fallback := false, hold := false, provenTo := 0, round := 0 }

/-- A STOP merged into the round in hand, unless it is a copy of one already seen (R348, R356). -/
def mergeStop (s : State) (p : Nat) (m : StopMsg) (r : Round) : State :=
  let s := updProof s p (fun x => { x with
    stopsAccepted := min (x.stopsAccepted + 1) (2 ^ 64 - 1)
    round := some { r with chosen := lowerStop r.chosen m, strikes := joinStrikes r.strikes m.strikes, seen := r.seen ++ [m.stop] } })
  asyncCause s (partHp s p) 0

/-- A STOP that starts a round and takes the partition to its safe points (R350, R355). -/
def startRound (s : State) (p : Nat) (m : StopMsg) : State :=
  let r : Round := { gen := genOf s p, no := 0, root := 0, chosen := m, strikes := joinStrikes [] m.strikes, seen := [m.stop], reports := [] }
  let s := updProof s p (fun x => { x with
    stopsAccepted := min (x.stopsAccepted + 1) (2 ^ 64 - 1), slice := 2, round := some r, appliedDecision := none
    fallback := x.fallbackPending })
  let s := stopWork (asyncCause s (partHp s p) 0) p
  updProof s p (fun x => { x with slice := 3 })

/-- A STOP accepted (R348, R350, R355, R356): it merges into the current round, or starts a round, takes the partition
to its safe points and sends the REPORT; a copy of a STOP already seen changes nothing. -/
def acceptStop (s : State) (p : Nat) (m : StopMsg) : State :=
  let act (s : State) : State :=
    match m.strikes.find? (fun e => e.rank == ownRank s p && !e.observe && !e.health) with
    | some e => strikeSelf s p m.reason e.reason
    | none => if (proof s p).slice = 3 then sendReport s p else s
  match inRound s p, (proof s p).round with
  | true, some r => if r.seen.contains m.stop then s else act (mergeStop s p m r)
  | _, _ => act (startRound s p m)

/-! ### Negative events (R332, R333) -/

/-- The step a negative event is attributed to (R333). -/
def attribute_ (s : State) (p : Nat) (step : Option Nat) : Option Nat :=
  match step with
  | some n => some n
  | none => match (proof s p).openStep with
    | some n => some n
    | none => if (proof s p).lastComputed = 0 then none else some (proof s p).lastComputed

/-- Whether the partition takes part in a slice, so that it sends STOP (R333). -/
def inSlice (s : State) (p : Nat) : Bool :=
  let x := proof s p
  if x.slice = 9 then false
  else if x.slice = 0 then (part s p).pstate == 3 && (xport s p).imp.isSome
  else true

/-- A STOP originated (R333, R347, R348): recorded, sent and accepted by the member itself. -/
def originateStop (s : State) (p reason : Nat) (strikes : List StrikeEntry) : State :=
  let x := proof s p
  let m : StopMsg := { step := x.openStep.getD x.lastComputed, reason := reason, applied := false, fallback := x.fallback
                       hold := x.hold, provenTo := x.lastProven, origin := devId s p, round := 0, orank := ownRank s p
                       strikes := strikes }
  let s := record s p (ucXport p) 0 0x0031 (leBytes 1 reason ++ leBytes 8 m.step ++ leBytes 2 strikes.length)
  let s := updProof s p (fun x => { x with stopsSent := min (x.stopsSent + 1) (2 ^ 64 - 1) })
  acceptStop (sendStopPress s p (genOf s p) 0 0xFFFFF m.bytes) p m

/-- The FALLBACK conditions (R332, R357). -/
def fallbackReason (r : Nat) : Bool := r == 0x10 || r == 0x11 || r == 0x12

/-- A raised negative event handled (R332, R333, R533). The step of an event attributed to no step is recorded as 0
(log 22). -/
def handleRaised (s : State) (r : Raised) : State :=
  let p := r.part
  if nparts s ≤ p then s
  else
    let n := attribute_ s p r.step
    let s := recordE s p r.unit 0 0x0030 (leBytes 1 r.reason ++ leBytes 8 (n.getD 0) ++ leBytes 2 r.unit) r.injected
    let s := stickyPart s p 0
    let s := updProof s p (fun x => { x with
      lastReason := r.reason, healthUnits := if r.strikes.any (·.health) then sins x.healthUnits r.unit else x.healthUnits })
    if inSlice s p then
      let strict := r.reason == 0x06
      let s := updProof s p (fun x => { x with
        negative := true, fallback := x.fallback || fallbackReason r.reason
        hold := x.hold || (strict && x.slice == 7 && x.strictFailed.contains (n.getD 0))
        strictFailed := if strict && x.slice != 7 then sins x.strictFailed (n.getD 0) else x.strictFailed })
      originateStop s p r.reason r.strikes
    else s

/-- Every raised negative event handled, oldest first, for at most `n` of them. -/
def raiseAll : Nat → State → State
  | 0, s => { s with raised := [] }
  | n + 1, s =>
    match s.raised with
    | [] => s
    | r :: t => raiseAll n (handleRaised { s with raised := t } r)

end Sys2Proof.Machine
end

