-- ==== Sys2Proof/Machine/Restart.lean ====
section
/-! DEFINITION. Restarts: loading an imposition (10_jilan_transport.md R298 to R303), ports at a restart
(09_jilan_links.md R282 to R284), PLANES (10 R308), state transfer (11_proof_and_reprint.md R343), ROLLBACK (11 R355;
06 R175, R178, R179; 07 R204, R210) and JOIN. -/

namespace Sys2Proof.Machine

/-! ### Imposition images (10 R298 to R302) -/

/-- The image of the loaded bytes. -/
def impOf (bs : Bytes) : Imposition :=
  let n := leAt bs 0x208 4
  { slice := leAt bs 0x200 4, epoch := leAt bs 0x204 2, budget := leAt bs 0x206 2, crc := leAt bs 8 8
    ranks := (List.range n).map (fun r =>
      let e := leAt bs (0xC00 + 8 * r) 8
      ⟨natFld e 0 20, natFld e 20 16, natFld e 36 28⟩)
    ports := (List.range 32).map (fun j =>
      let e := leAt bs (0x20 + 8 * j) 8
      ⟨natFld e 0 20, natFld e 24 8, natFld e 32 8⟩)
    families := ((List.range 256).map (fun g => (g, (natFld (leAt bs (0x400 + 8 * g) 4) 0 17, natFld (leAt bs (0x404 + 8 * g) 4) 0 17)))).filter
      (fun f => f.2.2 != 0)
    member := bs.take 0x200 }

/-- Whether bytes `lo .. hi - 1` are all 0. -/
def zeroRange (bs : Bytes) (lo hi : Nat) : Bool := ((bs.drop lo).take (hi - lo)).all (· == 0)

/-- Order 2 of R302: header fields and reserved fields. -/
def impFormatOk (bs : Bytes) : Bool :=
  let n := leAt bs 0x208 4
  leAt bs 0 2 == 0x4950 && leAt bs 2 1 == 1 && zeroRange bs 3 4 && leAt bs 4 4 == 0xC00 + 8 * n && zeroRange bs 0x10 0x20 &&
  zeroRange bs 0x120 0x200 && leAt bs 0x200 4 != 0 && leAt bs 0x204 2 != 0 && decide (1 ≤ n) && decide (n ≤ 65536) &&
  zeroRange bs 0x20C 0x400 &&
  (List.range 32).all (fun j => let e := leAt bs (0x20 + 8 * j) 8; natFld e 20 4 == 0 && natFld e 40 24 == 0) &&
  (List.range 512).all (fun i => natFld (leAt bs (0x400 + 4 * i) 4) 17 15 == 0)

/-- Order 7 of R302. -/
def impFacingOk (m : Imposition) : Bool :=
  (List.range m.ranks.length).all (fun r => match m.ranks[r]? with
    | some e => match m.ranks[e.facing]? with
      | some f => f.facing == r
      | none => false
    | none => true)

/-- Order 8 of R302. -/
def impFamiliesOk (m : Imposition) : Bool :=
  mget m.families (0, 0) 0 == (1, m.ranks.length) &&
  m.families.all (fun f => decide (0 < f.2.1 * f.2.2) && m.ranks.length % (f.2.1 * f.2.2) == 0)

/-- Whether a list has a repeat. -/
def hasDup : List Nat → Bool
  | [] => false
  | x :: r => r.contains x || hasDup r

/-- RESULT of loading the image at IMP_VA (R302), with the image where one is read. -/
def impCheck (s : State) (p : Nat) : Nat × Option Imposition :=
  let x := xport s p
  if !scopeOk s p .engine false x.impVa 0xC00 || isHostVa x.impVa then (0xB, none)
  else
    let hd := (vread s p x.impVa 0xC00).data
    if !impFormatOk hd then (0x3, none)
    else
      let size := 0xC00 + 8 * leAt hd 0x208 4
      if !scopeOk s p .engine false (x.impVa + 0xC00) (size - 0xC00) then (0xB, none)
      else
        let bs := (vread s p x.impVa size).data
        let m := impOf bs
        let ids := m.ranks.map (·.devid)
        let r : Nat :=
          if crc64 (bs.drop 0x200) ≠ m.crc then 0x4
          else if hasDup ids || ids.contains 0xFFFFF then 0x6
          else if !ids.contains (devId s p) then 0x5
          else if !impFacingOk m then 0x7
          else if !impFamiliesOk m then 0x8
          else if m.epoch < x.epoch then 0x9
          else if m.epoch = x.epoch then
            (if x.imp.any (fun l => l.crc == m.crc && l.member == m.member) then 0x2 else 0xA)
          else 0x1
        (r, some m)

/-- An attempt to load the armed image (R302): RESULT, IMP_ARM cleared, and the imposition where it is LOADED. -/
def loadImage (s : State) (p : Nat) : State :=
  let (r, m) := impCheck s p
  let old := (xport s p).imp
  let oldFacing := (rankEntry s p (facingRank s p)).map (·.devid)
  let struck := match (proof s p).appliedDecision with
    | some d => d.strikes.any (fun e => e.rank == facingRank s p && !e.observe)
    | none => false
  let s := updXport s p (fun x => { x with result := r, arm := false })
  let s := record s p (ucXport p) 0 0x0034 (leBytes 1 r ++ (match m with
    | some m => leBytes 2 m.epoch ++ leBytes 4 m.slice
    | none => leBytes 2 (xport s p).epoch ++ leBytes 4 0))
  match r, m with
  | 0x1, some m =>
    let s := updXport s p (fun x => { x with
      imp := some m, epoch := m.epoch, reprint := 0, rank := (m.ranks.findIdx? (fun e => e.devid == devId s p)).getD 0, peers := []
      collCount := [], readyCount := [], early := [], colls := [], rmas := [], dropsSeen := [] })
    let s := if old.any (fun o => o.slice != m.slice) then updProof s p (fun x => { x with strikeTimes := [] }) else s
    let newFacing := (rankEntry s p (facingRank s p)).map (·.devid)
    updMirror s p (fun x => { x with
      owes := old.isSome && (struck || oldFacing != newFacing || x.owes), restoreSent := false, restoreSum := none })
  | 0x2, _ => s
  | _, _ => stickyPart s p 3

/-! ### Ports at a restart (09 R282 to R284) -/

/-- The expected peer of a port, from the partition's imposition (10 R300). -/
def expPeer (s : State) (j : Nat) : PeerEntry :=
  match (portPart s j).bind (fun p => (xport s p).imp.bind (fun m => m.ports[j]?)) with
  | some e => e
  | none => ⟨0, 0, 0xFF⟩

/-- Checks 5 to 8 of R282: QREASON, 0 where all pass. -/
def lateCheck (s : State) (p j : Nat) (i : IdentMsg) : Nat :=
  let e := expPeer s j
  if isFabric j ∧ e.kind = 0xFF then 5
  else if e.kind ≠ 0xFF ∧ (e.kind ≠ i.kind ∨ e.id ≠ i.id ∨ e.port ≠ i.port) then 1
  else if i.kind = 0 ∧ i.slice ≠ (match (xport s p).imp with
    | some m => m.slice
    | none => 0) then 2
  else if i.kind = 0 ∧ i.epoch ≠ (xport s p).epoch then 3
  else 0

/-- Whether the partner advertises fewer buffers than R269 asks for on a fabric port. -/
def creditShort (x : Port) (j : Nat) : Bool :=
  isFabric j && (List.range 8).any (fun v => decide (mget x.link.credit 0 v < (if v < 3 then 4 else 1)))

/-- The negotiated protocol version (R281); 0 where the ranges are disjoint. -/
def negotiated (s : State) (i : IdentMsg) : Nat :=
  let v := min (jvRange s).2 i.vmax
  if v < max (jvRange s).1 i.vmin then 0 else v

/-- Checks 2 to 4 of R282: QREASON, 0 where all pass. -/
def earlyCheck (s : State) (j : Nat) (i : IdentMsg) : Nat :=
  let r := jpRole s j
  if negotiated s i = 0 then 4
  else if creditShort (port s j) j then 7
  else if (if isFabric j then i.kind == 2 || i.kind == 3 else r == 1 && i.kind != 2 || r == 2 && i.kind != 3) then 6
  else 0

/-- The first check of R282 that an IDENT fails, 0 for none: checks 5 to 8 once an imposition is loaded (R283). -/
def identVerdict (s : State) (p j : Nat) (i : IdentMsg) : Nat :=
  match earlyCheck s j i with
  | 0 => if (xport s p).imp.isSome then lateCheck s p j i else 0
  | r => r

/-- QUARANTINE entered (R284); not a link loss (R279). -/
def quarantine (s : State) (j reason : Nat) : State :=
  let e := expPeer s j
  let i := (port s j).peer.getD default
  let s := updPort s j (fun x => { x with state := 8, qreason := reason, epochWait := false, link := { x.link with txq := [], asm := [] } })
  let s := stickyPort s j 0
  record s ((portPart s j).getD 7) (ucPort j) operLink 0x0040
    (leBytes 1 reason ++ leBytes 3 e.id ++ leBytes 1 e.port ++ leBytes 1 e.kind ++ leBytes 3 i.id ++ leBytes 1 i.port ++ leBytes 1 i.kind)

/-- A port becomes ACTIVE at a restart (R278); DEGRADED at width 6. -/
def portActive (s : State) (j : Nat) : State :=
  let s := updPort s j (fun x => { x with state := 5, qreason := 0, epochWait := false })
  if (port s j).width = 6 then stickyPort s j 4 else s

/-- One port judged at a restart (R283). -/
def judgePort (s : State) (p j : Nat) : State :=
  let x := port s j
  if x.state = 3 ∨ x.state = 4 ∨ x.state = 5 then
    match x.peer with
    | none => s
    | some i =>
      if x.state = 3 ∧ (!x.gotIdent ∨ !x.link.creditInit) then s
      else
        let s := if x.state = 3 then updPort s j (fun x => { x with state := 4 }) else s
        match identVerdict s p j i with
        | 0 => portActive s j
        | 3 => updPort s j (fun x => { x with epochWait := true })
        | r => quarantine s j r
  else s

/-- Every port of the partition judged. -/
def judgePorts (s : State) (p : Nat) : State := (partPorts s p).foldl (fun s j => judgePort s p j) s

/-! ### IDENT (09 R276, R280) -/

/-- Payload bytes 1 to 27 of the port's IDENT: everything but IDSEQ. -/
def identBody (s : State) (p j : Nat) : Bytes :=
  let m := (xport s p).imp
  let (lo, hi) := jvRange s
  leBytes 1 0 ++ leBytes 1 j ++ leBytes 1 lo ++ leBytes 1 hi ++ leBytes 1 (jpRole s j) ++ leBytes 3 (devId s p) ++ zeros 1 ++
  leBytes 4 (match m with
    | some i => i.slice
    | none => 0) ++
  leBytes 2 (match m with
    | some i => i.epoch
    | none => 0) ++ (colophonHash s).take 12

/-- An IDENT sent; IDSEQ counts the changes of its other fields. -/
def sendIdent (s : State) (j : Nat) : State :=
  match portPart s j with
  | none => s
  | some p =>
    let b := identBody s p j
    let s := updPort s j (fun x => { x with
      idseq := if x.sentId = [] ∨ x.sentId = b then x.idseq else (x.idseq + 1) % 2 ^ 32, sentId := b })
    sendLctl s j 3 (b ++ leBytes 4 (port s j).idseq)

/-- IDENT sent at once on every port whose content has changed (R276); a port in ACTIVE sends it too, since the partner
waits for it (R283). -/
def sendChangedIdents (s : State) (p : Nat) : State :=
  (partPorts s p).foldl (fun s j =>
    let x := port s j
    if (x.state = 3 ∨ x.state = 4 ∨ x.state = 5 ∨ x.state = 8) ∧ x.sentId ≠ identBody s p j then sendIdent s j else s) s

/-! ### PLANES (10 R308) -/

/-- Whether the partition is in the part of a restart that exchanges PLANES. -/
def joining (s : State) (p : Nat) : Bool := (proof s p).slice == 6 || ((proof s p).slice == 0 && (part s p).pstate == 3)

/-- PLANES sent to every other rank, once no port waits for a newer IDENT (R283, R308). -/
def trySendPlanes (s : State) (p : Nat) : State :=
  if joining s p && !(xport s p).planesSent && (partPorts s p).all (fun j => !(port s j).epochWait) then
    let a := activeNow s p
    let s := updXport s p (fun x => { x with planesSent := true, active := a })
    ((List.range (nranks s p)).filter (· != ownRank s p)).foldl (fun s d => match rankEntry s p d with
      | some e =>
        match bitsSet (a &&& e.planes) 28 with
        | [] => raise s p 0x1A none (ucXport p)
        | js => js.foldl (fun s j => sendPort s p j 0x23 (fabricPacket s p e.devid 2 0 0 0 0 (.clean (leBytes 8 a)))) s
      | none => s) s
  else s

/-! ### State transfer (11 R343) -/

/-- What END says of a set: digest, page count, CRC of the scale bytes. -/
def setSum (s : State) (pages : List (Nat × Nat)) (scale : Bytes) : Nat × Nat × Nat :=
  ((digestOver s pages).1.toNat, pages.length, crc64 scale)

/-- A set sent: pages by ordinal, then scale bytes, then END. -/
def sendSet (s : State) (p : Nat) (pages : List (Nat × Nat)) (subPage subScale kind : Nat) (scale : Bytes) : State :=
  let d := facingRank s p
  let s := pages.foldl (fun s x =>
    sendBytes s p d 0x32 7 subPage 0 (x.1 * pageSize) 0 (pread s (x.2 * pageSize) pageSize)) s
  let s := sendBytes s p d 0x32 7 subScale 0 0 0 (.clean scale)
  let (v, n, c) := setSum s pages scale
  sendRank s p d 0x32 7 4 0 0 0 (.clean (leBytes 8 v ++ leBytes 4 n ++ leBytes 1 kind ++ zeros 3 ++ leBytes 8 c))

/-- The full mirror copy: own MIRRORED pages and scale range into the partner's window and shadow. -/
def copyMirror (s : State) (p : Nat) : State :=
  sendSet s p (ownPages s p (List.range (mirror s p).ordinals.length)) 1 2 1
    (scaleBytesAt s.ms.scale (sctBase s p) 0 (208 * sctSize s p))

/-- The own fill set (step 2 of R343). -/
def sendFill (s : State) (p : Nat) : State := copyMirror (updMirror s p (fun x => { x with fillSent := true })) p

/-- The restore set for a struck or changed facing rank (step 1 of R343): its own pages, as many as its last fill set
brought, from the mirror window, and its scale entries from the shadow. -/
def sendRestore (s : State) (p : Nat) : State :=
  let pages := windowPages s p (List.range (mirror s p).held)
  let scale := scaleBytesAt (mirror s p).shadow 0 0 (208 * sctSize s p)
  let s := updMirror s p (fun x => { x with restoreSent := true, restoreSum := some (setSum s pages scale) })
  sendSet s p pages 0 3 0 scale

/-- Whatever of R343 can be sent now. -/
def trySendXfer (s : State) (p : Nat) : State :=
  let x := mirror s p
  if joining s p && (proof s p).newImp && hasFacing s p && (xport s p).planesSent &&
      (xport s p).peers.any (fun c => c.1 == facingRank s p) then
    let s := if x.owes && !x.restoreSent then sendRestore s p else s
    if !(mirror s p).fillSent && !(mirror s p).wantRestore then sendFill s p else s
  else s

/-! ### Entering JOIN (11 R338, R355; 18 R519) -/

/-- Mirror ordinals: the MIRRORED pages by ascending VPN (R338). -/
def mirroredPages (s : State) (p : Nat) : List Nat :=
  (s.ms.tt.filter (fun c => decide (ctxBase s p ≤ c.1) && decide (c.1 < ctxBase s p + ctxSize s p) && tteValid c.2 && tteMirror c.2)).map
    (fun c => c.1 - ctxBase s p)

/-- Whether R338 holds: the MIRRORED pages fit the facing rank's MIR_PAGES (log 23), and the scale shadow is in place. -/
def facingReady (s : State) (p : Nat) : Bool :=
  !hasFacing s p ||
  (decide ((mirroredPages s p).length ≤ (mirror s p).farPages.getD (mirWindow s p).2) && shadowInPlace s p)

/-- The ordinals numbered and the mirror's per-imposition state cleared. -/
def numberOrdinals (s : State) (p : Nat) : State :=
  updMirror s p (fun x => { x with
    ordinals := mirroredPages s p, out := [], outSent := false, inp := none, early := 0, applied := [], facingSet := [], sealedAt := []
    pendingScale := [], digests := [], xferPages := [], xferScale := [], xferWaits := [], wantRestore := false, fillSent := false
    fillDone := false })

/-- A restart fails into HOLD (R355); in ARRIVING the barrier fails with a cause (18 R520). -/
def toHold (s : State) (p cause : Nat) : State :=
  let s := updProof s p (fun x => { x with slice := 5, toHold := false })
  if (part s p).pstate = 3 then updPart s p (fun x => { x with pstate := 2, barFail := cause }) else s

/-- The restart goes on with the imposition in force: ports, ordinals, PLANES. Where a STOP has cut short the JOIN of a
newly loaded imposition, the next JOIN still is one of it: its exchange is verified, nothing is replayed, and W stays the
new one (R329, R343, R355). -/
def beginJoin (s : State) (p : Nat) (new : Bool) : State :=
  let s := updXport s p (fun x => { x with planesSent := false })
  let s := updProof s p (fun x => { x with
    newImp := new || x.newImp, w := if new then x.wNext else x.w, slice := if (part s p).pstate = 3 ∧ x.slice = 0 then 0 else 6 })
  let s := judgePorts s p
  let ready := facingReady s p
  let s := if new then numberOrdinals s p else s
  if new && !ready then
    toHold (record s p (ucXport p) 0 0x0034 (leBytes 1 (xport s p).result ++ leBytes 2 (xport s p).epoch)) p 2
  else trySendPlanes s p

/-! ### ROLLBACK (11 R355) -/

/-- One journal record restored (07 R210): a record that fails its CRCs makes its page unrepairable. -/
def restoreRecord (s : State) (p : Nat) (r : JournalRecord) : State :=
  if r.intact then
    let s := cowHook s r.ppn
    updMs s (fun m => { m with
      mem := mreplace m.mem (r.ppn * pageSize) pageSize r.page
      poison := (m.poison.filter (fun g => decide (g / 8192 < r.ppn))) ++ r.poison.map (fun g => r.ppn * 8192 + g) ++
        (m.poison.filter (fun g => decide (r.ppn < g / 8192))) })
  else updPart s p (fun x => { x with unrepairable := sins x.unrepairable r.vpn })

/-- The undo journal applied back to the last PROVEN step, in descending step order (07 R210). -/
def undoJournal (s : State) (p : Nat) : State :=
  let n := (proof s p).lastProven
  let gs := (sortBy (·.step) ((part s p).journal.filter (fun g => decide (n < g.step)))).reverse
  let s := gs.foldl (fun s g => g.records.foldl (fun s r => restoreRecord s p r) s) s
  updPart s p (fun x => { x with journal := x.journal.filter (fun g => decide (g.step ≤ n)) })

/-- The virtual page of a partition that a physical page is mapped by. -/
def pageOfPpn (s : State) (p ppn : Nat) : Option Nat :=
  (s.ms.tt.find? (fun c => decide (ctxBase s p ≤ c.1) && decide (c.1 < ctxBase s p + ctxSize s p) && tteValid c.2 && ttePpn c.2 == ppn)).map
    (fun c => c.1 - ctxBase s p)

/-- A page restored from the facing page (06 R175, rule 1). The facing page holds the same bytes (07 R216), so the
clean granules keep theirs; the bytes of the poisoned granules come over the fabric and are free values (log 24). -/
def repairPage (s : State) (ppn : Nat) : State :=
  (s.ms.poison.filter (fun g => decide (g / 8192 = ppn))).foldl (fun s g =>
    let (k, s) := fresh s
    pwrite s (g * 64) (.clean ((List.range 64).map (fun i => Config.abandonedByte (64 * k + i))))) s

/-- One page with poison judged by R175. -/
def repairOne (s : State) (p vpn : Nat) (again : Bool) : State :=
  let e := tte s p vpn
  if tteMirror e && hasFacing s p then repairPage s (ttePpn e)
  else if tteRepair e && !again then s
  else updPart s p (fun x => { x with unrepairable := sins x.unrepairable vpn })

/-- Whether the DECISION in hand carries FALLBACK: recovery then falls back to a snapshot (R357). -/
def fallsBack (s : State) (p : Nat) : Bool := (proof s p).appliedDecision.any (·.fallback)

/-- The pages of a partition's context that hold a poisoned granule. -/
def poisonedPages (s : State) (p : Nat) : List Nat :=
  ((s.ms.poison.foldl (fun a g => sins a (g / 8192)) []).filterMap (pageOfPpn s p)).foldl sins []

/-- Poison repair (06 R175, 17 R504): each page that holds a poisoned granule, a page being consumed again where a logged
address of it was; and every PERSISTENT one unrepairable where the log overflowed. A rollback that already falls back to a
snapshot raises nothing more. -/
def repairPoison (s : State) (p : Nat) : State :=
  let x := part s p
  let vs := poisonedPages s p
  let again (v : Nat) : Bool :=
    x.again.any (fun pa => pa / pageSize == ttePpn (tte s p v) && s.ms.poison.contains (pa / 64))
  let lost := if x.plogOvf then vs.filter (fun v => ttePersist (tte s p v)) else []
  let s := updPart s p (fun x => { x with unrepairable := lost.foldl sins x.unrepairable })
  let s := (vs.filter (fun v => !lost.contains v)).foldl (fun s v => repairOne s p v (again v)) s
  let left := x.plog.filter (fun pa => s.ms.poison.contains (pa / 64))
  let s := updPart s p (fun x => { x with plog := left, plogOvf := false, leftPoison := left, again := [] })
  let bad := !(part s p).unrepairable.isEmpty && !fallsBack s p
  let s := updPart s p (fun x => { x with unrepairable := [] })
  if bad then raise s p 0x12 none (ucEngine (p * nstacks s)) else s

/-- The channel of a table that then holds the fewest entries, ties to the first of the candidates (06 R179). -/
def fewest (cands : List Nat) (count : Nat → Nat) : Nat :=
  match cands with
  | [] => 0
  | c :: r => r.foldl (fun a x => if count x < count a then x else a) c

/-- The channel-table and stack-map entries of a pseudo-channel reassigned in ascending order (06 R179), with how many
there were. -/
def moveEntries (s : State) (p i : Nat) : State × Nat :=
  let n := nstacks s
  let sh := 4096 / nparts s
  let live (c : Nat) : Bool := c != i && (channel s c).state == 0
  let cands := ((List.range (32 * n)).map (fun q => 32 * (p * n + q % n) + q / n)).filter live
  let es := upto (p * sh) sh
  let mine := es.filter (fun e => channelTableE s e == i)
  let s := mine.foldl (fun s e =>
    let c := fewest cands (fun c => (es.filter (fun e => channelTableE s e == c)).length)
    updMs s (fun m => { m with channelTable := mset m.channelTable (channelReset s e) e c })) s
  let k := i / 32
  let gs := (List.range 4096).filter (fun g => stackMapE s k g == i % 32)
  let sc := ((List.range 32).filter (fun c => live (32 * k + c)))
  let s := gs.foldl (fun s g =>
    let c := fewest sc (fun c => ((List.range 4096).filter (fun g => stackMapE s k g == c)).length)
    updStack s k (fun x => { x with map := mset x.map (g % 32) g c })) s
  (s, mine.length + gs.length)

/-- A FAILING pseudo-channel retired (06 R178, R179): its lines are read to their new channels, and a granule that reads
uncorrectable is written poisoned. -/
def retireChannel (s : State) (p i : Nat) : State :=
  let gone := s.ms.meets.filter (fun x => channelOf s (x.1 * 64) == i && x.2 == .uncorrectable)
  let s := gone.foldl (fun s x => writeBad (unmeet s x.1) x.1 false) s
  let (s, n) := moveEntries s p i
  let s := updChannel s i (fun x => { x with state := 2 })
  stickyDev (record s p (ucChannel i) 0 0x0025 (leBytes 2 (ucChannel i) ++ leBytes 2 n)) 1

/-- FAILING channels of a partition retired within the limits of R180. -/
def retireChannels (s : State) (p : Nat) : State :=
  (channelsIn s p 1).foldl (fun s i =>
    let done_ := channelsIn s p 2
    if decide (done_.length < channelLimit s) && done_.all (fun x => x / 32 != i / 32) then retireChannel s p i else s) s

/-- A pending substitution carried out (01 R26, R27): after a health-driven retirement the spare takes a copy of the
scratchpad, program memory, formes, semaphores and CSQ state. After a hard fault it takes the restored state and no copy: a
core after its reset with the program memory, the marked words, ENTRY and the flag that the logical core had (05 R129, R147),
and a scratchpad of free values, since the manual does not state its contents (log 57). The retiring core is recorded. -/
def substitute (s : State) (l c : Nat) (hard : Bool) : State :=
  let p := lcorePart s l
  let s := updFaults s (fun f => { f with subst := f.subst.filter (fun x => x.1 != l) })
  match replacement s p c with
  | some n =>
    let k := core s c
    let u := unitsOf s c
    let f := s.freeCtr + 1
    let k := if hard then
        coreCleared { spad := freeSpad f, pm := k.pm, pmBad := k.pmBad, entry := k.entry, imageValid := k.imageValid }
          (mget s.pulses 0 (n / 8))
      else { k with cycleBase := (core s n).cycleBase }
    let s := if hard then { s with freeCtr := f + 1 } else s
    let s := updCore s n (fun _ => k)
    let s := updUnits s n (fun v => if hard then unitsCleared v else { v with formes := u.formes })
    let s := updCore s c (fun _ => coreCleared {} (mget s.pulses 0 (c / 8)))
    let s := updUnits s c (fun u => unitsCleared u)
    let s := setPhys { s with retiredCores := sins s.retiredCores c } l n
    stickyDev (record s p (ucCore c) 0 0x0052 (leBytes 2 (ucCore n))) 0
  | none => strikeReq s p true (ucCore c)

/-- The substitutions of a partition that take effect in a restart (R27). -/
def substituteAll (s : State) (p : Nat) : State :=
  (s.faults.subst.filter (fun x => lcorePart s x.1 == p)).foldl (fun s x => substitute s x.1 x.2.1 x.2.2) s

/-- Stacks in self-refresh return where the restart finds them below T1 (06 R183). -/
def wakeStacks (s : State) (p : Nat) : State :=
  (partStacks s p).foldl (fun s k =>
    if (stack s k).selfRefresh ∧ (stack s k).temp < regF s .dev 0x0800504 0 9 then updStack s k (fun x => { x with selfRefresh := false }) else s) s

/-- The work of ROLLBACK (R355). -/
def rollback (s : State) (p : Nat) : State :=
  let n := (proof s p).lastProven
  let s := discardSnaps s p n
  let s := undoJournal s p
  let s := failScales s p n
  let s := updMirror s p (fun x => { x with
    pendingScale := x.pendingScale.filter (fun r => decide (r.1 ≤ n)), out := [], outSent := false, inp := none, early := 0
    fillSent := false, fillDone := false, wantRestore := false, restoreSent := false, restoreSum := none
    xferPages := [], xferScale := [], xferWaits := []
    digests := x.digests.filter (fun d => decide (d.step ≤ n)), applied := x.applied.filter (fun c => decide (c.1 ≤ n))
    facingSet := x.facingSet.filter (fun c => decide (c.1 ≤ n)), sealedAt := x.sealedAt.filter (fun c => decide (c.1 ≤ n)) })
  let s := updProof s p (fun x => { x with
    captures := x.captures.filter (fun c => decide (c.step ≤ n)), ups := x.ups.filter (fun u => decide (u.1 ≤ n))
    upSent := x.upSent.filter (fun k => decide (k ≤ n)) })
  let s := retireChannels s p
  let s := repairPoison s p
  let s := substituteAll s p
  let s := wakeStacks s p
  if (xport s p).needReset then
    recordReset (updXport s p (fun x => { x with needReset := false, rmas := [], colls := [], early := [] })) p (ucXport p) 5 7
  else s

/-- ROLLBACK ends: into HOLD, or into JOIN with the imposition loaded or kept (R355). An armed image of a greater epoch
leaves HOLD at once. -/
def endRollback (s : State) (p : Nat) : State :=
  let hold := (proof s p).toHold
  if (xport s p).arm && (part s p).pstate != 2 then
    let s := loadImage s p
    match (xport s p).result with
    | 0x1 => beginJoin s p true
    | 0x2 => if hold then toHold s p 1 else beginJoin s p false
    | _ => toHold s p 1
  else if hold then toHold s p 1
  else beginJoin s p false

/-- HOLD ends when an armed image of a greater epoch loads (R355). -/
def tryLeaveHold (s : State) (p : Nat) : State :=
  if (proof s p).slice = 5 ∧ (xport s p).arm ∧ (part s p).pstate ≠ 2 then
    let s := loadImage s p
    if (xport s p).result = 0x1 then beginJoin s p true else s
  else s

/-- Whether JOIN can end: PLANES from every rank, and R343 verified where an imposition was loaded. -/
def joinReady (s : State) (p : Nat) : Bool :=
  joining s p && (xport s p).planesSent &&
  ((List.range (nranks s p)).filter (· != ownRank s p)).all (fun d => (xport s p).peers.any (fun c => c.1 == d)) &&
  (!(proof s p).newImp || !hasFacing s p || ((mirror s p).fillSent && (mirror s p).fillDone))

/-- JOIN ends (R355): REPLAY, FALLBACK, or RUNNING after a new imposition; a start-up barrier passes (18 R519). -/
def finishJoin (s : State) (p : Nat) : State :=
  let x := proof s p
  let h := partHp s p
  let fallback := fallsBack s p
  let s := if (part s p).pstate = 3 then updPart s p (fun y => { y with pstate := 4, phased := false }) else updPart s p (fun y => { y with phased := false })
  let s := updProof s p (fun x => { x with
    negative := false, round := none, begun := false, nextStep := x.lastProven + 1, openStep := none, ending := false, mbb := none, heard := [], replayed := 0, replayTo := (part s p).started
    steps := x.steps.filter (fun r => r.state != 5 || !x.newImp) })
  let s := if x.newImp then
      let s := updProof s p (fun x => { x with log := [], strictFailed := [] })
      if x.slice = 6 then asyncCause s h 2 else s
    else s
  let s := updMirror s p (fun y => { y with
    fillSent := false, fillDone := false, owes := false, restoreSent := false, restoreSum := none })
  updProof s p (fun y => { y with newImp := false, slice := if fallback then 8 else if x.newImp then 1 else 7 })

/-- The start-up barrier passes by itself once nothing is awaited (18 R519, step 7). -/
def settleBarrier (s : State) (p : Nat) : State :=
  if (part s p).pstate = 3 ∧ (proof s p).slice = 0 ∧ joinReady s p then finishJoin s p else s

end Sys2Proof.Machine
end

