-- ==== Sys2Proof/Machine/Optim.lean ====
section
/-! DEFINITION. Optimiser work of the stack engines (07_stack_engines.md R187 to R198, R212, R214): parameter blocks,
clip factors, recipes, sums of squares and maxima, at the owner and at the facing page. -/

namespace Sys2Proof.Machine

/-! ### Parameter block (R187) -/

/-- Field of a parameter block by byte and length. -/
def pbF (b : Bytes) (off n : Nat) : Nat := leAt b off n
/-- RECIPE. -/
def pbRecipe (b : Bytes) : Nat := pbF b 0 1
/-- MOMFMT. -/
def pbMom (b : Bytes) : Nat := pbF b 1 1
/-- COPYFMT. -/
def pbCopy (b : Bytes) : Nat := pbF b 2 1
/-- A field of byte 3 or 4. -/
def pbBits (b : Bytes) (byte lo w : Nat) : Nat := natFld (pbF b byte 1) lo w
/-- MOMRND. -/
def pbMomRnd (b : Bytes) : Nat := pbBits b 3 0 2
/-- COPYRND. -/
def pbCopyRnd (b : Bytes) : Nat := pbBits b 3 2 2
/-- CLIP_SRC. -/
def pbClipSrc (b : Bytes) : Bool := pbBits b 3 4 1 == 1
/-- QSRC. -/
def pbQsrc (b : Bytes) : Nat := pbBits b 3 5 2
/-- STRICT. -/
def pbStrict (b : Bytes) : Bool := pbBits b 3 7 1 == 1
/-- CAMAX. -/
def pbCamax (b : Bytes) : Bool := pbBits b 4 0 1 == 1
/-- REN. -/
def pbRen (b : Bytes) : Bool := pbBits b 4 1 1 == 1
/-- COUNT. -/
def pbCount (b : Bytes) : Nat := pbF b 8 5
/-- POS0. -/
def pbPos0 (b : Bytes) : Nat := pbF b 16 6
/-- WADDR. -/
def pbW (b : Bytes) : Nat := pbF b 24 6
/-- MADDR. -/
def pbM (b : Bytes) : Nat := pbF b 32 6
/-- VADDR. -/
def pbV (b : Bytes) : Nat := pbF b 40 6
/-- GADDR. -/
def pbG (b : Bytes) : Nat := pbF b 48 6
/-- CADDR. -/
def pbC (b : Bytes) : Nat := pbF b 56 6
/-- C_TID. -/
def pbCTid (b : Bytes) : Nat := pbF b 62 2
/-- PADDR. -/
def pbP (b : Bytes) : Nat := pbF b 64 6
/-- RADDR. -/
def pbR (b : Bytes) : Nat := pbF b 72 6
/-- CLIP_ACC. -/
def pbAcc (b : Bytes) : Nat := pbF b 80 6
/-- An FP32 field. -/
def pb32 (b : Bytes) (off : Nat) : BitVec 32 := BitVec.ofNat 32 (pbF b off 4)

/-- Whether the recipe updates operands: 0x00 to 0x03. -/
def pbUpdates (b : Bytes) : Bool := decide (pbRecipe b < 4)
/-- Whether the recipe uses V. -/
def pbUsesV (b : Bytes) : Bool := pbRecipe b == 0 || pbRecipe b == 3
/-- Whether the recipe writes a copy. -/
def pbUsesC (b : Bytes) : Bool := pbUpdates b && pbCopy b != 0xFF
/-- Bytes of a moment element. -/
def pbMomSize (b : Bytes) : Nat := if pbMom b = 0 then 4 else 2
/-- Bytes of a copy element. -/
def pbCopySize (b : Bytes) : Nat := if pbCopy b = 1 then 2 else 1

/-- The operand ranges a recipe writes (R188): address and bytes. -/
def pbWritten (b : Bytes) : List (Nat × Nat) :=
  if pbUpdates b then
    [(pbW b, 4 * pbCount b), (pbM b, pbMomSize b * pbCount b)] ++
    (if pbUsesV b then [(pbV b, pbMomSize b * pbCount b)] else []) ++
    (if pbUsesC b then [(pbC b, pbCopySize b * pbCount b)] else [])
  else [(pbR b, 48)]

/-- The operand ranges a recipe reads (R188). -/
def pbRead (b : Bytes) : List (Nat × Nat) :=
  (if pbUpdates b then
    [(pbW b, 4 * pbCount b), (pbM b, pbMomSize b * pbCount b)] ++
    (if pbUsesV b then [(pbV b, pbMomSize b * pbCount b)] else []) else []) ++
  [(pbG b, 4 * pbCount b)]

/-- Whether two ranges share a byte. -/
def rangesMeet (a b : Nat × Nat) : Bool :=
  decide (0 < a.2) && decide (0 < b.2) && decide (a.1 < b.1 + b.2) && decide (b.1 < a.1 + a.2)

/-- Whether some two ranges of a list share a byte. -/
def anyMeet : List (Nat × Nat) → Bool
  | [] => false
  | a :: r => r.any (rangesMeet a) || anyMeet r

/-- Whether every byte of the listed ranges of a block is 0. -/
def zerosAt (b : Bytes) (rs : List (Nat × Nat)) : Bool := rs.all (fun r => ((b.drop r.1).take r.2).all (· == 0))

/-- The BAD_DESC checks of R189 but for those of R197 and R212. -/
def pbFormatOk (b : Bytes) : Bool :=
  let esz := pbMomSize b
  pbBits b 4 2 6 == 0 && zerosAt b [(5, 3), (13, 3), (22, 2), (54, 2), (70, 2), (78, 2), (86, 2), (100, 12)] &&
  decide (pbRecipe b ≤ 5) && decide (pbMom b ≤ 1) && [1, 3, 4, 0xFF].contains (pbCopy b) &&
  decide (pbMomRnd b ≤ 1) && decide (pbCopyRnd b ≤ 1) && pbQsrc b != 3 &&
  (!pbUpdates b || (pbW b % 4 == 0 && pbM b % esz == 0)) && (!pbUsesV b || pbV b % esz == 0) &&
  pbG b % 4 == 0 && (!pbUsesC b || pbC b % pbCopySize b == 0) &&
  (pbRecipe b != 3 || pbP b % 16 == 0) && (!pbRen b || pbR b % 8 == 0) &&
  (!(pbUpdates b && pbClipSrc b) || pbAcc b % 8 == 0) &&
  (pbUpdates b || pbRen b) &&
  !anyMeet (pbWritten b) && (pbWritten b).all (fun w => !rangesMeet w (pbG b, 4 * pbCount b))

/-- The scope checks of R189. -/
def pbScopeOk (s : State) (p : Nat) (b : Bytes) : Bool :=
  (pbRead b).all (fun r => scopeOk s p .engine false r.1 r.2) &&
  (!pbUpdates b || (pbWritten b).all (fun r => scopeOk s p .engine true r.1 r.2)) &&
  (!pbRen b || scopeOk s p .engine true (pbR b) 48) &&
  (pbRecipe b != 3 || scopeOk s p .engine false (pbP b) 144) &&
  (!(pbUpdates b && pbClipSrc b) || scopeOk s p .engine false (pbAcc b) 32)

/-- Whether a range that the OPTIM touches is fenced: its block, the ranges of `pbScopeOk`. -/
def pbFenced (s : State) (p pbva : Nat) (b : Bytes) : Bool :=
  ((pbva, 160) :: pbRead b ++ (if pbUpdates b then pbWritten b else []) ++ (if pbRen b then [(pbR b, 48)] else []) ++
    (if pbRecipe b = 3 then [(pbP b, 144)] else []) ++
    (if pbUpdates b && pbClipSrc b then [(pbAcc b, 32)] else [])).any (fun r => fencedMem s p r.1 r.2)

/-! ### The engine that processes an element (R186) -/

/-- The operand whose lines choose the engines: W, or G of SSQ and AMAX. -/
def pbBase (b : Bytes) : Nat := if pbUpdates b then pbW b else pbG b

/-- The engine that processes element `i` of an OPTIM whose W (G) lies at `base`. -/
def engineFor (s : State) (p base i : Nat) : Nat := ucEngine (channelOf s (physAddr s p (base + 4 * i)) / 32)

/-- Consumption of the poison in a range of `n` bytes, each by the engine of its element; elements are `sz` bytes wide,
and the first of them is element `first` (R174, R186). With `sz` 0 the range belongs to element `first` as a whole. -/
def consumeByEngines (s : State) (p base va n sz first : Nat) (step : Option Nat) (oper : Nat) : State :=
  (poisonedAt s p va n).foldl (fun s x =>
    consume s p x.2 step (engineFor s p base (first + (if sz = 0 then 0 else x.1 / sz))) oper) s

/-- The ranges a recipe reads with the bytes of an element. -/
def pbOperands (b : Bytes) : List (Nat × Nat) :=
  (if pbUpdates b then
    [(pbW b, 4), (pbM b, pbMomSize b)] ++ (if pbUsesV b then [(pbV b, pbMomSize b)] else []) else []) ++ [(pbG b, 4)]

/-! ### Recipes (R192 to R197) -/

/-- An operation word (R196). -/
structure ROp where
  /-- OP. -/
  op : Nat
  /-- DST. -/
  dst : Nat
  /-- A. -/
  a : Nat
  /-- B. -/
  b : Nat := 0
  /-- C. -/
  c : Nat := 0
  deriving DecidableEq, Repr, Inhabited

/-- A recipe: operations and the slots stored to W, M and V; none stores nothing. -/
structure Recipe where
  /-- Operations in order. -/
  ops : List ROp
  /-- OUT0. -/
  w : Option Nat
  /-- OUT1. -/
  m : Option Nat
  /-- OUT2. -/
  v : Option Nat
  deriving DecidableEq, Repr, Inhabited

/-- AdamW as operations over the slots of R195 (R193). -/
def adamwRecipe : Recipe :=
  { ops :=
      [⟨3, 20, 3, 16, 0⟩,                                                   -- g = g * c
       ⟨3, 21, 5, 1, 0⟩, ⟨3, 22, 6, 20, 0⟩, ⟨1, 21, 21, 22, 0⟩,             -- m
       ⟨3, 23, 20, 20, 0⟩, ⟨3, 23, 8, 23, 0⟩, ⟨3, 22, 7, 2, 0⟩, ⟨1, 22, 22, 23, 0⟩, -- v
       ⟨6, 24, 22, 0, 0⟩, ⟨3, 24, 24, 12, 0⟩, ⟨1, 24, 24, 9, 0⟩,            -- s
       ⟨3, 25, 21, 11, 0⟩, ⟨5, 25, 25, 24, 0⟩, ⟨3, 26, 10, 0, 0⟩, ⟨1, 25, 25, 26, 0⟩, -- u
       ⟨3, 25, 4, 25, 0⟩, ⟨2, 20, 0, 25, 0⟩]                                -- w
    w := some 20, m := some 21, v := some 22 }

/-- SGD with momentum (R193). -/
def sgdRecipe : Recipe :=
  { ops :=
      [⟨3, 20, 3, 16, 0⟩, ⟨3, 21, 10, 0, 0⟩, ⟨1, 20, 20, 21, 0⟩,
       ⟨3, 22, 5, 1, 0⟩, ⟨3, 23, 6, 20, 0⟩, ⟨1, 22, 22, 23, 0⟩,
       ⟨3, 24, 4, 22, 0⟩, ⟨2, 24, 0, 24, 0⟩]
    w := some 24, m := some 22, v := none }

/-- Lion (R193). -/
def lionRecipe : Recipe :=
  { ops :=
      [⟨3, 20, 3, 16, 0⟩,
       ⟨3, 21, 5, 1, 0⟩, ⟨3, 22, 6, 20, 0⟩, ⟨1, 21, 21, 22, 0⟩, ⟨11, 21, 21, 0, 0⟩, ⟨3, 22, 10, 0, 0⟩, ⟨1, 21, 21, 22, 0⟩,
       ⟨3, 23, 4, 21, 0⟩, ⟨2, 23, 0, 23, 0⟩,
       ⟨3, 24, 7, 1, 0⟩, ⟨3, 25, 8, 20, 0⟩, ⟨1, 24, 24, 25, 0⟩]
    w := some 23, m := some 24, v := none }

/-- Whether a slot number is a temporary. -/
def isTemp (n : Nat) : Bool := decide (20 ≤ n) && decide (n < 32)

/-- Operands that an OP uses: A, B, C; none for an unlisted OP (R196). -/
def ropArity (op : Nat) : Option (Bool × Bool × Bool) :=
  match op with
  | 1 | 2 | 3 | 5 | 7 | 8 | 13 => some (true, true, false)
  | 4 | 12 => some (true, true, true)
  | 6 | 9 | 10 | 11 => some (true, false, false)
  | _ => none

/-- The operation of a word. -/
def ropOf (w : Nat) : ROp := ⟨natFld w 0 6, natFld w 6 5, natFld w 11 5, natFld w 16 5, natFld w 21 5⟩

/-- The check of R197 on a word. -/
def ropOk (w : Nat) : Bool :=
  let o := ropOf w
  natFld w 26 6 == 0 && isTemp o.dst &&
  match ropArity o.op with
  | none => false
  | some (_, ub, uc) => o.a != 19 && (!ub || o.b != 19) && (!uc || o.c != 19)

/-- The recipe of the 144 bytes at PADDR; none where R197 fails. -/
def recipeOf (bs : Bytes) : Option Recipe :=
  let n := leAt bs 2 1
  let w (i : Nat) : Nat := leAt bs (16 + 4 * i) 4
  let out (i : Nat) : Nat := leAt bs (4 + i) 1
  if leAt bs 0 2 = 0x5052 ∧ 1 ≤ n ∧ n ≤ 32 ∧ zerosAt bs [(3, 1), (7, 9), (16 + 4 * n, 128 - 4 * n)] ∧
      (List.range n).all (fun i => ropOk (w i)) ∧ (List.range 3).all (fun i => out i == 0xFF || isTemp (out i)) then
    let o (i : Nat) : Option Nat := if out i = 0xFF then none else some (out i)
    some ⟨(List.range n).map (fun i => ropOf (w i)), o 0, o 1, o 2⟩
  else none

/-- The recipe of a parameter block, given the bytes at PADDR. -/
def pbRecipeOf (b prog : Bytes) : Option Recipe :=
  match pbRecipe b with
  | 0 => some adamwRecipe
  | 1 => some sgdRecipe
  | 2 => some lionRecipe
  | 3 => recipeOf prog
  | _ => some ⟨[], none, none, none⟩

/-- One operation (R192, R196): the result as FP32 with its events. -/
def ropVal (op : Nat) (a b c : BitVec 32) : BitVec 32 × Evs :=
  let x := f32 a
  let y := f32 b
  let z := f32 c
  let one : FVal := .fin false 1 0
  let zero : FVal := .fin false 0 0
  let r := match op with
    | 1 => ieeeOp fp32 [x, y] (x.add y)
    | 2 => ieeeOp fp32 [x, y] (x.add y.negate)
    | 3 => ieeeOp fp32 [x, y] (x.mul y)
    | 4 => ieeeOp fp32 [x, y, z] ((x.mul y).add z)
    | 5 => ieeeOp fp32 [x, y] (x.div y)
    | 6 => ieeeOp fp32 [x] x.sqrt
    | 7 => ieeeOp fp32 [x, y] (x.min y)
    | 8 => ieeeOp fp32 [x, y] (x.max y)
    | 9 => ieeeOp fp32 [x] x.abs
    | 10 => ieeeOp fp32 [x] x.negate
    | 11 => ieeeOp fp32 [x] x.sign
    | 12 => if c = 0 then ieeeOp fp32 [y] y else ieeeOp fp32 [x] x
    | _ => ieeeOp fp32 [x, y] (if x.lt y then one else zero)
  (BitVec.ofNat 32 r.1, r.2)

/-- A slot's word. -/
def slotW (l : List (BitVec 32)) (i : Nat) : BitVec 32 := l.getD i 0

/-- The operations of a recipe over its 32 slots. -/
def runRecipe (ops : List ROp) (l : List (BitVec 32)) : List (BitVec 32) × Evs :=
  ops.foldl (fun a o =>
    let r := ropVal o.op (slotW a.1 o.a) (slotW a.1 o.b) (slotW a.1 o.c)
    (a.1.set o.dst r.1, a.2.add r.2)) (l, {})

/-- What an OPTIM fixes before its elements. -/
structure OptEnv where
  /-- Parameter block. -/
  block : Bytes
  /-- Recipe. -/
  recipe : Recipe
  /-- c. -/
  clip : BitVec 32
  /-- q. -/
  q : BitVec 32
  /-- Step, for SR. -/
  step : Nat
  deriving DecidableEq, Repr, Inhabited

/-- The stored results of one element. -/
structure OptElem where
  /-- New w. -/
  w : BitVec 32
  /-- Stored M code; none where nothing is stored. -/
  m : Option Nat
  /-- Stored V code. -/
  v : Option Nat
  /-- Stored copy code. -/
  c : Option Nat
  /-- Events. -/
  evs : Evs
  /-- Some written element is NaN or infinite. -/
  nonfinite : Bool
  deriving DecidableEq, Repr, Inhabited

/-- A moment's format. -/
def momFmt (b : Bytes) : FpFmt := if pbMom b = 0 then fp32 else bf16

/-- The copy's format. -/
def copyFmt (b : Bytes) : FpFmt := if pbCopy b = 1 then bf16 else if pbCopy b = 3 then e4m3 else e5m2

/-- An exact value stored under a rounding mode (R44, R45) with its events and whether the stored code is non-finite. -/
def storeConv (f : FpFmt) (rnd : Rnd) (v : FVal) (hadNan : Bool) : Nat × Evs × Bool :=
  let r := fpRound f rnd v
  let o := fpDecode f r.1
  (r.1, { nan := b2n (o.isNan && !hadNan), sat := b2n (r.2 == .saturated) }, o.isNan || o.isInf)

/-- An FP32 word stored in a format. -/
def storeConv32 (f : FpFmt) (rnd : Rnd) (x : BitVec 32) : Nat × Evs × Bool := storeConv f rnd (f32 x) (f32 x).isNan

/-- One element of an update (R192 to R197): element `i` from its W, M, V and G, each in FP32. -/
def optElem (e : OptEnv) (i : Nat) (w m v g : BitVec 32) : OptElem :=
  let b := e.block
  let hs := (List.range 12).map (fun j => pb32 b (112 + 4 * j))
  let slots := [w, m, v, g] ++ hs ++ [e.clip, 0, 0x3F800000, 0] ++ List.replicate 12 0
  let (l, ev) := runRecipe e.recipe.ops slots
  let pos := (pbPos0 b + i) % 2 ^ 48
  let neww := match e.recipe.w with
    | some k => slotW l k
    | none => w
  let mom (k : Option Nat) (tid : Nat) : Option (Nat × Evs × Bool) :=
    k.map (fun k => storeConv32 (momFmt b) (rndOf (pbMomRnd b) e.step tid pos) (slotW l k))
  let rm := mom e.recipe.m (pbF b 38 2)
  let rv := if pbUsesV b then mom e.recipe.v (pbF b 46 2) else none
  let prod := (f32 neww).mul (f32 e.q)
  let rc := if pbUsesC b then
      some (storeConv (copyFmt b) (rndOf (pbCopyRnd b) e.step (pbCTid b) pos) prod ((f32 neww).isNan || (f32 e.q).isNan))
    else none
  let ev1 (r : Option (Nat × Evs × Bool)) : Evs := match r with
    | some x => x.2.1
    | none => {}
  let bad (r : Option (Nat × Evs × Bool)) : Bool := match r with
    | some x => x.2.2
    | none => false
  { w := neww, m := rm.map (·.1), v := rv.map (·.1), c := rc.map (·.1)
    evs := ((ev.add (ev1 rm)).add (ev1 rv)).add (ev1 rc)
    nonfinite := (e.recipe.w.isSome && ((f32 neww).isNan || (f32 neww).isInf)) || bad rm || bad rv || bad rc }

/-! ### The clip factor (R191) -/

/-- c for a CLIP_ACC: 1.0 or MAXNORM / n. -/
def clipFactor (acc : ExAcc) (maxnorm : BitVec 32) : BitVec 32 :=
  let n := BitVec.ofNat 32 (ieeeRound fp32 (f32 acc.toF32).sqrt)
  match f32 maxnorm with
  | .fin false m _ =>
    if m = 0 ∨ (f32 maxnorm).lt (f32 n) = false then 0x3F800000
    else BitVec.ofNat 32 (ieeeRound fp32 ((f32 maxnorm).div (f32 n)))
  | _ => 0x3F800000

/-- c, and whether it makes the engines skip the update. -/
def clipOf (b accBytes : Bytes) : BitVec 32 × Bool :=
  if pbClipSrc b then
    let acc := ExAcc.ofBytes accBytes
    if acc.nan || acc.inf then (acc.toF32, true) else (clipFactor acc (pb32 b 92), false)
  else
    let c := pb32 b 88
    (c, (f32 c).isNan || (f32 c).isInf)

/-! ### The update over all elements -/

/-- Element `i` of `n` bytes of a blob as an FP32 word: FP32 or BF16 by size. -/
def elem32 (bs : Bytes) (n i : Nat) : BitVec 32 :=
  let x := leAt bs (n * i) n
  if n = 2 then toF32 (fpDecode bf16 x) else BitVec.ofNat 32 x

/-- Bytes of a list of codes, with the poison of the listed elements. -/
def codesBlob (n : Nat) (cs : List (Nat × Bool)) : Blob :=
  ⟨cs.flatMap (fun c => leBytes n c.1), (cs.zipIdx.filter (fun x => x.1.2)).map (fun x => (n * x.2, n))⟩

/-- The outcome of an update's elements. -/
structure OptResult where
  /-- New w and poison per element. -/
  ws : List (BitVec 32 × Bool)
  /-- M codes. -/
  ms : Option (List (Nat × Bool))
  /-- V codes. -/
  vs : Option (List (Nat × Bool))
  /-- Copy codes. -/
  cs : Option (List (Nat × Bool))
  /-- Events. -/
  evs : Evs
  /-- A written element is non-finite. -/
  nonfinite : Bool
  /-- Some input element was poisoned. -/
  poisoned : Bool
  deriving DecidableEq, Repr, Inhabited

/-- The elements `first .. first + n - 1` of an update, from the blobs of its operands. -/
def optElems (e : OptEnv) (first n : Nat) (w m v g : Blob) (allBad : Bool) : OptResult :=
  let sz := pbMomSize e.block
  let rs := (List.range n).map (fun i =>
    let bad := allBad || w.badIn (4 * i) 4 || m.badIn (sz * i) sz || v.badIn (sz * i) sz || g.badIn (4 * i) 4
    (optElem e (first + i) (elem32 w.data 4 i) (elem32 m.data sz i) (elem32 v.data sz i) (elem32 g.data 4 i), bad))
  let col (k : OptElem → Option Nat) (on : Bool) : Option (List (Nat × Bool)) :=
    if on then some (rs.map (fun r => ((k r.1).getD 0, r.2))) else none
  { ws := rs.map (fun r => (r.1.w, r.2))
    ms := col OptElem.m e.recipe.m.isSome
    vs := col OptElem.v (pbUsesV e.block && e.recipe.v.isSome)
    cs := col OptElem.c (pbUsesC e.block)
    evs := rs.foldl (fun a r => a.add r.1.evs) {}
    nonfinite := rs.any (fun r => r.1.nonfinite)
    poisoned := rs.any (·.2) }

/-- Where an update's operands lie: virtual addresses of element 0; none where the facing page does not update one. -/
structure OptPlace where
  /-- W. -/
  w : Option Nat
  /-- M. -/
  m : Option Nat
  /-- V. -/
  v : Option Nat
  /-- C. -/
  c : Option Nat
  deriving DecidableEq, Repr, Inhabited

/-- The results of an update written for a step. -/
def optStore (s : State) (p : Nat) (e : OptEnv) (pl : OptPlace) (first : Nat) (r : OptResult) (step : Option Nat) : State :=
  let sz := pbMomSize e.block
  let put (s : State) (va : Option Nat) (n : Nat) (cs : Option (List (Nat × Bool))) : State := match va, cs with
    | some a, some l => vwriteFor s p (a + n * first) (codesBlob n l) step
    | _, _ => s
  let s := put s pl.w 4 (if e.recipe.w.isSome then some (r.ws.map (fun x => (x.1.toNat, x.2))) else none)
  let s := put s pl.m sz r.ms
  let s := put s pl.v sz r.vs
  put s pl.c (pbCopySize e.block) r.cs

/-- The largest magnitude of the non-NaN words, and whether one was NaN (R198). -/
def amaxOf (ws : List (BitVec 32)) : BitVec 32 × Bool :=
  (ws.foldl (fun a x => if (f32 x).isNan then a else maxF a (x &&& 0x7FFFFFFF)) 0, ws.any (fun x => (f32 x).isNan))

/-- The 48 bytes of a result record (R190). -/
def resultRecord (ev : Evs) (clip : BitVec 32) (tail : Bytes) : Bytes :=
  let c (n : Nat) : Bytes := leBytes 4 (min n (2 ^ 32 - 1))
  c ev.nan ++ c ev.inf ++ c ev.sat ++ leBytes 4 clip.toNat ++ sub tail 0 32

/-- The result record written, when REN is 1. -/
def putResult (s : State) (p : Nat) (b bytes : Bytes) (poison : Bool) (step : Option Nat) : State :=
  if pbRen b then vwriteFor s p (pbR b) ⟨bytes, if poison then [(0, 48)] else []⟩ step else s

/-! ### Mirror bookkeeping (R206, 11 R340) -/

/-- The facing rank's MIRRORED pages by ordinal, taken as the own ones unless the environment says otherwise (log 23). -/
def farOrdinals (s : State) (p : Nat) : List Nat := (mirror s p).farOrdinals.getD (mirror s p).ordinals

/-- Ordinals of the pages of a range among numbered pages, when every page of it has one (R206, R214). -/
def ordinalsIn (os : List Nat) (va n : Nat) : Option (List Nat) :=
  let vs := pagesIn va n
  if !vs.isEmpty && vs.all (fun v => os.contains v) then some (vs.filterMap (fun v => os.findIdx? (· == v))) else none

/-- The ranges an update stores to: those of `pbWritten` less the ones its recipe leaves alone. -/
def pbStored (b : Bytes) (r : Recipe) : List (Nat × Nat) :=
  let n := pbCount b
  (if r.w.isSome then [(pbW b, 4 * n)] else []) ++ (if r.m.isSome then [(pbM b, pbMomSize b * n)] else []) ++
  (if pbUsesV b && r.v.isSome then [(pbV b, pbMomSize b * n)] else []) ++
  (if pbUsesC b then [(pbC b, pbCopySize b * n)] else [])

/-- Mirror ordinals that an update writes, among the owner's numbered pages. -/
def storedOrdinals (os : List Nat) (b : Bytes) (r : Recipe) : List Nat :=
  (pbStored b r).flatMap (fun x => (ordinalsIn os x.1 x.2).getD [])

/-- Whether an OPTIM sends its elements to the facing rank (11 R340). -/
def mirrors (s : State) (p : Nat) (b : Bytes) : Bool :=
  pbUpdates b && hasFacing s p &&
  (pbWritten b).any (fun x => (pagesIn x.1 x.2).any (fun v => (mirror s p).ordinals.contains v))

/-- Elements of a portion: the facing rank's MIR_GPAGES (log 23) times 2^17 (11 R339). -/
def portionSize (s : State) (p : Nat) : Nat :=
  max 1 ((mirror s p).farGpages.getD (regF s (.part p) 0x080049C 0 22) * 2 ^ 17)

/-- The portions of an OPTIM queued for the facing rank (11 R339, R340). -/
def queuePortions (s : State) (p n : Nat) (e : OptEnv) (g : Bytes) : State :=
  let k := (match stepRec s p n with
    | some r => r.optims
    | none => 0)
  let sz := portionSize s p
  let cnt := pbCount e.block
  let ps := (List.range ((cnt + sz - 1) / sz)).map (fun i =>
    let c := min sz (cnt - sz * i)
    ({ step := n, optim := k, block := e.block, clip := e.clip, q := e.q, first := sz * i, count := c
       got := mofList 0 0 ((g.drop (4 * sz * i)).take (4 * c)), landed := 0 } : Portion))
  let s := updMirror s p (fun x => { x with out := x.out ++ ps })
  updStep s p n (fun r => { r with optims := r.optims + 1 })

/-! ### The OPTIM at its owner -/

/-- The fit check of R212: for every journal stack, the records the OPTIM adds with those of the open step. -/
def journalFits (s : State) (p n : Nat) (ranges : List (Nat × Nat)) : Bool :=
  let js := (part s p).journal.filter (fun g => g.step == n)
  let vs := (ranges.flatMap (fun r => pagesIn r.1 r.2)).foldl (fun l v => sins l v) []
  let new := vs.filter (fun v => tteJournal (tte s p v) &&
    !js.any (fun g => g.records.any (fun r => r.ppn == ttePpn (tte s p v))))
  (partStacks s p).all (fun k =>
    let c := (new.filter (fun v => journalStack s p v (ttePpn (tte s p v)) == k)).length
    let own := js.filter (fun g => g.stack == k)
    let have_ := if own.isEmpty then 64 else own.foldl (fun a g => a + segBytes g) 0
    c == 0 || decide (have_ + c * (64 + pageSize) ≤ journalArea s k))

/-- q of an OPTIM (R187, R203). -/
def optQ (s : State) (p n : Nat) (b : Bytes) : BitVec 32 :=
  match pbQsrc b with
  | 0 => 0x3F800000
  | 1 => pb32 b 96
  | _ => scaleFor (scaleE s (scaleIndex s p (pbCTid b))) n (proof s p).w

/-- An OPTIM with COUNT 0 (R190): the result record alone, when its page allows it; the omission is recorded. -/
def optimEmpty (s : State) (p : Nat) (b : Bytes) (bad : Bool) : State :=
  if pbRen b then
    if scopeOk s p .engine true (pbR b) 48 then
      let rec_ := resultRecord {} 0x3F800000 []
      vwriteFor s p (pbR b) ⟨rec_, if bad then [(0, 48)] else []⟩ none
    else record s p (ucEngine (p * nstacks s)) (operEngine (pbRecipe b)) 0x0002 (leBytes 4 (pbR b) ++ zeros 4 ++ leBytes 1 1)
  else s

/-- An OPTIM that updates operands, its checks passed. -/
def optimUpdate (s : State) (p n : Nat) (b : Bytes) (r : Recipe) (acc : Bytes) (bad : Bool) : State × St :=
  let (c, skip) := clipOf b acc
  let e : OptEnv := { block := b, recipe := r, clip := c, q := optQ s p n b, step := n }
  let oper := operEngine (pbRecipe b)
  let g := vread s p (pbG b) (4 * pbCount b)
  let mirrored := mirrors s p b
  if skip then
    let s := if mirrored then queuePortions s p n e g.data else s
    (putResult s p b (resultRecord {} c []) bad none, if bad then .poisoned else .doneNonfinite)
  else
    let sz := pbMomSize b
    let cnt := pbCount b
    let w := vread s p (pbW b) (4 * cnt)
    let m := vread s p (pbM b) (sz * cnt)
    let v := if pbUsesV b then vread s p (pbV b) (sz * cnt) else ⟨[], []⟩
    let s := (pbOperands b).foldl (fun s x => consumeByEngines s p (pbW b) x.1 (x.2 * cnt) x.2 0 (some n) oper) s
    let o := optElems e 0 cnt w m v g bad
    let s := if mirrored then queuePortions s p n e g.data else s
    let ords := storedOrdinals (mirror s p).ordinals b r
    let s := updStep s p n (fun x => { x with digestSet := ords.foldl sins x.digestSet })
    let s := optStore s p e ⟨some (pbW b), some (pbM b), some (pbV b), some (pbC b)⟩ 0 o (some n)
    let s := if pbCamax b then
        let a := amaxOf (o.ws.map (·.1))
        mergeMax s p (scaleIndex s p (pbCTid b)) n a.1 a.2 (engineFor s p (pbW b) 0)
      else s
    let s := match pbStrict b, o.ws.findIdx? (fun x => (f32 x.1).isNan || (f32 x.1).isInf) with
      | true, some i => raise s p 0x06 (some n) (engineFor s p (pbW b) i)
      | _, _ => s
    let s := putResult s p b (resultRecord o.evs c []) bad (some n)
    (s, if bad || o.poisoned then .poisoned else if o.nonfinite then .doneNonfinite
        else if 0 < o.evs.sat then .doneSat else .done)

/-- SSQ or AMAX (R198), its checks passed. -/
def optimReduce (s : State) (p n : Nat) (b : Bytes) (bad : Bool) : State × St :=
  let g := vread s p (pbG b) (4 * pbCount b)
  let s := consumeByEngines s p (pbG b) (pbG b) (4 * pbCount b) 4 0 (some n) (operEngine (pbRecipe b))
  let ws := (List.range (pbCount b)).map (elem32 g.data 4)
  let pz := bad || g.bad
  if pbRecipe b = 4 then
    let acc := ws.foldl (fun a x => a.input (f32 x)) ({} : ExAcc)
    (putResult s p b (resultRecord {} 0x3F800000 acc.bytes) pz (some n),
     if pz then .poisoned else if acc.nan || acc.inf then .doneNonfinite else .done)
  else
    let a := amaxOf ws
    let s := if pbCamax b then mergeMax s p (scaleIndex s p (pbCTid b)) n a.1 a.2 (engineFor s p (pbG b) 0) else s
    (putResult s p b (resultRecord {} 0x3F800000 (leBytes 4 a.1.toNat ++ leBytes 1 (b2n a.2))) pz (some n),
     if pz then .poisoned else if (f32 a.1).isInf then .doneNonfinite else .done)

/-- The OPTIM of a parameter block for the open step (R189, R190): the state and the status. -/
def optimRun (s : State) (p pbva : Nat) (step : Option Nat) (bodyOk : Bool) : State × St :=
  if !scopeOk s p .engine false pbva 160 then (s, .outOfScope)
  else
    let blk := vread s p pbva 160
    let b := blk.data
    match step with
    | none => (s, .badDesc)
    | some n =>
      if !bodyOk || !pbFormatOk b then (s, .badDesc)
      else
        let oper := operEngine (pbRecipe b)
        let whole (s : State) (va n : Nat) : State := consumeByEngines s p (pbBase b) va n 0 0 step oper
        if pbFenced s p pbva b then (s, .fenced)
        else if pbCount b = 0 then (optimEmpty (whole s pbva 160) p b blk.bad, .doneEmpty)
        else if !pbScopeOk s p b then (s, .outOfScope)
        else
          let usesP := pbRecipe b == 3
          let usesA := pbUpdates b && pbClipSrc b
          let prog := vread s p (pbP b) (if usesP then 144 else 0)
          let acc := vread s p (pbAcc b) (if usesA then 32 else 0)
          match pbRecipeOf b prog.data with
          | none => (s, .badDesc)
          | some r =>
            let stored := (if pbUpdates b then pbStored b r else []) ++ (if pbRen b then [(pbR b, 48)] else [])
            if !journalFits s p n stored then (s, .badDesc)
            else
              let bad := blk.bad || prog.bad || acc.bad
              let s := whole s pbva 160
              let s := if usesP then whole s (pbP b) 144 else s
              let s := if usesA then whole s (pbAcc b) 32 else s
              if pbUpdates b then optimUpdate s p n b r acc.data bad else optimReduce s p n b bad

/-- The ranges that an OPTIM writes for its step, from its parameter block: none where its update is skipped (R191). -/
def optimWrites (s : State) (p : Nat) (b : Bytes) : List (Nat × Nat) :=
  if pbCount b = 0 then []
  else
    let ren := if pbRen b then [(pbR b, 48)] else []
    if pbUpdates b then
      match pbRecipeOf b (vread s p (pbP b) (if pbRecipe b = 3 then 144 else 0)).data with
      | some r =>
        if (clipOf b (vread s p (pbAcc b) (if pbClipSrc b then 32 else 0)).data).2 then [] else pbStored b r ++ ren
      | none => []
    else ren

/-! ### The facing page (R214, 11 R340) -/

/-- The mirror-window address of an owner's operand range, when every page of it has an ordinal (log 23). -/
def windowAddr (s : State) (p va n : Nat) : Option Nat :=
  match ordinalsIn (farOrdinals s p) va n with
  | some (o :: _) => some (((mirWindow s p).1 + o) * pageSize + va % pageSize)
  | _ => none

/-- Where a portion's operands lie in the mirror window. -/
def portionPlace (s : State) (p : Nat) (b : Bytes) : OptPlace :=
  let cnt := pbCount b
  let sz := pbMomSize b
  { w := windowAddr s p (pbW b) (4 * cnt), m := windowAddr s p (pbM b) (sz * cnt)
    v := if pbUsesV b then windowAddr s p (pbV b) (sz * cnt) else none
    c := if pbUsesC b then windowAddr s p (pbC b) (pbCopySize b * cnt) else none }

/-- The parts of the operands in the mirror window that a portion updates: address, element bytes. -/
def portionParts (b : Bytes) (pl : OptPlace) : List (Nat × Nat) :=
  ([(pl.w, 4), (pl.m, pbMomSize b), (pl.v, pbMomSize b), (pl.c, pbCopySize b)] : List (Option Nat × Nat)).filterMap
    (fun x => x.1.map (fun a => (a, x.2)))

/-- The ranges of the mirror window that a portion updates. -/
def portionRanges (s : State) (p : Nat) (o : Portion) : List (Nat × Nat) :=
  (portionParts o.block (portionPlace s p o.block)).map (fun x => (x.1 + x.2 * o.first, x.2 * o.count))

/-- Whether a portion waits for room in the undo journal (R211). -/
def portionStalls (s : State) (p : Nat) (o : Portion) : Bool := journalStalls s p (some o.step) (portionRanges s p o)

/-- A portion applied at the facing page: the recipe over the mirror window with G from the staging window. A failed
check, that of R212 among them, raises MIRROR_CHECK. Poison of the recipe is consumed and spreads to every result. -/
def applyPortion (s : State) (p : Nat) (o : Portion) : State × St :=
  let b := o.block
  let cnt := pbCount b
  let sz := pbMomSize b
  let fail (st : St) : State × St := (raise s p 0x0A (some o.step) (ucXport p), st)
  let prog : Option Blob := if pbRecipe b = 3 then
      (if scopeOk s p .engine false (pbP b) 144 then some (vread s p (pbP b) 144) else none)
    else some ⟨[], []⟩
  match prog with
  | none => fail .outOfScope
  | some prog =>
    match pbRecipeOf b prog.data with
    | none => fail .badDesc
    | some r =>
      if !pbFormatOk b || !pbUpdates b || decide (cnt < o.first + o.count) ||
          decide (regF s (.part p) 0x080049C 0 22 * 2 ^ 17 < o.count) then fail .badDesc
      else
        let pl := portionPlace s p b
        let ranges := portionRanges s p o
        let gva := regF s (.part p) 0x0800498 0 28 * pageSize
        if !ranges.all (fun x => scopeOk s p .engine true x.1 x.2 && scopeOk s p .engine false x.1 x.2) ||
            !scopeOk s p .engine false gva (4 * o.count) then fail .outOfScope
        else if !journalFits s p o.step ranges then fail .badDesc
        else if (f32 o.clip).isNan || (f32 o.clip).isInf then (s, .doneNonfinite)
        else
          let e : OptEnv := { block := b, recipe := r, clip := o.clip, q := o.q, step := o.step }
          let rd (a : Option Nat) (n : Nat) : Blob := match a with
            | some a => vread s p (a + n * o.first) (n * o.count)
            | none => ⟨zeros (n * o.count), []⟩
          let g := vread s p gva (4 * o.count)
          let res := optElems e o.first o.count (rd pl.w 4) (rd pl.m sz) (rd pl.v sz) g prog.bad
          let oper := operEngine (pbRecipe b)
          -- The engine is that of the element's W line in the window, or of its G line where no W is updated here.
          let base := match pl.w with
            | some a => a + 4 * o.first
            | none => gva
          let s := if pbRecipe b = 3 then consumeByEngines s p base (pbP b) 144 0 0 (some o.step) oper else s
          let s := (portionParts b pl).foldl (fun s x =>
            consumeByEngines s p base (x.1 + x.2 * o.first) (x.2 * o.count) x.2 0 (some o.step) oper) s
          let s := consumeByEngines s p base gva (4 * o.count) 4 0 (some o.step) oper
          let ords := storedOrdinals (farOrdinals s p) b r
          let s := updMirror s p (fun x => { x with
            facingSet := mset x.facingSet [] o.step (ords.foldl sins (mget x.facingSet [] o.step)) })
          (optStore s p e pl o.first res (some o.step),
           if res.poisoned then .poisoned else if res.nonfinite then .doneNonfinite else if 0 < res.evs.sat then .doneSat else .done)

end Sys2Proof.Machine
end

