-- ==== Sys2Proof/Machine/Transport.lean ====
section
/-! DEFINITION. Put and get, collectives (10_jilan_transport.md R301, R311 to R318) and the ordered tree of the reducers
(04_stream_fabric.md R113, R114). -/

namespace Sys2Proof.Machine

/-! ### The ordered tree (04 R113, R114) -/

/-- Neighbours paired, an odd last one carried up. -/
def pairUp {α : Type} (f : α → α → α) : List α → List α
  | a :: b :: r => f a b :: pairUp f r
  | l => l

/-- The ordered tree over a list, level by level, for at most `n` levels. -/
def treeOf {α : Type} (f : α → α → α) : Nat → List α → Option α
  | 0, l => l.head?
  | n + 1, l => match l with
    | [] => none
    | [a] => some a
    | l => treeOf f n (pairUp f l)

/-- The tree over any list shorter than 2^64. -/
def orderedTree {α : Type} (f : α → α → α) (l : List α) : Option α := treeOf f 64 l

/-- An FP32 word with every NaN canonical (02 R37): what the fabric hands on even of a single member (R105). -/
def canon32 (x : BitVec 32) : BitVec 32 := if (f32 x).isNan then BitVec.ofNat 32 (fp32.nanCode.getD x.toNat) else x

/-- SUM, MAX and MIN of 32-bit words in FP32 or INT32 (R114): operator 0, 1, 2. -/
def redWord (op : Nat) (int : Bool) (a b : BitVec 32) : BitVec 32 × Evs :=
  if int then
    (match op with
      | 0 => a + b
      | 1 => if a.toInt < b.toInt then b else a
      | _ => if a.toInt < b.toInt then a else b, {})
  else
    let x := f32 a
    let y := f32 b
    let r := ieeeOp fp32 [x, y] (match op with
      | 0 => x.add y
      | 1 => x.max y
      | _ => x.min y)
    (BitVec.ofNat 32 r.1, r.2)

/-- The tree over words with its events. -/
def treeWords (op : Nat) (int : Bool) (l : List (BitVec 32)) : BitVec 32 × Evs :=
  (orderedTree (fun (a b : BitVec 32 × Evs) =>
    let r := redWord op int a.1 b.1
    (r.1, (a.2.add b.2).add r.2)) (l.map (fun x => (if int then x else canon32 x, {})))).getD (0, {})

/-! ### Group families (R301) -/

/-- STRIDE and SIZE of a family; SIZE 0 for an unused one. -/
def familyOf (s : State) (p g : Nat) : Nat × Nat := match (xport s p).imp with
  | some m => mget m.families (0, 0) g
  | none => (0, 0)

/-- The ranks of the own group of a family, in group-rank order. -/
def groupRanks (s : State) (p g : Nat) : List Nat :=
  let (st, z) := familyOf s p g
  if z = 0 ∨ st = 0 then []
  else
    let r := ownRank s p
    let base := r / (st * z) * (st * z) + r % st
    (List.range z).map (fun i => base + i * st)

/-- The own group rank. -/
def groupRank (s : State) (p g : Nat) : Nat :=
  let (st, z) := familyOf s p g
  if z = 0 ∨ st = 0 then 0 else ownRank s p % (st * z) / st

/-! ### The COLLECTIVE body (08 R239) -/

/-- COP. -/
def coCop (d : Desc) : Nat := dF d 8 0 8
/-- ROP. -/
def coRop (d : Desc) : Nat := dF d 9 0 4
/-- DTYPE. -/
def coDtype (d : Desc) : Nat := dF d 9 4 4
/-- DVC. -/
def coDvc (d : Desc) : Nat := dF d 10 0 2
/-- GROUP. -/
def coGroup (d : Desc) : Nat := dF d 12 0 16
/-- PEER. -/
def coPeer (d : Desc) : Nat := dF d 14 0 16
/-- SRC. -/
def coSrc (d : Desc) : Nat := dF d 16 0 48
/-- DST. -/
def coDst (d : Desc) : Nat := dF d 24 0 48
/-- COUNT. -/
def coCount (d : Desc) : Nat := dF d 32 0 40
/-- CSEQ. -/
def coCseq (d : Desc) : Nat := dF d 40 0 32

/-- Element size: 4 or 32 for COP 0 and 1, else 1 (R315, R318). -/
def coElem (d : Desc) : Nat := if coCop d ≤ 1 then (if coRop d = 3 then 32 else 4) else 1

/-- Bytes that one member contributes to another (R315). -/
def coLen (d : Desc) : Nat := if coCop d = 5 then 0 else coCount d * coElem d

/-- Bytes of the SRC range in a group of `n`. -/
def coSrcLen (d : Desc) (n : Nat) : Nat := if coCop d = 1 ∨ coCop d = 4 then n * coLen d else coLen d

/-- Bytes of the DST range in a group of `n`. -/
def coDstLen (d : Desc) (n : Nat) : Nat := if coCop d = 2 ∨ coCop d = 4 then n * coLen d else coLen d

/-- Whether the own SRC is read: always but at a member of a BROADCAST that is not its root. -/
def coReads (d : Desc) (own : Nat) : Bool := coCop d != 3 || coPeer d == own

/-- The BAD_DESC checks of R315 and R318. -/
def coOk (s : State) (p : Nat) (d : Desc) : Bool :=
  let ranks := groupRanks s p (coGroup d)
  let n := ranks.length
  let al := if coElem d = 32 then 8 else coElem d
  decide (coGroup d ≤ 255) && decide (0 < n) &&
  (decide (1 < coCop d) || (decide (coRop d ≤ 3) && (coRop d == 3 || coDtype d == 0 || coDtype d == 6))) &&
  (coCop d != 3 || decide (coPeer d < n)) && (coCop d != 5 || coCount d == 0) &&
  coSrc d % al == 0 && coDst d % al == 0 &&
  (!rangesMeet (coSrc d, coSrcLen d n) (coDst d, coDstLen d n) || ((coCop d == 0 || coCop d == 3) && coSrc d == coDst d))

/-- The local ranges in scope. -/
def coScope (s : State) (p : Nat) (d : Desc) : Bool :=
  let n := (groupRanks s p (coGroup d)).length
  (!coReads d (groupRank s p (coGroup d)) || scopeOk s p .peer false (coSrc d) (coSrcLen d n)) &&
  scopeOk s p .peer true (coDst d) (coDstLen d n)

/-- Whether a local range is fenced. -/
def coFenced (s : State) (p : Nat) (d : Desc) : Bool :=
  let n := (groupRanks s p (coGroup d)).length
  fencedMem s p (coSrc d) (coSrcLen d n) || fencedMem s p (coDst d) (coDstLen d n)

/-! ### Collectives (R314 to R317) -/

/-- The data of a COLL_READY (R314). -/
def readyData (d : Desc) : Bytes :=
  leBytes 1 (coCop d) ++ leBytes 1 (coRop d) ++ leBytes 1 (coDtype d) ++ zeros 1 ++ leBytes 2 (coPeer d) ++ zeros 2 ++ leBytes 5 (coCount d)

/-- Whether a COLL_READY matches the own collective. -/
def readyMatches (d : Desc) (cseq : Nat) (data : Bytes) : Bool := cseq == coCseq d && sub data 0 13 == readyData d

/-- A collective by its identity. -/
def collOf (s : State) (p id : Nat) : Option Coll := (xport s p).colls.find? (fun c => c.id == id)

/-- A collective updated. -/
def updColl (s : State) (p id : Nat) (f : Coll → Coll) : State :=
  updXport s p (fun x => { x with colls := x.colls.map (fun c => if c.id = id then f c else c) })

/-- The flight of a transport operation. -/
def xportFlight (s : State) (p : Nat) (w : Waits) : Option Flight := (hport s (partHp s p)).flights.find? (fun f => f.waits == w)

/-- The contribution of the own SRC to group rank `i`. -/
def contribution (s : State) (p : Nat) (d : Desc) (i : Nat) : Blob :=
  let l := coLen d
  match coCop d with
  | 1 | 4 => vread s p (coSrc d + i * l) l
  | _ => vread s p (coSrc d) l

/-- Bytes of a contribution added. -/
def addData (c : Coll) (r off : Nat) (b : Blob) : Coll :=
  { c with data := c.data.filter (fun x => !(x.1 == r && decide (off ≤ x.2.1) && decide (x.2.1 < off + b.data.length))) ++
             b.data.zipIdx.map (fun x => (r, off + x.2, x.1))
           poison := c.poison ++ (b.pz.flatMap (fun z => (upto z.1 z.2).map (fun o => (r, off + o)))) }

/-- The group ranks that contribute to the own DST. -/
def contributors (d : Desc) (n : Nat) : List Nat := if coCop d = 3 then [coPeer d] else if coCop d = 5 then [] else List.range n

/-- The contribution of a group rank as a blob. -/
def contributed (c : Coll) (r : Nat) : Blob :=
  let l := coLen c.desc
  let m := c.data.filter (fun x => x.1 == r)
  ⟨(List.range l).map (fun o => match m.find? (fun x => x.2.1 == o) with
      | some x => x.2.2
      | none => 0), (c.poison.filter (fun x => x.1 == r)).map (fun x => (x.2, 1))⟩

/-- The DST bytes of a collective from its contributions in group-rank order, with the events of its reduction. -/
def reduceAll (d : Desc) (bs : List Blob) : Blob × Evs :=
  let l := coLen d
  if 1 < coCop d then (bs.foldl Blob.append ⟨[], []⟩, {})
  else
    let es := coElem d
    let n := l / es
    let words := (List.range n).map (fun e =>
      if coRop d = 3 then
        (((orderedTree ExAcc.combine (bs.map (fun b => ExAcc.ofBytes ((b.data.drop (32 * e)).take 32)))).getD {}).bytes, ({} : Evs))
      else
        let r := treeWords (coRop d) (coDtype d == 6) (bs.map (fun b => elem32 b.data 4 e))
        (leBytes 4 r.1.toNat, r.2))
    let bad := (List.range n).filter (fun e => bs.any (fun b => b.badIn (es * e) es))
    (⟨words.flatMap (·.1), bad.map (fun e => (es * e, es))⟩, words.foldl (fun a w => a.add w.2) {})

/-- XP_NAN, XP_INF and XP_SAT (R317). -/
def countXp (s : State) (p : Nat) (e : Evs) : State :=
  updXport s p (fun x => { x with xpNan := min (x.xpNan + e.nan) (2 ^ 64 - 1), xpInf := min (x.xpInf + e.inf) (2 ^ 64 - 1)
                                  xpSat := min (x.xpSat + e.sat) (2 ^ 64 - 1) })

/-- A write of a local range for a transport operation, while its pages are in scope. -/
def peerWrite (s : State) (p va : Nat) (b : Blob) : State :=
  if scopeOk s p .peer true va b.data.length then vwrite s p va b else s

/-- A collective completes once every COLL_READY is held and every contribution has arrived (R314 to R317). Poisoned
contributions of a reduction are consumed; the consumption names the physical address of the output they reach
(log 25). -/
def tryFinishColl (s : State) (p id : Nat) : State :=
  match collOf s p id, xportFlight s p (.coll id) with
  | some c, some f =>
    let ranks := groupRanks s p c.family
    let n := ranks.length
    let l := coLen c.desc
    let full (r : Nat) : Bool := decide (l ≤ (c.data.filter (fun x => x.1 == r)).length)
    if c.sent && !c.mismatch && (contributors c.desc n).all full then
      let bs := (contributors c.desc n).map (contributed c)
      let (out, ev) := reduceAll c.desc bs
      let s := updXport s p (fun x => { x with colls := x.colls.filter (fun y => y.id != id) })
      let s := countXp s p ev
      let s := peerWrite s p (coDst c.desc) out
      let s := if coCop c.desc ≤ 1 then consumeRange s p (coDst c.desc) (if out.bad then out.data.length else 0) c.step (ucXport p) operLink else s
      finishFlight s (partHp s p) f (if coCount c.desc = 0 then .doneEmpty else if out.bad then .poisoned else .done) 0
    else s
  | _, _ => s

/-- Data is sent once every member's matching COLL_READY is held (R314): to every other member that takes a
contribution of this one, with ADDR the byte offset in the contribution and MSG CSEQ. -/
def trySendColl (s : State) (p id : Nat) : State :=
  match collOf s p id with
  | none => s
  | some c =>
    let ranks := groupRanks s p c.family
    let own := groupRank s p c.family
    if !c.sent && !c.mismatch && ranks.all (fun r => r == ownRank s p || c.ready.contains r) then
      let s := updColl s p id (fun c => { c with sent := true })
      let gives := (contributors c.desc ranks.length).contains own
      let s := if gives then
          let mine := contribution s p c.desc own
          let s := updColl s p id (fun c => addData c own 0 mine)
          (ranks.zipIdx.filter (fun x => x.1 != ownRank s p)).foldl (fun s x =>
            sendBytes s p x.1 0x11 (3 + coDvc c.desc) 0 c.family 0 (coCseq c.desc) (contribution s p c.desc x.2)) s
        else s
      tryFinishColl s p id
    else s

/-- A COLL_READY for an open collective: matching, or a mismatch, which is a negative event; a mismatched collective of
no step completes with STOPPED_PRESS at once (R314). -/
def judgeReady (s : State) (p id rank cseq : Nat) (data : Bytes) : State :=
  match collOf s p id with
  | none => s
  | some c =>
    if readyMatches c.desc cseq data then trySendColl (updColl s p id (fun c => { c with ready := sins c.ready rank })) p id
    else
      let s := raise (updColl s p id (fun c => { c with mismatch := true })) p 0x08 (proof s p).openStep (ucXport p)
      match c.step, xportFlight s p (.coll id) with
      | none, some f => finishFlight (updXport s p (fun x => { x with colls := x.colls.filter (fun y => y.id != id) })) (partHp s p) f .stoppedPress 0
      | _, _ => s

/-- A collective starts (R314): its place in the family, its COLL_READYs, and those that came early. -/
def startColl (s : State) (p : Nat) (d : Desc) (step : Option Nat) (id : Nat) : State :=
  let g := coGroup d
  let k := mget (xport s p).collCount 0 g
  let c : Coll := { id := id, family := g, pos := k, desc := d, step := step, ready := [], sent := false, mismatch := false, data := [], poison := [] }
  let s := updXport s p (fun x => { x with collCount := mset x.collCount 0 g (k + 1), colls := x.colls ++ [c] })
  let s := ((groupRanks s p g).filter (· != ownRank s p)).foldl (fun s r =>
    sendRank s p r 0x10 2 0 g 0 (coCseq d) (.clean (readyData d))) s
  let mine := (xport s p).early.filter (fun e => e.family == g && e.pos == k)
  let s := updXport s p (fun x => { x with early := x.early.filter (fun e => !(e.family == g && e.pos == k)) })
  let s := mine.foldl (fun s e => judgeReady s p id e.rank e.cseq e.data) s
  trySendColl s p id

/-- COLL_READY received: the sender's k-th on the family pairs with the own k-th (R314). -/
def recvReady (s : State) (p rank : Nat) (pk : Packet) : State :=
  let g := pk.group
  let k := match (xport s p).readyCount.find? (fun c => c.1 == g && c.2.1 == rank) with
    | some c => c.2.2
    | none => 0
  let s := updXport s p (fun x => { x with
    readyCount := x.readyCount.filter (fun c => !(c.1 == g && c.2.1 == rank)) ++ [(g, rank, k + 1)] })
  match (xport s p).colls.find? (fun c => c.family == g && c.pos == k) with
  | some c => judgeReady s p c.id rank pk.msg pk.data
  | none => updXport s p (fun x => { x with early := x.early ++ [⟨g, rank, k, pk.msg, pk.data⟩] })

/-- COLL_DATA received: bytes of the sender's contribution to the open collective with that family and CSEQ. -/
def recvCollData (s : State) (p rank : Nat) (pk : Packet) : State :=
  match (xport s p).colls.find? (fun c => c.family == pk.group && coCseq c.desc == pk.msg) with
  | some c =>
    match (groupRanks s p c.family).findIdx? (· == rank) with
    | some i => tryFinishColl (updColl s p c.id (fun c => addData c i pk.addr ⟨pk.data, pk.poison⟩)) p c.id
    | none => s
  | none => s

/-! ### Put and get (R311, R312) -/

/-- The rank that PEER names, when it is below the group's size. -/
def rmaPeer (s : State) (p : Nat) (d : Desc) : Option Nat := (groupRanks s p (coGroup d))[coPeer d]?

/-- A copy inside the partition (R312, PEER equal to the issuing rank): the poison moved. -/
def localRma (s : State) (p : Nat) (d : Desc) : State × Bool :=
  let b := vread s p (coSrc d) (coCount d)
  (vwrite s p (coDst d) b, b.bad)

/-- An RMA starts at its originator (R312). -/
def startRma (s : State) (p : Nat) (d : Desc) (peer msg : Nat) : State :=
  let put := coCop d == 6
  let r : Rma := { msg := msg, peer := peer, origin := true, isPut := put, addr := if put then coSrc d else coDst d
                   remote := if put then coDst d else coSrc d, count := coCount d, done := 0, poison := false, vc := 3 + coDvc d }
  let s := updXport s p (fun x => { x with rmas := x.rmas ++ [r] })
  sendRank s p peer 0x01 2 (if put then 0 else 1) (coGroup d) r.remote msg (.clean (leBytes 8 (coCount d)))

/-- An RMA updated. -/
def updRma (s : State) (p : Nat) (r : Rma) (f : Rma → Rma) : State :=
  updXport s p (fun x => { x with rmas := x.rmas.map (fun y => if y = r then f y else y) })

/-- An RMA dropped. -/
def dropRma (s : State) (p : Nat) (r : Rma) : State := updXport s p (fun x => { x with rmas := x.rmas.filter (fun y => y != r) })

/-- An open RMA with a peer: as originator or as target. -/
def rmaOf (s : State) (p peer msg : Nat) (origin : Bool) : Option Rma :=
  (xport s p).rmas.find? (fun r => r.peer == peer && r.msg == msg && r.origin == origin)

/-- An originator's RMA completes. -/
def finishRma (s : State) (p : Nat) (r : Rma) (st : St) : State :=
  let s := dropRma s p r
  match xportFlight s p (.rma r.msg) with
  | some f => let h := partHp s p; completeDesc (dropFlight s h f) h f st 0 true r.remote none
  | none => s

/-- RMA_OPEN at the target (R312): refused out of scope (SUB 1) or fenced (SUB 2); a PUT is granted, a GET answered. -/
def recvRmaOpen (s : State) (p rank vcGet : Nat) (pk : Packet) : State :=
  let n := leAt pk.data 0 8
  let put := pk.sub == 0
  let refuse (s : State) (why : Nat) : State :=
    sendRank (updXport s p (fun x => { x with refused := min (x.refused + 1) (2 ^ 64 - 1) })) p rank 0x03 2 why pk.group pk.addr pk.msg (.clean [])
  if !scopeOk s p .peer put pk.addr n then refuse s 1
  else if fencedMem s p pk.addr n then refuse s 2
  else if put then
    let r : Rma := { msg := pk.msg, peer := rank, origin := false, isPut := true, addr := pk.addr, remote := 0, count := n, done := 0
                     poison := false, vc := 0 }
    sendRank (updXport s p (fun x => { x with rmas := x.rmas ++ [r] })) p rank 0x02 2 0 pk.group pk.addr pk.msg (.clean [])
  else sendBytes (touch s p pk.addr n) p rank 0x04 vcGet 0 pk.group 0 pk.msg (vread (touch s p pk.addr n) p pk.addr n)

/-- RMA_GRANT at the originator of a PUT: the data goes out by remote address. -/
def recvRmaGrant (s : State) (p rank : Nat) (pk : Packet) : State :=
  match rmaOf s p rank pk.msg true with
  | some r =>
    if r.isPut && r.done == 0 then
      let b := vread s p r.addr r.count
      let s := updRma s p r (fun y => { y with done := r.count, poison := b.bad })
      sendBytes s p rank 0x04 r.vc 0 pk.group r.remote r.msg b
    else s
  | none => s

/-- RMA_REFUSE at the originator (R312). -/
def recvRmaRefuse (s : State) (p rank : Nat) (pk : Packet) : State :=
  match rmaOf s p rank pk.msg true with
  | some r => finishRma s p r (if pk.sub = 2 then .fenced else .outOfScope)
  | none => s

/-- RMA_DATA: at a PUT's target by remote address, at a GET's originator by offset (R312). -/
def recvRmaData (s : State) (p rank : Nat) (pk : Packet) : State :=
  let b : Blob := ⟨pk.data, pk.poison⟩
  match rmaOf s p rank pk.msg false, rmaOf s p rank pk.msg true with
  | some r, _ =>
    let s := peerWrite s p pk.addr b
    if r.count ≤ r.done + pk.data.length then sendRank (dropRma s p r) p rank 0x06 2 0 pk.group pk.addr pk.msg (.clean [])
    else updRma s p r (fun y => { y with done := r.done + pk.data.length })
  | none, some r =>
    if r.isPut then s
    else
      let s := peerWrite s p (r.addr + pk.addr) b
      let bad := r.poison || b.bad
      if r.count ≤ r.done + pk.data.length then finishRma s p r (if bad then .poisoned else .done)
      else updRma s p r (fun y => { y with done := r.done + pk.data.length, poison := bad })
  | none, none => s

/-- RMA_ACK at the originator of a PUT. -/
def recvRmaAck (s : State) (p rank : Nat) (pk : Packet) : State :=
  match rmaOf s p rank pk.msg true with
  | some r => if r.isPut then finishRma s p r (if r.poison then .poisoned else .done) else s
  | none => s

end Sys2Proof.Machine
end

