-- ==== Sys2Proof/Machine/Reserved.lean ====
section
/-! DEFINITION. Reserved-role ports: the drain protocol (10_jilan_transport.md R319 to R323), the host-side window
(R325), and RESTORE from a slot or from storage (12_snapshots.md R378 to R381, 10 R324). -/

namespace Sys2Proof.Machine

/-! ### Drains -/

/-- A drain by the MSG of its messages. -/
def drainOf (s : State) (p msg : Nat) : Option Drain := (snap s p).drains.find? (fun d => d.msg == msg)

/-- A drain updated. -/
def updDrain (s : State) (p msg : Nat) (f : Drain → Drain) : State :=
  updSnap s p (fun x => { x with drains := x.drains.map (fun d => if d.msg = msg then f d else d) })

/-- A drain removed, its descriptor completed and DRAIN_STATUS set; a drain that does not end with DONE sets DRAIN_FAIL
(R377, 17 R496). -/
def endDrain (s : State) (p : Nat) (d : Drain) (st : St) : State :=
  let s := updSnap s p (fun x => { x with drains := x.drains.filter (fun y => y.msg != d.msg), drainStatus := st.code })
  let s := if st = .done then s else drainFailed s p st.code
  match xportFlight s p (.drain d.msg) with
  | some f => finishFlight s (partHp s p) f st 0
  | none => s

/-- DR_ABORT on every selected port still ACTIVE; the drain completes with FENCED (R323). -/
def abortDrain (s : State) (p : Nat) (d : Drain) : State :=
  let s := (d.ports.filter (fun j => (port s j).state == 5)).foldl (fun s j => sendReserved s p j 0x47 0 0 d.msg (.clean [])) s
  endDrain s p d .fenced

/-- A chunk's bytes sent on a port (R321). -/
def sendChunk (s : State) (p : Nat) (d : Drain) (i j : Nat) : State :=
  let x := slotOf s p d.slot
  let len := min (2 ^ 20) ((objectLayout s p x).2 - 2 ^ 20 * i)
  (List.range ((len + 4095) / 4096)).foldl (fun s k =>
    let o := 2 ^ 20 * i + 4096 * k
    sendReserved s p j 0x42 0 o d.msg (objectBlob s p d.slot x o (min 4096 (len - 4096 * k)))) s

/-- The port with the fewest chunks not yet durable, lowest number first, while one holds fewer than 64 (R321). -/
def drainPort (s : State) (d : Drain) : Option Nat :=
  let c (j : Nat) : Nat := (d.flying.filter (fun x => x.2 == j)).length
  match d.ports.filter (fun j => (port s j).state == 5 && decide (c j < 64)) with
  | [] => none
  | j :: r => some (r.foldl (fun a i => if c i < c a then i else a) j)

/-- Chunks sent while ports have room, up to `n` of them; then the manifest once every chunk is durable (R321). -/
def pumpDrain (p msg : Nat) : Nat → State → State
  | 0, s => s
  | n + 1, s =>
    match drainOf s p msg with
    | none => s
    | some d =>
      if d.ready.length < d.ports.length then s
      else if d.next < d.chunks then
        match drainPort s d with
        | some j =>
          let s := updDrain s p msg (fun d => { d with next := d.next + 1, flying := d.flying ++ [(d.next, j)] })
          pumpDrain p msg n (sendChunk s p d d.next j)
        | none => s
      else if d.flying.isEmpty && !d.manifest then
        sendReserved (updDrain s p msg (fun d => { d with manifest := true })) p (d.ports.headD 28) 0x44 0 0 msg (.clean (manifest s p d))
      else s

/-- A drain moves as far as it can. -/
def moveDrain (s : State) (p msg : Nat) : State :=
  match drainOf s p msg with
  | some d => pumpDrain p msg (d.chunks + 1) s
  | none => s

/-- DR_READY (R321). -/
def recvDrReady (s : State) (p j : Nat) (pk : Packet) : State :=
  match drainOf s p pk.msg with
  | some d => if d.ports.contains j then moveDrain (updDrain s p d.msg (fun d => { d with ready := sins d.ready j })) p d.msg else s
  | none => s

/-- The drain that a gateway message names: by MSG, else the one that has the chunk in flight on the port. -/
def drainFor (s : State) (p j : Nat) (pk : Packet) : Option Drain :=
  match drainOf s p pk.msg with
  | some d => some d
  | none => (snap s p).drains.find? (fun d => d.flying.any (fun x => x.1 == pk.addr && x.2 == j))

/-- DR_DURABLE (R321). -/
def recvDrDurable (s : State) (p j : Nat) (pk : Packet) : State :=
  match drainFor s p j pk with
  | some d => moveDrain (updDrain s p d.msg (fun d => { d with flying := d.flying.filter (fun x => x.1 != pk.addr) })) p d.msg
  | none => s

/-- DR_COMMITTED (R321). -/
def recvDrCommitted (s : State) (p : Nat) (pk : Packet) : State :=
  match drainOf s p pk.msg with
  | some d => if d.manifest then endDrain s p d .done else s
  | none => s

/-- CHUNK_RESEND (R323): a chunk not durable 1 s after its last byte goes out again on another selected ACTIVE port, or
the same when no other is ACTIVE. -/
def resendChunk (s : State) (p i : Nat) : State :=
  match (snap s p).drains.find? (fun d => d.flying.any (fun x => x.1 == i)) with
  | none => s
  | some d =>
    match d.flying.find? (fun x => x.1 == i) with
    | none => s
    | some (_, j) =>
      let others := d.ports.filter (fun k => k != j && (port s k).state == 5)
      let to_ := others.headD j
      let s := updDrain s p d.msg (fun d => { d with flying := d.flying.map (fun x => if x.1 = i then (i, to_) else x) })
      sendChunk s p d i to_

/-- Drains of which every selected port has lost its link end (R323); a port in RECOVER or RETRAIN has not (09 R279). -/
def drainLosses (s : State) (p : Nat) : State :=
  ((snap s p).drains.filter (fun d => d.ports.all (fun j => !keepsLink (port s j)))).foldl (fun s d => abortDrain s p d) s

/-! ### Restore (12 R378 to R381) -/

/-- The checks of R378 on a commit record's fields and a directory. -/
def restoreOk (s : State) (p slice rank pmode prt : Nat) (vpns : List Nat) : Bool :=
  (match (xport s p).imp with
    | some m => m.slice == slice
    | none => false) &&
  rank == ownRank s p && pmode == s.pmode && prt == p &&
  vpns.all (fun v => let e := tte s p v; tteValid e && ttePersist e && tteWrite e)

/-- A page written back to where its VPN now maps, with its poison (R380). -/
def restorePage (s : State) (p vpn : Nat) (page : List Host.Cell) (poison : List Nat) : State :=
  let ppn := ttePpn (tte s p vpn)
  let s := cowHook s ppn
  updMs s (fun m => { m with
    mem := mreplace m.mem (ppn * pageSize) pageSize page
    poison := m.poison.filter (fun g => decide (g / 8192 < ppn)) ++ poison.map (fun g => ppn * 8192 + g) ++
      m.poison.filter (fun g => decide (ppn < g / 8192)) })

/-- LAST_PROVEN after a RESTORE (R381): every step below a KIND 0 snapshot's was PROVEN when its slot committed (R373). -/
def provenIn (b : SnapState) (quiesce : Bool) (step : Nat) : Nat := if quiesce then step else max b.lastProven (step - 1)

/-- The step state set from a snapshot (R380, R381): KIND 1 leaves no step open; KIND 0 leaves its step OPEN. The records,
log entries and captures of steps PROVEN before it and not yet retired stand (R363). -/
def restoreSteps (x : Proof) (b : SnapState) (quiesce : Bool) (step w : Nat) : Proof :=
  let proven := provenIn b quiesce step
  let kept := x.steps.filter (fun r => r.state == 3 && decide (r.step ≤ proven))
  let stands (n : Nat) : Bool := kept.any (fun r => r.step == n)
  let open_ : StepRec := b.open_.getD { step := step, state := 1, recVa := 0 }
  { x with
    w := w, openStep := if quiesce then none else some step
    steps := kept ++ (if quiesce then [] else [{ open_ with state := 1, fallback := false, reason := 0 }])
    lastProven := proven, lastComputed := proven
    lastRetired := match kept with
      | [] => proven
      | r :: _ => r.step - 1
    begun := !quiesce, nextStep := step + 1, ending := false
    mbb := if quiesce then none else b.mbb, phase := if quiesce then x.phase else b.phase
    sampleK := b.sampleK, kNow := b.kNow, observe := b.observe
    log := x.log.filter (fun e => stands e.step) ++ b.log, replayed := 0
    captures := x.captures.filter (fun c => stands c.step) ++ b.captures
    ups := [], upSent := [] }

/-- Every queue STOPPED after a RESTORE (R381), with what SNAP_RQ shows. -/
def restoreQueues (s : State) (p : Nat) (saved : Map (Nat × Nat × Nat)) : State :=
  stopQueues (updSnap s p (fun x => { x with rq := saved })) (partHp s p) 1

/-- The end of a RESTORE (R381): RUNNING with a reprint count of 0, and the descriptor completes. -/
def finishRestore (s : State) (p : Nat) : State :=
  let s := updXport s p (fun x => { x with reprint := 0 })
  let s := updProof s p (fun x => { x with slice := if x.slice = 0 then 0 else 1, negative := false, fallback := false, appliedDecision := none })
  let s := updSnap s p (fun x => { x with restoring := none })
  let s := updMirror s p (fun x => { x with fillSent := false, fillDone := false })
  match xportFlight s p .restore with
  | some f => finishFlight s (partHp s p) f .done 0
  | none => s

/-- A RESTORE fails with FENCED (R379, R380). -/
def failRestore (s : State) (p : Nat) : State :=
  let s := updSnap s p (fun x => { x with restoring := none })
  match xportFlight s p .restore with
  | some f => finishFlight s (partHp s p) f .fenced 0
  | none => s

/-- The RESTORE ends once the partner's fill is verified (R380). -/
def tryFinishRestore (s : State) (p : Nat) : State :=
  match (snap s p).restoring with
  | some r => if r.filling && (!hasFacing s p || (mirror s p).fillDone) then finishRestore s p else s
  | none => s

/-- The fill half of a RESTORE (R380, step 4). -/
def startFill (s : State) (p : Nat) (r : Restoring) : State :=
  let s := updSnap s p (fun x => { x with restoring := some { r with filling := true } })
  tryFinishRestore (if hasFacing s p then sendFill s p else s) p

/-- The CORES section of one logical core written back. -/
def restoreCore (s : State) (l : Nat) (k : Core) (u : Units) : State :=
  let ph := physOf s l
  let s := updCore s ph (fun x => { x with
    spad := k.spad, spadPoison := k.spadPoison, pm := k.pm, pmBad := k.pmBad, entry := k.entry, imageValid := k.imageValid
    sem := k.sem, epi := k.epi, sfNan := k.sfNan, sfInf := k.sfInf, sfSat := k.sfSat, sfDiv0 := k.sfDiv0 })
  updUnits s ph (fun x => { x with
    formes := u.formes, ma0 := { u.ma0 with capture := none, queue := [] }, ma1 := { u.ma1 with capture := none, queue := [] } })

/-- Steps 1 to 3 of a RESTORE (R380): pages, sections, step state. The undo segments of steps PROVEN before the snapshot and
not yet retired stand (R363). -/
def writeBack (s : State) (p : Nat) (pages : List (Nat × List Host.Cell × List Nat)) (b : SnapState) (quiesce : Bool)
    (step w : Nat) : State :=
  let s := pages.foldl (fun s g => restorePage s p g.1 g.2.1 g.2.2) s
  let s := b.cores.foldl (fun s c => restoreCore s c.1 c.2.1 c.2.2) s
  let s := updProof s p (fun y => restoreSteps y b quiesce step w)
  let s := updPart s p (fun y => { y with
    ec := b.ec, journal := y.journal.filter (fun g => (proof s p).steps.any (fun r => r.step == g.step && r.state == 3)) ++ b.undo })
  let s := updMs s (fun m => { m with scale := mreplace m.scale (sctBase s p) (sctSize s p) b.scale })
  restoreQueues s p b.queues

/-- What a RESTORE that fails after it has begun to write leaves: the pages, core memories, counters and scale entries that
it writes hold free values (R379; after a mismatch in a slot, R380, log 8). -/
def undefinedState (s : State) (p : Nat) : State :=
  let k := s.freeCtr + 1
  let vs := persistentPages s p
  let s := { s with freeCtr := k + vs.length + 130 }
  let s := vs.zipIdx.foldl (fun s v => restorePage s p v.1
    (mofList 0 0 ((List.range pageSize).map (fun i => Config.abandonedByte (2 ^ 32 * (k + v.2) + i)))) []) s
  let k := k + vs.length
  let s := (upto (p * lcores s) (lcores s)).foldl (fun s l => updCore s (physOf s l) (fun c => { c with
    spad := freeSpad (k + l), spadPoison := [], pmBad := []
    pm := mofList 0 0 ((List.range 65536).map (fun i => (Config.abandonedValue (2 ^ 32 * (k + l) + i)).setWidth 32)) })) s
  let s := updPart s p (fun y => { y with
    ec := mofList 0 0 ((List.range 64).map (fun i => Config.abandonedValue (2 ^ 32 * (k + 128) + i))) })
  let entry (i : Nat) : ScaleEntry := ScaleEntry.ofBytes ((List.range 208).map (fun j => Config.abandonedByte (2 ^ 32 * (k + 129) + 208 * i + j)))
  updMs s (fun m => { m with
    scale := mreplace m.scale (sctBase s p) (sctSize s p) (mofList {} 0 ((List.range (sctSize s p)).map entry)) })

/-- RESTORE from the newest committed slot, its checks of R378 passed (R380); a page or section whose CRC does not verify
ends it with FENCED. -/
def restoreSlot (s : State) (p i : Nat) : State :=
  let x := slotOf s p i
  if x.spoiled.any (fun a => decide (0 < a)) then failRestore (undefinedState s p) p
  else
    startFill (writeBack s p (x.pages.map (fun g => (g.vpn, g.page, g.poison))) (x.body.getD {}) x.quiesce x.step x.w) p
      { storage := false, object := 0, manifest := none, data := [], chunks := 0, filling := true }

/-! #### From storage (R379, 10 R324) -/

/-- The portions of an object: offset, pages, sections, data end (R365, R377). -/
structure ObjPortion where
  /-- Offset in the object. -/
  off : Nat
  /-- Directory entries. -/
  pages : Nat
  /-- Sections. -/
  nsect : Nat
  /-- Whether the header verifies. -/
  ok : Bool
  deriving DecidableEq, Repr, Inhabited

/-- The portions of an object from offset `o`, at most `n` of them. -/
def objPortions (m : List Host.Cell) (len : Nat) : Nat → Nat → List ObjPortion
  | 0, _ => []
  | n + 1, o =>
    if len ≤ o then []
    else
      let h := rdBytes m o 64
      let e := leAt h 24 8
      let ok := leAt h 0 2 == 0x5350 && leAt h 2 1 == 1 && leAt h 56 8 == crc64 (h.take 56)
      ⟨o, leAt h 8 4, leAt h 12 4, ok⟩ :: (if ok then objPortions m len n ((o + e + 2 ^ 20 - 1) / 2 ^ 20 * 2 ^ 20) else [])

/-- The directory entries of a portion: VPN, flags, CRC, offset of the page. -/
def objPages (m : List Host.Cell) (q : ObjPortion) : List (Nat × Nat × Nat × Nat) :=
  (List.range q.pages).map (fun j =>
    let e := rdBytes m (q.off + 0x1000 + 16 * j) 16
    (leAt e 0 4 % 2 ^ 28, leAt e 4 1, leAt e 8 8, q.off + 0x200000 + j * 2 ^ 19))

/-- The section table of a portion: code, offset, length, CRC. -/
def objSections (m : List Host.Cell) (q : ObjPortion) : List (Nat × Nat × Nat × Nat) :=
  (List.range (min q.nsect 32)).map (fun j =>
    let e := rdBytes m (q.off + 0x800 + 32 * j) 32
    (leAt e 0 2, leAt e 8 8, leAt e 16 8, leAt e 24 8))

/-- Whether an object verifies (R379): HCRCs, RCRC, page and section CRCs, and the DIGEST against the manifest's. -/
def objectOk (m : List Host.Cell) (qs : List ObjPortion) (digest : Nat) : Bool :=
  let a := qs.headD default
  let c := rdBytes m (a.off + 0x40) 64
  let seq := qs.flatMap (fun q => rdBytes m (q.off + 0x1000) (16 * q.pages) ++ rdBytes m (q.off + 0x800) (32 * q.nsect))
  qs.all (·.ok) && !qs.isEmpty && leAt c 0 2 == 0x5343 && leAt c 56 8 == crc64 (c.take 56) &&
  qs.all (fun q => (objPages m q).all (fun e => crc64 (rdBytes m e.2.2.2 pageSize) == e.2.2.1) &&
    (objSections m q).all (fun e => crc64 (rdBytes m (q.off + e.2.1) e.2.2.1) == e.2.2.2)) &&
  crc64 seq == digest && leAt c 48 8 == digest

/-- The state sections of an object, read back from its anchor portion. -/
def objectState (s : State) (p : Nat) (m : List Host.Cell) (bad : List Nat) (a : ObjPortion) : SnapState :=
  (objSections m a).foldl (fun b e => readSection s p m bad b e.1 (a.off + e.2.1) e.2.2.1) {}

/-- RESTORE from storage once every chunk is held (R379, R380): the checks of R378, then the object's own; a check that fails
ends it with FENCED (10 R324), and one that fails once it writes leaves live state undefined. -/
def restoreObject (s : State) (p : Nat) (r : Restoring) (man : Bytes) : State :=
  let qs := objPortions r.data (leAt man 32 8) 12 0
  let a := qs.headD default
  let c := rdBytes r.data (a.off + 0x40) 64
  let pages := qs.flatMap (objPages r.data)
  if !restoreOk s p (leAt c 16 4) (leAt c 14 2) (leAt c 23 1 % 4) (leAt c 23 1 / 4 % 4) (pages.map (·.1)) then failRestore s p
  else if !objectOk r.data qs (leAt man 48 8) then failRestore (undefinedState s p) p
  else
    let quiesce := (leAt c 3 1).testBit 1
    startFill (writeBack s p (pages.map (fun e => (e.1, mslice r.data e.2.2.2 pageSize, unitsFrom r.bad e.2.2.2 pageSize)))
      (objectState s p r.data r.bad a) quiesce (leAt c 4 6) (leAt c 13 1)) p r

/-- RD_REQ for the manifest or a chunk, on the lowest STORAGE port (10 R320, R324); OBJECT goes as its eight data bytes
and MSG is the restore's own (log 26). -/
def requestChunk (s : State) (p : Nat) (r : Restoring) (manifest : Bool) (i : Nat) : State :=
  match storagePorts s p with
  | j :: _ => sendReserved s p j 0x48 (b2n manifest) i r.msg (.clean (leBytes 8 r.object))
  | [] => failRestore s p

/-- RESTORE from storage starts (10 R324). -/
def startObject (s : State) (p object : Nat) : State :=
  let (m, s) := nextMsg s p
  let r : Restoring := { storage := true, object := object, msg := m, manifest := none, data := [], chunks := 0, filling := false }
  requestChunk (updSnap s p (fun x => { x with restoring := some r })) p r true 0

/-- RD_DATA (10 R324): bytes of the manifest, then of the object. -/
def recvRdData (s : State) (p : Nat) (pk : Packet) : State :=
  match (snap s p).restoring with
  | some r => if r.storage && !r.filling then updSnap s p (fun x => { x with restoring := some { r with
      data := wrBytes r.data pk.addr pk.data, bad := pzAfter r.bad pk.addr ⟨pk.data, pk.poison⟩ } }) else s
  | none => s

/-- The manifest's checks (10 R324, R379). -/
def manifestOk (s : State) (p : Nat) (m : Bytes) : Bool :=
  let x := regF s (.part p) 0x0300020 0 20
  leAt m 56 8 == crc64 (m.take 56) &&
  (match (xport s p).imp with
    | some i => i.slice == leAt m 8 4
    | none => false) &&
  leAt m 24 3 % 2 ^ 20 == (if x = 0 then devId s p else x)

/-- RD_END (10 R324): the manifest is checked, each chunk is followed by the next, the last by the restore itself. -/
def recvRdEnd (s : State) (p : Nat) (pk : Packet) : State :=
  match (snap s p).restoring with
  | none => s
  | some r =>
    if !r.storage || r.filling then s
    else match r.manifest with
      | none =>
        if pk.addr = 0xFFFFFFFFFFFF then
          let m := rdBytes r.data 0 64
          let other := match xportFlight s p .restore with
            | some f => bitOf f.desc 65 && leAt m 16 6 != dF f.desc 16 0 48
            | none => false
          if manifestOk s p m && other then
            (match xportFlight s p .restore with
              | some f => finishFlight (updSnap s p (fun x => { x with restoring := none })) (partHp s p) f .badDesc 0
              | none => s)
          else if manifestOk s p m then
            let r := { r with manifest := some m, data := [], bad := [] }
            let s := updSnap s p (fun x => { x with restoring := some r })
            if leAt m 40 4 = 0 then restoreObject s p r m else requestChunk s p r false 0
          else failRestore s p
        else s
      | some m =>
        if pk.addr = r.chunks then
          let r := { r with chunks := r.chunks + 1 }
          let s := updSnap s p (fun x => { x with restoring := some r })
          if leAt m 40 4 ≤ r.chunks then restoreObject s p r m else requestChunk s p r false r.chunks
        else s

/-- DR_ERROR (R323, R324): it ends the drain it names, else the RESTORE from storage. -/
def recvDrError (s : State) (p j : Nat) (pk : Packet) : State :=
  match drainOf s p pk.msg with
  | some d => abortDrain s p d
  | none => match (snap s p).restoring with
    | some r => if r.storage && !r.filling then failRestore s p
                else s
    | none => match (snap s p).drains.find? (fun d => d.ports.contains j) with
      | some d => abortDrain s p d
      | none => s

/-! ### The host-side window (R325) -/

/-- Whether bytes `o .. o + n - 1` lie in the window and in scope for the HOST class. -/
def hsOk (s : State) (p : Nat) (wr : Bool) (o n : Nat) : Bool :=
  let pages := regF s (.part p) 0x0204034 0 22
  decide (o + n ≤ pages * pageSize) && scopeOk s p .host wr (regF s (.part p) 0x0204030 0 28 * pageSize + o) n

/-- HS_ERROR. -/
def hsError (s : State) (p j sub msg : Nat) : State := sendReserved s p j 0x54 sub 0 msg (.clean [])

/-- A HOSTSIDE port frozen (R325, 15 R465); a HOSTSIDE port has no KIND of FRZ_LIFT, so its record carries KIND 0
(log 27). -/
def freezeHs (s : State) (p j addr : Nat) : State :=
  recordFreeze (updPort s j (fun x => { x with frozen := true })) p (ucPort j) 0 j addr

/-- HS_WRITE (R325). -/
def recvHsWrite (s : State) (p j : Nat) (pk : Packet) : State :=
  let va := regF s (.part p) 0x0204030 0 28 * pageSize + pk.addr
  if (port s j).frozen then hsError s p j 2 pk.msg
  else if hsOk s p true pk.addr pk.data.length then
    sendReserved (vwrite s p va ⟨pk.data, pk.poison⟩) p j 0x51 0 0 pk.msg (.clean [])
  else hsError (freezeHs s p j va) p j 1 pk.msg

/-- HS_READ (R325). -/
def recvHsRead (s : State) (p j : Nat) (pk : Packet) : State :=
  let n := leAt pk.data 0 2
  let va := regF s (.part p) 0x0204030 0 28 * pageSize + pk.addr
  if (port s j).frozen then hsError s p j 2 pk.msg
  else if hsOk s p false pk.addr n && decide (0 < n) && decide (n ≤ 4096) then
    let s := touch s p va n
    sendReserved s p j 0x53 0 pk.addr pk.msg (vread s p va n)
  else hsError (freezeHs s p j va) p j 1 pk.msg

end Sys2Proof.Machine
end

