-- ==== Sys2Proof/Machine/Receive.lean ====
section
/-! DEFINITION. Receiving: STOPPRESS, VOTE, DIGEST, MIRROR and STATE_XFER (11_proof_and_reprint.md R339 to R356), the
ingress checks of fabric and reserved-role ports (10_jilan_transport.md R296, R304, R305, R319), and the end of every
command. -/

namespace Sys2Proof.Machine

/-! ### Dropped packets (R296, R304, R319) -/

/-- A packet dropped: its counter, and a record for the first of its kind in the generation. Kinds: 1 TYPE, 2 ADDR,
3 TAG, 4 GEN. -/
def dropPacket (s : State) (p j kind ptype : Nat) (pk : Packet) : State :=
  let up (n : Nat) : Nat := min (n + 1) (2 ^ 64 - 1)
  let first := !(xport s p).dropsSeen.contains kind
  let s := updXport s p (fun x => { x with
    dropType := if kind = 1 then up x.dropType else x.dropType, dropAddr := if kind = 2 then up x.dropAddr else x.dropAddr
    dropTag := if kind = 3 then up x.dropTag else x.dropTag, dropGen := if kind = 4 then up x.dropGen else x.dropGen
    dropsSeen := sins x.dropsSeen kind })
  if first then
    record s p (ucPort j) operLink 0x0035 (leBytes 1 kind ++ leBytes 1 ptype ++ leBytes 3 pk.src ++ leBytes 3 pk.gen)
  else s

/-! ### STOPPRESS (11 R347, R348, R351) -/

/-- POLL, in the layout of DECISION with NSTRIKE 0. -/
def sendPoll (s : State) (p : Nat) (r : Round) : State :=
  sendStopPress s p r.gen 3 0xFFFFF ({ r.chosen with applied := false, fallback := false, hold := false, round := r.no, strikes := [] } : StopMsg).bytes

/-- A member becomes the root of a round: POLL goes out, its own REPORT is held. -/
def becomeRoot (s : State) (p no : Nat) (reports : List (Nat × StopMsg)) : State :=
  match (proof s p).round with
  | none => s
  | some r =>
    let r := { r with no := no, root := ownRank s p, reports := reports, decided := false }
    let s := updProof s p (fun x => { x with round := some r })
    sendReport (sendPoll s p r) p

/-- A REPORT at its root (R351): of the round in hand, or of a later round that this member becomes the root of. -/
def recvReport (s : State) (p rank : Nat) (m : StopMsg) : State :=
  match (proof s p).round with
  | none => s
  | some r =>
    if m.round = r.no ∧ r.root = ownRank s p then
      tryDecide (updProof s p (fun x => { x with
        round := some { r with reports := r.reports.filter (fun y => y.1 != rank) ++ [(rank, m)] } })) p
    else if r.no < m.round then becomeRoot s p m.round [(rank, m)]
    else s

/-- POLL from the root of a round: answered with a REPORT, APPLIED where a DECISION has been applied. -/
def recvPoll (s : State) (p rank : Nat) (m : StopMsg) : State :=
  match (proof s p).round with
  | none => s
  | some r => sendReport (updProof s p (fun x => { x with round := some { r with no := m.round, root := rank, decided := false } })) p

/-- A STOPPRESS packet that has passed checks 1 to 3 of 10 R304 (R348). -/
def recvStopPress (s : State) (p j rank : Nat) (pk : Packet) : State :=
  if !inSlice s p then s
  else
    let m := StopMsg.ofBytes pk.data
    let own := genOf s p
    if pk.sub = 0 then
      if own ≤ pk.gen then acceptStop s p m else dropPacket s p j 4 0x20 pk
    else
      let handle (s : State) : State := match pk.sub with
        | 1 => recvReport s p rank m
        | 2 => applyDecision s p m
        | 3 => recvPoll s p rank m
        | _ => s
      let inRound_ := match (proof s p).round with
        | some r => r.gen == pk.gen
        | none => false
      if inRound_ then handle s
      else if pk.gen = own then handle (acceptStop s p m)
      else dropPacket s p j 4 0x20 pk

/-- The root of the next round: the next rank above the previous root that is not on the strike list (R351). -/
def nextRoot (s : State) (p : Nat) (r : Round) : Option Nat :=
  (upto (r.root + 1) (nranks s p - (r.root + 1))).find? (fun d => r.strikes.all (fun e => e.rank != d))

/-- DECISION_TIMEOUT: no DECISION 2 ms after the REPORT, so the member moves to the next round (R351). Where no rank is
left above the last root, it stays in its round (log 28). -/
def nextRound (s : State) (p : Nat) : State :=
  if (proof s p).slice = 3 then
    match (proof s p).round with
    | none => s
    | some r =>
      match nextRoot s p r with
      | none => s
      | some d =>
        if d = ownRank s p then becomeRoot s p (r.no + 1) []
        else sendReport (updProof s p (fun x => { x with round := some { r with no := r.no + 1, root := d, reports := [] } })) p
  else s

/-- ROOT_COLLECT_TIMEOUT: the root decides 1.5 ms after its own REPORT with what it holds (R351). -/
def collectTimeout (s : State) (p : Nat) : State :=
  match (proof s p).round with
  | some r => if decides s p r then sendDecision s p r else s
  | none => s

/-! ### VOTE and DIGEST (11 R341, R344, R345) -/

/-- VOTE: UP from a child, PROVEN from the parent, PULSE from a neighbour. -/
def recvVote (s : State) (p rank : Nat) (pk : Packet) : State :=
  match pk.sub with
  | 0 => if (childrenOf s p).contains rank && !(proof s p).ups.contains (pk.addr, rank) then
      updProof s p (fun x => { x with ups := x.ups ++ [(pk.addr, rank)] }) else s
  | 1 =>
    if 0 < ownRank s p ∧ rank = parentRank s p ∧ (stepRec s p pk.addr).any (fun r => r.state == 2) then
      forwardProven (proveStep s p pk.addr) p pk.addr
    else s
  | 2 => updProof s p (fun x => { x with heard := sins x.heard rank })
  | _ => s

/-- DIGEST from the facing rank (R341). -/
def recvDigest (s : State) (p rank : Nat) (pk : Packet) : State :=
  if hasFacing s p && rank == facingRank s p && decide (pk.sub ≤ 1) then
    let v : DigestVal := ⟨pk.addr, pk.sub, false, BitVec.ofNat 64 (leAt pk.data 0 8), leAt pk.data 8 4, (leAt pk.data 12 1).testBit 0⟩
    let s := updMirror s p (fun x => { x with
      digests := x.digests.filter (fun d => !(d.step == v.step && d.sub == v.sub && !d.own)) ++ [v] })
    checkDigests s p pk.addr (1 - pk.sub)
  else s

/-! ### MIRROR (11 R339 to R341) -/

/-- Whether a portion waits: for its bytes (R340), for room in the undo journal (07 R211), or, as its OPEN overtook the SEAL
of an earlier step on another plane, for the digest over that step's writes (R341, log 23). -/
def portionWaits (s : State) (p : Nat) (o : Portion) : Bool :=
  decide (o.landed < 4 * o.count) || portionStalls s p o ||
  (mirror s p).applied.any (fun c => decide ((proof s p).lastProven < c.1) && decide (c.1 < o.step) && (digestHeld s p c.1 1 true).isNone)

/-- The portion received, once nothing holds it up, is applied and answered with DONE (R340). -/
def tryPortion (s : State) (p : Nat) : State :=
  match (mirror s p).inp with
  | none => s
  | some o =>
    if portionWaits s p o then s
    else
      let (s, st) := applyPortion s p o
      let s := updMirror s p (fun x => { x with inp := none, applied := mset x.applied 0 o.step (mget x.applied 0 o.step + 1) })
      let s := sendRank s p (facingRank s p) 0x30 7 2 0 o.first o.optim (.clean (leBytes 1 st.code))
      tryFacingDigest s p o.step

/-- MIRROR SUB 0, OPEN. -/
def recvMirrorOpen (s : State) (p : Nat) (pk : Packet) : State :=
  let o : Portion := { step := pk.addr, optim := leAt pk.data 168 4, block := sub pk.data 0 160
                       clip := BitVec.ofNat 32 (leAt pk.data 160 4), q := BitVec.ofNat 32 (leAt pk.data 164 4)
                       first := leAt pk.data 176 5, count := leAt pk.data 184 5, got := [], landed := (mirror s p).early }
  tryPortion (updMirror s p (fun x => { x with inp := some o, early := 0 })) p

/-- MIRROR SUB 1, GRAD: bytes into the staging window, before their OPEN where another plane brought them first. -/
def recvGrad (s : State) (p : Nat) (pk : Packet) : State :=
  let va := regF s (.part p) 0x0800498 0 28 * pageSize + pk.addr
  let s := if scopeOk s p .engine true va pk.data.length then vwrite s p va ⟨pk.data, pk.poison⟩ else s
  match (mirror s p).inp with
  | none => updMirror s p (fun x => { x with early := x.early + pk.data.length })
  | some o => tryPortion (updMirror s p (fun x => { x with inp := some { o with landed := o.landed + pk.data.length } })) p

/-- MIRROR SUB 2, DONE at the owner: the next portion may go (R340). -/
def recvMirrorDone (s : State) (p : Nat) (pk : Packet) : State :=
  match (mirror s p).out with
  | o :: r => if (mirror s p).outSent && o.first == pk.addr && o.optim == pk.msg then
      updMirror s p (fun x => { x with out := r, outSent := false }) else s
  | [] => s

/-- MIRROR SUB 3, SEAL: the digest of the step may follow, and a portion that waited for it. -/
def recvSeal (s : State) (p : Nat) (pk : Packet) : State :=
  tryPortion (tryFacingDigest (updMirror s p (fun x => { x with sealedAt := mput x.sealedAt pk.addr (leAt pk.data 0 4) })) p pk.addr) p

/-- MIRROR SUB 4, SCALE: records pending for the shadow (R342). -/
def recvScale (s : State) (p : Nat) (pk : Packet) : State :=
  let rs := (List.range (pk.data.length / 12)).map (fun i =>
    let o := 12 * i
    (pk.addr, leAt pk.data o 2, (leAt pk.data (o + 2) 1).testBit 0, BitVec.ofNat 32 (leAt pk.data (o + 4) 4), BitVec.ofNat 32 (leAt pk.data (o + 8) 4)))
  updMirror s p (fun x => { x with pendingScale := x.pendingScale ++ rs })

/-- MIRROR by sub-code, from the facing rank; the transport engine has stopped its MIRROR traffic in STOPPING, in DECIDING
and where the rank is STRUCK (R350, R353). -/
def recvMirror (s : State) (p rank : Nat) (pk : Packet) : State :=
  let stopped := (proof s p).slice == 2 || (proof s p).slice == 3 || (proof s p).slice == 9
  if hasFacing s p && rank == facingRank s p && !stopped then
    match pk.sub with
    | 0 => recvMirrorOpen s p pk
    | 1 => recvGrad s p pk
    | 2 => recvMirrorDone s p pk
    | 3 => recvSeal s p pk
    | 4 => recvScale s p pk
    | _ => s
  else s

/-! ### STATE_XFER (11 R343) -/

/-- Page data landed: into the own page or the mirror-window page of its ordinal, without journaling. -/
def landXfer (s : State) (p : Nat) (own : Bool) (addr : Nat) (b : Blob) : State :=
  let i := addr / pageSize
  match (if own then ownPages s p [i] else windowPages s p [i]) with
  | (_, ppn) :: _ =>
    let vpn := if own then ((mirror s p).ordinals[i]?).getD 0 else (mirWindow s p).1 + i
    if pageOk s p .engine true vpn then pwrite s (ppn * pageSize + addr % pageSize) b else s
  | [] => s

/-- Page data received. Fill pages that come while the restore set is owed wait for their END, so that the window keeps the
pages it owes (R343). -/
def xferPage (s : State) (p : Nat) (own : Bool) (pk : Packet) : State :=
  let s := updMirror s p (fun x => { x with xferPages := sins x.xferPages (pk.addr / pageSize) })
  if !own && (mirror s p).owes then updMirror s p (fun x => { x with xferWaits := x.xferWaits ++ [(pk.addr, ⟨pk.data, pk.poison⟩)] })
  else landXfer s p own pk.addr ⟨pk.data, pk.poison⟩

/-- Scale bytes received, by offset. -/
def xferScale (s : State) (p : Nat) (pk : Packet) : State :=
  updMirror s p (fun x => { x with xferScale := mreplace x.xferScale pk.addr pk.data.length (mofList 0 0 pk.data) })

/-- Scale entries of received bytes, by index in the range. -/
def entriesOf (m : Map Byte) (n : Nat) : Map ScaleEntry :=
  mofList {} 0 ((List.range n).map (fun i => ScaleEntry.ofBytes ((List.range 208).map (fun o => mget m 0 (208 * i + o)))))

/-- What END says of its set. -/
def endSum (pk : Packet) : Nat × Nat × Nat := (leAt pk.data 0 8, leAt pk.data 8 4, leAt pk.data 16 8)

/-- Whether a fill set comes from a partner that has not yet verified the restore set owed to it: it differs from that set,
which a verified partner holds (R343, log 23). Such a set is discarded, and another follows. -/
def fillEarly (m : Mirror) (pk : Packet) : Bool := leAt pk.data 12 1 == 1 && m.owes && m.restoreSum != some (endSum pk)

/-- END of a set: digest, page count and scale CRC verified (R343). A difference raises XFER; in ARRIVING the start-up
barrier fails with it (18 R520), in a RESTORE the RESTORE fails (12 R380). -/
def verifySet (s : State) (p : Nat) (pk : Packet) : State :=
  let fill := leAt pk.data 12 1 == 1
  let s := if fill then (mirror s p).xferWaits.foldl (fun s x => landXfer s p false x.1 x.2) s else s
  let m := mirror s p
  let n := sctSize s p
  let scale := (List.range (208 * n)).map (fun o => mget m.xferScale 0 o)
  let ps := if fill then windowPages s p m.xferPages else ownPages s p m.xferPages
  let ok := endSum pk == setSum s ps scale
  let s := updMirror s p (fun x => { x with xferPages := [], xferScale := [], xferWaits := [] })
  if ok then
    if fill then
      tryFinishRestore (setShadow (updMirror s p (fun x => { x with fillDone := true, held := m.xferPages.length })) p (entriesOf m.xferScale n)) p
    else
      let s := updMs s (fun y => { y with scale := mreplace y.scale (sctBase s p) n (entriesOf m.xferScale n) })
      updMirror s p (fun x => { x with wantRestore := false })
  else if (snap s p).restoring.isSome then failRestore s p
  else
    let s := raise s p 0x0C none (ucXport p)
    if (part s p).pstate = 3 then toHold s p 3 else s

/-- END. -/
def xferEnd (s : State) (p : Nat) (pk : Packet) : State :=
  if fillEarly (mirror s p) pk then updMirror s p (fun x => { x with xferPages := [], xferScale := [], xferWaits := [] })
  else verifySet s p pk

/-- STATE_XFER by sub-code, from the facing rank. -/
def recvXfer (s : State) (p rank : Nat) (pk : Packet) : State :=
  if hasFacing s p && rank == facingRank s p then
    let want (s : State) : State := updMirror s p (fun x => { x with wantRestore := true, fillSent := false })
    match pk.sub with
    | 0 => xferPage (want s) p true pk
    | 1 => xferPage s p false pk
    | 2 => xferScale s p pk
    | 3 => xferScale (want s) p pk
    | 4 => xferEnd s p pk
    | _ => s
  else s

/-! ### Ingress (10 R296, R304, R305, R319) -/

/-- Whether a packet type may arrive on a virtual channel of a fabric port (R296). -/
def vcOk (ptype vc : Nat) : Bool :=
  match ptype with
  | 0x01 | 0x02 | 0x03 | 0x06 | 0x10 | 0x23 => vc == 2
  | 0x04 | 0x11 => decide (3 ≤ vc) && decide (vc ≤ 6)
  | 0x20 => vc == 0
  | 0x22 | 0x24 => vc == 1
  | 0x30 | 0x32 => vc == 7
  | _ => false

/-- A fabric packet that has passed every check. -/
def deliver (s : State) (p j rank ptype : Nat) (pk : Packet) : State :=
  match ptype with
  | 0x01 => recvRmaOpen s p rank 3 pk
  | 0x02 => recvRmaGrant s p rank pk
  | 0x03 => recvRmaRefuse s p rank pk
  | 0x04 => recvRmaData s p rank pk
  | 0x06 => recvRmaAck s p rank pk
  | 0x10 => recvReady s p rank pk
  | 0x11 => recvCollData s p rank pk
  | 0x20 => recvStopPress s p j rank pk
  | 0x22 => recvVote s p rank pk
  | 0x23 => updXport s p (fun x => { x with peers := mput x.peers rank (leAt pk.data 0 4 % 2 ^ 28) })
  | 0x24 => recvDigest s p rank pk
  | 0x30 => recvMirror s p rank pk
  | 0x32 => recvXfer s p rank pk
  | _ => s

/-- The rank that sent a packet, or the number of the first of the checks 1 to 3 of R304 that the packet fails. -/
def screen (s : State) (p ptype : Nat) (pk : Packet) : Except Nat Nat :=
  if !vcOk ptype pk.vc then .error 1
  else match rankOfDev s p pk.src with
    | none => .error 2
    | some rank =>
      if pk.dst ≠ devId s p ∧ ¬(ptype = 0x20 ∧ pk.dst = 0xFFFFF) then .error 2
      else if pk.imptag ≠ sliceCrc s p % 2 ^ 32 then .error 3
      else .ok rank

/-- The checks of R304 and what follows them; STOPPRESS, VOTE and DIGEST are judged by generation under 11 R345 and
R348, and any other packet of a newer generation is held (R305). -/
def ingress (s : State) (p j ptype : Nat) (pk : Packet) : State :=
  match screen s p ptype pk with
  | .error c => dropPacket s p j c ptype pk
  | .ok rank =>
    let own := genOf s p
    if ptype = 0x20 ∨ pk.gen = own then deliver s p j rank ptype pk
    else if ptype = 0x22 ∨ ptype = 0x24 ∨ pk.gen < own then dropPacket s p j 4 ptype pk
    else updXport s p (fun x => { x with held := x.held ++ [⟨j, ptype, pk, 0, true⟩] })

/-- Whether a packet is held at the head of a virtual channel of a port. -/
def vcHeld (s : State) (p j vc : Nat) : Bool := (xport s p).held.any (fun h => h.port == j && h.pk.vc == vc)

/-- A packet on a reserved-role port (R319). -/
def reservedIngress (s : State) (p j ptype : Nat) (pk : Packet) : State :=
  let role := jpRole s j
  let ofRole := if role = 1 then decide (0x40 ≤ ptype) && decide (ptype ≤ 0x4A) else role == 2 && decide (0x50 ≤ ptype) && decide (ptype ≤ 0x54)
  if !ofRole || pk.vc != 7 then dropPacket s p j 1 ptype pk
  else if (port s j).peer.all (fun i => i.id != pk.src) || pk.dst != devId s p then dropPacket s p j 2 ptype pk
  else match ptype with
    | 0x41 => recvDrReady s p j pk
    | 0x43 => recvDrDurable s p j pk
    | 0x45 => recvDrCommitted s p pk
    | 0x46 => recvDrError s p j pk
    | 0x49 => recvRdData s p pk
    | 0x4A => recvRdEnd s p pk
    | 0x50 => recvHsWrite s p j pk
    | 0x52 => recvHsRead s p j pk
    | _ => s

/-- A packet arrives on a port: an ACTIVE port of a partition that is not STRUCK (R277, 11 R353). A packet behind a held
one waits with it (R305). -/
def receive (s : State) (j ptype : Nat) (pk : Packet) : State :=
  match portPart s j with
  | none => s
  | some p =>
    if (port s j).state ≠ 5 ∨ (proof s p).slice = 9 then s
    else if isFabric j then
      if vcHeld s p j pk.vc then updXport s p (fun x => { x with held := x.held ++ [⟨j, ptype, pk, 0, false⟩] })
      else ingress s p j ptype pk
    else reservedIngress s p j ptype pk

/-- The heads of the held channels: each port and channel's first held packet. -/
def heldHeads (hs : List Held) : List Held :=
  hs.foldl (fun a h => if a.any (fun x => x.port == h.port && x.pk.vc == h.pk.vc) then a else a ++ [h]) []

/-- Receive buffers of a virtual channel freed (09 R270). -/
def freeBuffers (s : State) (j vc n : Nat) : State :=
  if n = 0 then s else updLink s j (fun l => { l with ownFreed := mset l.ownFreed 0 vc ((mget l.ownFreed 0 vc + n) % 1024) })

/-- A held packet taken off its channel and judged anew (R305). One that was held for its generation and is accepted
counts in HELD_GEN; one that only waited behind it does not. -/
def releaseOne (s : State) (p : Nat) (h : Held) : State :=
  let rest := (xport s p).held.erase h
  if h.pk.gen = genOf s p then
    let accepted := match screen s p h.ptype h.pk with
      | .ok _ => true
      | .error _ => false
    let s := updXport s p (fun x => { x with
      held := rest, heldGen := if h.newer && accepted then min (x.heldGen + 1) (2 ^ 64 - 1) else x.heldGen })
    ingress (freeBuffers s h.port h.pk.vc h.flits) p h.port h.ptype h.pk
  else if h.ptype = 0x20 ∨ h.ptype = 0x22 ∨ h.ptype = 0x24 ∨ h.pk.gen < genOf s p then
    ingress (freeBuffers (updXport s p (fun x => { x with held := rest })) h.port h.pk.vc h.flits) p h.port h.ptype h.pk
  else s

/-- The heads of the held channels whose generation has not come are marked as held for it. -/
def markHeads (s : State) (p : Nat) : State :=
  if (xport s p).held.isEmpty then s
  else updXport s p (fun x =>
    let hs := heldHeads x.held
    { x with held := x.held.map (fun h => if hs.contains h then { h with newer := true } else h) })

/-- Every held packet that can be judged is, channel by channel, for at most `n` packets. -/
def releaseHeld (p : Nat) : Nat → State → State
  | 0, s => markHeads s p
  | n + 1, s =>
    match (heldHeads (xport s p).held).find? (fun h =>
        decide (h.pk.gen ≤ genOf s p) || h.ptype == 0x20 || h.ptype == 0x22 || h.ptype == 0x24) with
    | some h => releaseHeld p n (releaseOne s p h)
    | none => markHeads s p

/-- HELD_PACKET_TIMEOUT (R305): the head packet of a channel is dropped. -/
def dropHeld (s : State) (j vc : Nat) : State :=
  match portPart s j with
  | none => s
  | some p =>
    match (xport s p).held.find? (fun h => h.port == j && h.pk.vc == vc) with
    | some h => dropPacket (freeBuffers (updXport s p (fun x => { x with held := x.held.erase h })) j vc h.flits) p j 4 h.ptype h.pk
    | none => s

/-! ### The end of a command -/

/-- Negative events handled. -/
def handleAll (s : State) : State := raiseAll (s.raised.length + 64) s

/-- What a partition's engines do as soon as they can: held packets, PLANES and state transfer, mirror traffic, drains,
votes. -/
def settlePart (s : State) (p : Nat) : State :=
  let s := releaseHeld p ((xport s p).held.length) s
  let s := settleBarrier (trySendXfer (trySendPlanes (sendChangedIdents s p) p) p) p
  let s := settleMirror s p
  let s := drainLosses s p
  tryCommit (settleVotes p ((proof s p).steps.length + 1) s) p

/-- The state at the end of a command: negative events are handled, every engine moves as far as it can, FENCE and WAIT
descriptors that can complete do, and the operating points follow (14 R424); the command queue is untouched. -/
def settleAll (s t : State) : State :=
  let t := handleAll t
  let t := (List.range (nparts t)).foldl settlePart t
  { syncPoints (settle (handleAll t)) with pending := s.pending, raised := [] }

/-- The state at the end of a command; one that leaves the device in reset or without clocks settles nothing, and sends
no STOP (11 R349). -/
def finish (s t : State) : State := if awake t then settleAll s t else { t with pending := s.pending, raised := [] }

/-- The end of every command that others may wait for. A device in reset or without clocks takes no command but its pins
(log 36). -/
def done (s t : State) : Host.Outcome State Fault Refusal := .next (if awake s then finish s t else s)

/-- The end of a command on a pin. -/
def pinDone (s t : State) : Host.Outcome State Fault Refusal := .next (finish s t)

end Sys2Proof.Machine
end

