-- ==== Sys2Proof/Machine/Csq.lean ====
section
/-! DEFINITION. The core sequencer (05_core_sequencer.md R124 to R131, R142 to R151): scalar registers, control space,
every instruction of R126, and TISSUE. A sequencer command is the execution of its instruction at the core's PC; it is
turned away while the core's sequencer does not execute (log 2, log 4). -/

namespace Sys2Proof.Machine

/-! ### Registers and the PC (R124, R129) -/

/-- s[r]; s0 reads as 0. -/
def sget (k : Core) (r : SReg) : BitVec 64 := if r = 0 then 0 else mget k.sregs 0 r.toNat

/-- s[r] written; writes to s0 are discarded. -/
def sset (k : Core) (r : SReg) (v : BitVec 64) : Core := if r = 0 then k else { k with sregs := mset k.sregs 0 r.toNat v }

/-- Whether a core's sequencer executes. -/
def csqReady (s : State) (c : Nat) : Bool := awake s && (core s c).csq == .running && !(unitsOf s c).stalled

/-- Fault codes of R151. -/
inductive CsqFault where
  /-- 0x01. -/
  | illegal
  /-- 0x02. -/
  | misaligned
  /-- 0x03. -/
  | range
  /-- 0x04. -/
  | pcRange
  /-- 0x07. -/
  | ecc
  deriving DecidableEq, Repr, Inhabited

/-- The code. -/
def CsqFault.code : CsqFault → Nat
  | .illegal => 1 | .misaligned => 2 | .range => 3 | .pcRange => 4 | .ecc => 7

/-- The CSQ faults at its PC (R129, R150, R151). -/
def csqFault (s : State) (c : Nat) (f : CsqFault) : State :=
  endProgram s c { outcome := 1, fault := f.code, pc := (core s c).pc }

/-- PC + 4 in 64 bits. -/
def pcNext (k : Core) : BitVec 64 := BitVec.ofNat 64 (k.pc + 4)

/-- Bytes of program memory. -/
def pmSize : Nat := 0x40000

/-- A core's state replaced. -/
def setCore (s : State) (c : Nat) (k : Core) : State := updCore s c (fun _ => k)

/-- The trace of the last 64 instructions completed, with the one in hand (13 R412). -/
def traced (k : Core) : List Nat := (k.pc :: k.lastPcs).take 64

/-- The instruction completes with core state `k` and goes on at a target, or faults where the target lies outside
program memory (R124, R129). -/
def stepTo (s : State) (c : Nat) (k : Core) (t : BitVec 64) : State :=
  if t.toNat < pmSize then setCore s c { k with pc := t.toNat, lastPcs := traced k } else csqFault (setCore s c k) c .pcRange

/-- The answer of an instruction that goes on at a target. -/
def goTo (s : State) (c : Nat) (k : Core) (t : BitVec 64) : Host.Outcome State Fault Refusal :=
  if t.toNat < pmSize then .next (stepTo s c k t) else done s (stepTo s c k t)

/-- The answer of an instruction that falls through. -/
def advance (s : State) (c : Nat) (k : Core) : Host.Outcome State Fault Refusal := goTo s c k (pcNext k)

/-- Whether the word at the PC holds an uncorrectable ECC error (R129). -/
def badWord (k : Core) : Bool := k.pmBad.contains (k.pc / 4)

/-- The fetch of such a word: the CSQ faults, and the core is charged (R129; 13 R394). -/
def eccFault (s : State) (c : Nat) : State := csqFault (charge s (ucCore c) 64) c .ecc

/-- An instruction of a sequencer that executes; turned away otherwise. -/
def csqDo (s : State) (c : Nat) (f : Core → Host.Outcome State Fault Refusal) : Host.Outcome State Fault Refusal :=
  if csqReady s c then (if badWord (core s c) then done s (eccFault s c) else f (core s c)) else .next s

/-- An illegal instruction unless the fields that must be 0 are. -/
def legal (s : State) (c : Nat) (ok : Bool) (r : Host.Outcome State Fault Refusal) : Host.Outcome State Fault Refusal :=
  if ok then r else done s (csqFault s c .illegal)

/-- An instruction whose result goes to s[rd]. -/
def putReg (s : State) (c : CoreId) (rd : SReg) (f : Core → BitVec 64) : Host.Outcome State Fault Refusal :=
  csqDo s c (fun k => advance s c (sset k rd (f k)))

/-- A register operation (REG form). -/
def regOp (s : State) (c : CoreId) (rd ra rb : SReg) (f : BitVec 64 → BitVec 64 → BitVec 64) :
    Host.Outcome State Fault Refusal := putReg s c rd (fun k => f (sget k ra) (sget k rb))

/-- IMM14 sign-extended (R125). -/
def immX (imm : BitVec 14) : BitVec 64 := imm.signExtend 64

/-- An immediate operation (IMM form). -/
def immOp (s : State) (c : CoreId) (rd ra : SReg) (imm : BitVec 14) (f : BitVec 64 → BitVec 64 → BitVec 64) :
    Host.Outcome State Fault Refusal := putReg s c rd (fun k => f (sget k ra) (immX imm))

/-- A shift by IMM14[5:0]; IMM14[13:6] must be 0. -/
def shiftImm (s : State) (c : CoreId) (rd ra : SReg) (imm : BitVec 14) (f : BitVec 64 → Nat → BitVec 64) :
    Host.Outcome State Fault Refusal :=
  csqDo s c (fun k => legal s c (imm.toNat < 64) (advance s c (sset k rd (f (sget k ra) imm.toNat))))

/-! ### ALU operations (R126, R127) -/

/-- 1 or 0. -/
def bit64 (b : Bool) : BitVec 64 := if b then 1 else 0

/-- A shift count: s[rb] mod 64. -/
def shamt (b : BitVec 64) : Nat := b.toNat % 64

/-- DIV (R127). -/
def csqDivide (a b : BitVec 64) : BitVec 64 :=
  if b = 0 then 0
  else if a.toInt = -2 ^ 63 ∧ b.toInt = -1 then 0x7FFFFFFFFFFFFFFF
  else BitVec.ofInt 64 (a.toInt.tdiv b.toInt)

/-- REM (R127). -/
def csqRemainder (a b : BitVec 64) : BitVec 64 := if b = 0 then 0 else BitVec.ofInt 64 (a.toInt.tmod b.toInt)

/-- MULHU: the high 64 bits of the unsigned product. -/
def mulHigh (a b : BitVec 64) : BitVec 64 := BitVec.ofNat 64 (a.toNat * b.toNat / 2 ^ 64)

/-- MIN, signed. -/
def minS (a b : BitVec 64) : BitVec 64 := if a.toInt < b.toInt then a else b
/-- MAX, signed. -/
def maxS (a b : BitVec 64) : BitVec 64 := if a.toInt < b.toInt then b else a
/-- MINU. -/
def minU (a b : BitVec 64) : BitVec 64 := if a.toNat < b.toNat then a else b
/-- MAXU. -/
def maxU (a b : BitVec 64) : BitVec 64 := if a.toNat < b.toNat then b else a

/-! ### Loads and stores (R128) -/

/-- The address s[ra] + IMM14. -/
def eaOf (k : Core) (ra : SReg) (imm : BitVec 14) : Nat := (sget k ra + immX imm).toNat

/-- The fault of an access of `n` bytes at `a`, if any: alignment, then range (the order of R129; log 31). -/
def accessFault (a n : Nat) : Option CsqFault :=
  if a % n ≠ 0 then some .misaligned else if spadSize < a + n then some .range else none

/-- A load of `n` bytes, extended by `ext` (R126, R128); a poisoned line sets POISON_SEEN and is consumed. -/
def csqLoad (s : State) (c : CoreId) (rd ra : SReg) (imm : BitVec 14) (n : Nat) (ext : Nat → BitVec 64) :
    Host.Outcome State Fault Refusal :=
  csqDo s c (fun k =>
    let a := eaOf k ra imm
    match accessFault a n with
    | some f => done s (csqFault s c f)
    | none =>
      let b := spadRead k a n
      let k := sset k rd (ext (leNat b.data))
      if b.bad then done s (consumeLine (stepTo s c { k with poisonSeen := true } (pcNext k)) c 0)
      else advance s c k)

/-- A sign-extension from `n` bytes. -/
def signExt (n x : Nat) : BitVec 64 := BitVec.ofInt 64 (sext (8 * n) x)

/-- A store of the low `n` bytes of s[rs]. -/
def csqStore (s : State) (c : CoreId) (rs ra : SReg) (imm : BitVec 14) (n : Nat) : Host.Outcome State Fault Refusal :=
  csqDo s c (fun k =>
    let a := eaOf k ra imm
    match accessFault a n with
    | some f => done s (csqFault s c f)
    | none => advance s c (spadWrite k a (.clean (leBytes n (sget k rs).toNat))))

/-! ### Branches and jumps (R124) -/

/-- A branch: s[ra] compared with s[rs]. -/
def csqBranch (s : State) (c : CoreId) (rs ra : SReg) (imm : BitVec 14) (f : BitVec 64 → BitVec 64 → Bool) :
    Host.Outcome State Fault Refusal :=
  csqDo s c (fun k =>
    goTo s c k (if f (sget k ra) (sget k rs) then BitVec.ofNat 64 k.pc + 4 * immX imm else pcNext k))

/-! ### Control space (R130) -/

/-- A queue's fill. -/
def qfill (s : State) (c n : Nat) : Nat := (unitQ (unitsOf s c) n).length

/-- A control-space entry of a core; none where the table lists none. -/
def csRead (s : State) (c : Nat) (k : Core) (i : Nat) : Option (BitVec 64) :=
  let w (x : Nat) : Option (BitVec 64) := some (BitVec.ofNat 64 x)
  if 0x040 ≤ i ∧ i < 0x080 then w (semOf k (i - 0x040))
  else if 0x100 ≤ i ∧ i < 0x180 then w (mget k.epi 0 (i - 0x100)).toNat
  else match i with
    | 0x000 => w ((logicalOf s c).getD 0)
    | 0x001 => w c
    | 0x002 => w (coreOwner s c)
    | 0x003 => w k.lrank
    | 0x004 => w k.lcount
    | 0x008 => w k.step
    | 0x009 => w k.gen
    | 0x00A => w k.argva
    | 0x010 => w (mget s.pulses 0 (c / 8) - k.cycleBase)
    | 0x011 => w (b2n k.poisonSeen + 2 * b2n k.semSat)
    | 0x180 => some k.sfNan
    | 0x181 => some k.sfInf
    | 0x182 => some k.sfSat
    | 0x183 => some k.sfDiv0
    | 0x190 => w (qfill s c 0)
    | 0x191 => w (qfill s c 1)
    | 0x192 => w (qfill s c 2)
    | 0x193 => w (qfill s c 3)
    | _ => none

/-- A control-space entry written; read-only entries ignore the write (R129, R130). -/
def csWrite (k : Core) (i : Nat) (v : BitVec 64) : Core :=
  if 0x040 ≤ i ∧ i < 0x080 then setSem k (i - 0x040) v.toNat
  else if 0x100 ≤ i ∧ i < 0x180 then
    { k with epi := mset k.epi 0 (i - 0x100) (epiWord (i % 8) v.toNat) }
  else match i with
    | 0x011 => { k with poisonSeen := k.poisonSeen && !bitOf v 0, semSat := k.semSat && !bitOf v 1 }
    | 0x180 => { k with sfNan := v }
    | 0x181 => { k with sfInf := v }
    | 0x182 => { k with sfSat := v }
    | 0x183 => { k with sfDiv0 := v }
    | _ => k

/-- IMM14[11:0] of CSRR and CSRW. -/
def csIndex (imm : BitVec 14) : Nat := imm.toNat % 4096

/-- CSRR (R126, R129). -/
def csrRead (s : State) (c : CoreId) (rd ra : SReg) (imm : BitVec 14) : Host.Outcome State Fault Refusal :=
  csqDo s c (fun k =>
    legal s c (ra == 0 && decide (imm.toNat < 4096)) (match csRead s c k (csIndex imm) with
      | some v => advance s c (sset k rd v)
      | none => done s (csqFault s c .illegal)))

/-- CSRW (R126, R129). -/
def csrWrite (s : State) (c : CoreId) (rs ra : SReg) (imm : BitVec 14) : Host.Outcome State Fault Refusal :=
  csqDo s c (fun k =>
    legal s c (ra == 0 && decide (imm.toNat < 4096) && (csRead s c k (csIndex imm)).isSome)
      (advance s c (csWrite k (csIndex imm) (sget k rs))))

/-! ### Semaphores and barriers (R142, R144) -/

/-- The semaphore that an instruction names: (s[r] + IMM14[5:0]) mod 64. -/
def semIndex (k : Core) (r : SReg) (imm : BitVec 14) : Nat := ((sget k r).toNat + imm.toNat % 64) % 64

/-- s[r][31:0]. -/
def low32 (k : Core) (r : SReg) : Nat := (sget k r).toNat % 2 ^ 32

/-- SEMSIG. -/
def semSig (s : State) (c : CoreId) (rs ra : SReg) (imm : BitVec 14) : Host.Outcome State Fault Refusal :=
  csqDo s c (fun k => legal s c (imm.toNat < 64) (advance s c (semAdd k (semIndex k rs imm) (low32 k ra))))

/-- SEMWAIT: it goes on once the semaphore covers the value, and waits until then. -/
def semWait (s : State) (c : CoreId) (rs ra : SReg) (imm : BitVec 14) : Host.Outcome State Fault Refusal :=
  csqDo s c (fun k => legal s c (imm.toNat < 64)
    (if low32 k ra ≤ semOf k (semIndex k rs imm) then advance s c k else .next s))

/-- SEMTAKE: the same, and the value is subtracted. -/
def semTakeOp (s : State) (c : CoreId) (rs ra : SReg) (imm : BitVec 14) : Host.Outcome State Fault Refusal :=
  csqDo s c (fun k => legal s c (imm.toNat < 64) (match semTake k (semIndex k rs imm) (low32 k ra) with
    | some k => advance s c k
    | none => .next s))

/-- SEMTEST. -/
def semTest (s : State) (c : CoreId) (rd ra : SReg) (imm : BitVec 14) : Host.Outcome State Fault Refusal :=
  csqDo s c (fun k => legal s c (imm.toNat < 64)
    (advance s c (sset k rd (BitVec.ofNat 64 (semOf k (semIndex k ra imm))))))

/-- BAR: the arrival is counted and the core waits (R144). -/
def barArrive (k : Core) (scope : Bool) : Core :=
  if scope then { k with bars1 := k.bars1 + 1, csq := .barrier true } else { k with bars0 := k.bars0 + 1, csq := .barrier false }

/-- BAR. -/
def csqBarrier (s : State) (c : CoreId) (rd ra : SReg) (imm : BitVec 14) : Host.Outcome State Fault Refusal :=
  csqDo s c (fun k => legal s c (rd == 0 && ra == 0 && decide (imm.toNat < 2)) (advance s c (barArrive k (imm.toNat == 1))))

/-- The galley group of a logical core (R144). -/
def galleyGroup (l : Nat) : Nat := defaultPhys l / 8

/-- The participants of a LAUNCH's barrier (R144). -/
def participants (l : Launch) (scope : Bool) (g : Nat) : List Nat :=
  (bitsSet l.mask 120).filter (fun n => scope || galleyGroup n == g)

/-- Whether a core waits in a barrier of a LAUNCH. -/
def atBarrier (s : State) (id n : Nat) (scope : Bool) : Bool :=
  (core s (physOf s n)).launch == id && (core s (physOf s n)).csq == .barrier scope

/-- Whether every participant of a barrier has arrived. -/
def allArrived (s : State) (id : Nat) (scope : Bool) (g : Nat) : Bool :=
  match launchOf s id with
  | some l => !(participants l scope g).isEmpty && (participants l scope g).all (fun n => atBarrier s id n scope)
  | none => false

/-- BARRIER_RELEASE: a barrier at which every participant has arrived lets them go on (R144, R145). -/
def releaseBarrier (s : State) (id : Nat) (scope : Bool) (g : Nat) : State :=
  match launchOf s id with
  | some l =>
    if allArrived s id scope g then
      (participants l scope g).foldl (fun s n => updCore s (physOf s n) (fun k => { k with csq := .running })) s
    else s
  | none => s

/-! ### TISSUE and HALT (R132 to R137, R149) -/

/-- The eight words of an epilogue record. -/
def epiRecord (k : Core) (n : Nat) : List (BitVec 32) := (List.range 8).map (fun w => mget k.epi 0 (8 * n + w))

/-- The step whose scale an epilogue reads (07 R203). -/
def scaleStep (k : Core) : Nat := if k.inStep then k.step else k.step + 1

/-- A queue entry as TISSUE reads it (R82, R135; 03 R87). -/
def issueEntry (s : State) (c : Nat) (k : Core) (w : BitVec 128) : TileEntry :=
  let p := coreOwner s c
  let e0 : TileEntry := { word := w, pc := k.pc, block := [], epi := [], oscale := 0, step := k.step, seq := (unitsOf s c).issued }
  let e := { e0 with
    block := (spadRead k e0.blk (if e0.unit < 2 then 64 else if e0.unit = 3 then 32 else 0)).data
    epi := if e0.unit < 2 then epiRecord k (mtEpi e0) else [] }
  { e with oscale := if e.unit < 2 then scaleFor (scaleE s (scaleIndex s p (epF e 0 16 16))) (scaleStep k) (proof s p).w else 0 }

/-- The checks of an entry at issue. -/
def issueCheck (e : TileEntry) : Option St :=
  match e.unit with
  | 0 | 1 => matrixCheck e
  | 3 => moverCheck e
  | _ => none

/-- An entry joins its unit's queue. -/
def enqueue (s : State) (c : Nat) (e : TileEntry) : State :=
  updUnits s c (fun u => { setUnitQ u e.unit (unitQ u e.unit ++ [e]) with issued := u.issued + 1 })

/-- The 128 bits that TISSUE issues: {s[rb], s[ra]}. -/
def tileWord (k : Core) (ra rb : SReg) : BitVec 128 := sget k rb ++ sget k ra

/-- TISSUE: a full queue stalls it (R134); an issue check that fails ends the program (R150). A move that fails there
has its record written (R140). -/
def csqIssue (s : State) (c : CoreId) (rd ra rb : SReg) (fn : BitVec 9) : Host.Outcome State Fault Refusal :=
  csqDo s c (fun k =>
    let e := issueEntry s c k (tileWord k ra rb)
    legal s c (rd == 0 && fn == 0 && decide (e.unit < 4)) (
      if 16 ≤ qfill s c e.unit then .next s
      else match issueCheck e with
        | some st =>
          let s' := if e.unit = 3 ∧ flagOk e 8 then writeMoveRecord s c e st false 0 else s
          done s (tileFault s' c e.unit st k.pc)
        | none => advance (enqueue s c e) c k))

/-- HALT: the sequencer stops fetching, and the program ends once all four queues are empty (R149). -/
def csqStop (s : State) (c : CoreId) (rd ra : SReg) (imm : BitVec 14) : Host.Outcome State Fault Refusal :=
  csqDo s c (fun k => legal s c (rd == 0 && imm == 0)
    (done s (finishHalt (setCore s c { k with csq := .halting (BitVec.ofNat 32 (low32 k ra)) k.pc, lastPcs := traced k }) c)))

/-! ### PROGRAM_START (R131, R145 to R148) -/

/-- Whether a LAUNCH is among the eight that its partition runs (R145). -/
def amongEight (s : State) (l : Launch) : Bool :=
  decide (((s.launches.filter (fun x => x.part == l.part && decide (x.id < l.id))).length) < 8)

/-- Whether a core is free for a LAUNCH: it runs no program and no earlier LAUNCH names it (R146). -/
def coreFree (s : State) (l : Launch) (n : Nat) : Bool :=
  !running s (physOf s n) && s.launches.all (fun x => decide (l.id ≤ x.id) || !(x.waiting.contains n || x.running.contains n))

/-- Whether a waiting core of a LAUNCH can start its program: the LAUNCH is among the eight and every core that it still
waits for is free (R145, R146) and awaits no substitution copy (01 R27). -/
def canStart (s : State) (l : Launch) (n : Nat) : Bool :=
  l.waiting.contains n && amongEight s l && l.waiting.all (fun c => coreFree s l c && !copyDue s c)

/-- Program memory of an image (R147): its words from byte 64. -/
def imageWords (im : Bytes) : Map (BitVec 32) :=
  mofList 0 0 ((List.range ((leAt im 4 4 - 64) / 4)).map (fun i => BitVec.ofNat 32 (leAt im (64 + 4 * i) 4)))

/-- The image loaded into a core. -/
def loadProgram (k : Core) (im : Bytes) : Core :=
  { k with pm := imageWords im, pmBad := [], entry := leAt im 8 4, imageValid := true }

/-- The scalar registers at the start of a program (R148). -/
def startRegs (argva n lrank lcount : Nat) : Map (BitVec 64) :=
  mset (mset (mset (mset [] 0 1 (BitVec.ofNat 64 argva)) 0 2 (BitVec.ofNat 64 n)) 0 3 (BitVec.ofNat 64 lrank)) 0 4
    (BitVec.ofNat 64 lcount)

/-- A core at the start of a program (R131, R148). -/
def startCore (s : State) (l : Launch) (n : Nat) (k : Core) : Core :=
  let cs := bitsSet l.mask 120
  let lrank := (cs.filter (fun x => decide (x < n))).length
  { k with
    sregs := startRegs l.argva n lrank cs.length, pc := k.entry, csq := .running, sem := []
    step := l.step.getD (proof s l.part).lastProven, gen := genOf s l.part, argva := l.argva, lrank := lrank
    lcount := cs.length, poisonSeen := false, semSat := false, launch := l.id, inStep := l.step.isSome, bars0 := 0, bars1 := 0 }

/-- The image of a LAUNCH loaded into every named core, once, before any of them starts (08 R241). -/
def loadLaunch (s : State) (l : Launch) : State :=
  match l.loaded, l.image with
  | false, some im =>
    let s := l.waiting.foldl (fun s n => updCore s (physOf s n) (fun k => loadProgram k im)) s
    updLaunch s l.id (fun l => { l with loaded := true })
  | _, _ => s

/-- A LAUNCH of which a named core has frozen while it waited completes with FENCED and starts none (R150, 08 R241). -/
def fenceLaunch (s : State) (l : Launch) : State :=
  let s := { s with launches := s.launches.filter (fun x => x.id != l.id) }
  let h := partHp s l.part
  match launchFlight s h l.id with
  | some f => finishFlight s h f .fenced 0
  | none => s

/-- PROGRAM_START: a waiting core of a LAUNCH starts its program. -/
def startProgram (s : State) (id n : Nat) : State :=
  match launchOf s id with
  | some l =>
    if canStart s l n then
      if l.waiting.any (smem s.frozenCores) then fenceLaunch s l
      else
        let s := loadLaunch s l
        let c := physOf s n
        let s := updUnits (updCore s c (startCore s l n)) c emptyQueues
        updLaunch s id (fun l => { l with waiting := l.waiting.filter (· != n), running := l.running ++ [n] })
    else s
  | none => s

end Sys2Proof.Machine
end

