-- ==== Sys2Proof/Machine/Stream.lean ====
section
/-! DEFINITION. Stream instructions (04_stream_fabric.md R89 to R96, R104 to R118): the stream block and its checks,
ports, units, scans, compress and expand, ordered reducers, the status record and poison. -/

namespace Sys2Proof.Machine

/-! ### Typed streams (R99, R104, R105) -/

/-- A stream: its compute type and its elements with their poison. -/
structure Strm where
  /-- Type code. -/
  ty : Nat
  /-- Elements as stored bits, with poison. -/
  els : List (Nat × Bool)
  deriving DecidableEq, Repr, Inhabited

/-- The floating-point format of a compute type. -/
def tyFp (ty : Nat) : FpFmt := if ty = 1 then bf16 else if ty = 2 then fp16 else fp32

/-- The value of an element of a type. -/
def tyVal (ty x : Nat) : FVal := if ty = 6 then intVal (sext 32 x) else fpDecode (tyFp ty) x

/-- Bits of a type. -/
def tyBits (ty : Nat) : Nat := if ty = 1 ∨ ty = 2 then 16 else 32

/-- Stored bits with every NaN canonical (02 R37). -/
def canonTy (ty x : Nat) : Nat :=
  let x := x % 2 ^ tyBits ty
  if ty ≠ 6 ∧ (tyVal ty x).isNan then (tyFp ty).nanCode.getD x else x

/-- The events of R115 that a conversion event counts as. -/
def cvEvs (e : CvEv) : Evs :=
  match e with
  | .saturated => { sat := 1 }
  | .nanMade => { nan := 1 }
  | _ => {}

/-- A value converted to a compute type by R44 with RNE. -/
def toTy (ty : Nat) (v : FVal) : Nat × Evs :=
  if ty = 6 then let r := intRound 32 .rne v; (toCode 32 r.1, cvEvs r.2)
  else let r := fpRound (tyFp ty) .rne v; (r.1, cvEvs r.2)

/-! ### The stream block (R91, R92) -/

/-- N. -/
def sbN (b : Bytes) : Nat := leAt b 0 4
/-- SEGLEN. -/
def sbSeg (b : Bytes) : Nat := leAt b 4 4
/-- An immediate. -/
def sbImm (b : Bytes) (i : Nat) : Nat := leAt b (16 + 4 * i) 4
/-- The descriptor of an input port. -/
def sbIn (b : Bytes) (i : Nat) : Bytes := (b.drop (32 + 32 * i)).take 32
/-- The descriptor of an output port. -/
def sbOut (b : Bytes) (o : Nat) : Bytes := (b.drop (288 + 32 * o)).take 32

/-- BASE. -/
def sdBase (d : Bytes) : Nat := leAt d 0 3
/-- FMT. -/
def sdFmt (d : Bytes) : Nat := leAt d 3 1 % 16
/-- EN. -/
def sdEn (d : Bytes) : Bool := (leAt d 3 1).testBit 4
/-- RND. -/
def sdRnd (d : Bytes) : Nat := natFld (leAt d 3 1) 5 2
/-- INNER. -/
def sdInner (d : Bytes) : Nat := leAt d 4 2
/-- OUTER. -/
def sdOuter (d : Bytes) : Nat := leAt d 6 2
/-- OSTRIDE. -/
def sdOstride (d : Bytes) : Nat := leAt d 8 3
/-- SBASE. -/
def sdSbase (d : Bytes) : Nat := leAt d 12 3
/-- The port's capacity. -/
def sdCap (d : Bytes) : Nat := sdInner d * sdOuter d
/-- The format of a port. -/
def sdFormat (d : Bytes) : Fmt := (fmtOf (sdFmt d)).getD .fp32

/-- The byte ranges of a port: its rows, and its scale array where it counts (R94). -/
def sdSpans (d : Bytes) (scales : Bool) : List (Nat × Nat) :=
  let f := sdFormat d
  if sdCap d = 0 then []
  else
    (List.range (sdOuter d)).map (fun r => (sdBase d + r * sdOstride d, rowBytes f (sdInner d))) ++
    (if scales && !f.scalar then [(sdSbase d, sdOuter d * blocksOf f (sdInner d) * f.scaleBytes)] else [])

/-- Whether two lists of ranges meet. -/
def spansMeet (a b : List (Nat × Nat)) : Bool :=
  a.any (fun x => b.any (fun y => decide (x.1 < y.1 + y.2) && decide (y.1 < x.1 + x.2)))

/-- An in-place pair (R95). -/
def inPlace (a b : Bytes) : Bool :=
  sdBase a == sdBase b && sdOstride a == sdOstride b && sdInner a == sdInner b && sdOuter a == sdOuter b &&
  (sdFormat a).bits == (sdFormat b).bits

/-- One used descriptor's checks (R95). -/
def portOk (d : Bytes) (inp : Bool) : Bool :=
  let f := sdFormat d
  let al := if f.bits = 32 then 4 else if f.bits = 16 then 2 else 1
  sdEn d && sdFmt d != 15 && !(leAt d 3 1).testBit 7 && leAt d 11 1 == 0 && leAt d 15 1 == 0 && leAt d 30 2 == 0 &&
  (!inp || sdRnd d == 0) && sdBase d % al == 0 && sdOstride d % al == 0 && sdSbase d % al == 0 &&
  (sdSpans d true).all (fun x => decide (x.1 + x.2 ≤ spadSize))

/-- The rate domain of a source in a valid forme. -/
def domOf (f : Bytes) (c : Nat) : Dom := match srcInfo f (typedUnits f) c with
  | some (_, d) => d
  | none => .any

/-- The domain that a reducer reduces. -/
def redDom (f : Bytes) (r : UnitRec) : Dom := match r.uses with
  | some (us, _) => (joinDom (us.map (domOf f))).getD .full
  | none => .full

/-- The largest count a domain that is not reduced can produce (R95). -/
def plainLen (b : Bytes) (d : Dom) : Nat := match d with
  | .denseIn i => sdCap (sbIn b i)
  | _ => sbN b

/-- Results of a reducer over `n` elements, in words of its output (R114). -/
def redLen (r : UnitRec) (seg n : Nat) : Nat :=
  let n := if r.op = 6 then n / 8 else n
  let k := if r.mode.testBit 0 then n else if n = 0 then 0 else if seg = 0 then 1 else (n + seg - 1) / seg
  if 5 ≤ r.op then 8 * k else k

/-- The largest count a source can produce (R95). -/
def maxLen (f b : Bytes) (c : Nat) : Nat := match domOf f c with
  | .reduced u => redLen (foUnit f u) (sbSeg b) (plainLen b (redDom f (foUnit f u)))
  | d => plainLen b d

/-- Whether a source is a reducer whose results are 32-byte records. -/
def isRecord (f : Bytes) (c : Nat) : Bool := match domOf f c with
  | .reduced u => decide (5 ≤ (foUnit f u).op)
  | _ => false

/-- A record port's descriptor (R95, R114). -/
def recordPortOk (d : Bytes) : Bool := sdFmt d == 6 && sdCap d % 8 == 0 && sdInner d % 8 == 0

/-- The checks of R95 when an instruction starts; false gives BAD_DESC. A port's byte range is that of its rows, row by
row, and of its scale array, but for the scale array of an INT4 output port, which the device does not write (R48; DEDUCED,
log 60). -/
def streamOk (e : TileEntry) (f b : Bytes) : Bool :=
  let ins := foInputs f
  let outs := foOutputs f
  tileReservedOk e.word && decide (e.spec < 64) && e.blk % 32 == 0 && decide (e.blk + 416 ≤ spadSize) && flagOk e 32 &&
  ((b.drop 8).take 8).all (· == 0) &&
  ins.all (fun i => portOk (sbIn b i) true && (foDense f i || sdCap (sbIn b i) == sbN b)) &&
  outs.all (fun o =>
    let d := sbOut b o
    portOk d false && decide (maxLen f b (foSrc f o) ≤ sdCap d) && (!isRecord f (foSrc f o) || recordPortOk d)) &&
  (foUnits f).all (fun r => r.kind != .red || r.op != 6 || match r.uses with
    | some (us, _) => us.all (fun c => if c < 8 then recordPortOk (sbIn b c) else domOf f c != .full || sbN b % 8 == 0)
    | none => true) &&
  outs.all (fun o =>
    let d := sbOut b o
    let sp := sdSpans d (!isInt4 (sdFormat d))
    outs.all (fun o2 => o2 == o || !spansMeet sp (sdSpans (sbOut b o2) (!isInt4 (sdFormat (sbOut b o2))))) &&
    ins.all (fun i => inPlace d (sbIn b i) || !spansMeet sp (sdSpans (sbIn b i) true)))

/-! ### Input ports (R93, R94, R104) -/

/-- An input port's stream, with its events. -/
def readPort (k : Core) (d : Bytes) (ty : Nat) : Strm × Evs :=
  let f := sdFormat d
  let inner := sdInner d
  let nb := blocksOf f inner
  let z := f.scaleBytes
  let els := (List.range (sdOuter d)).flatMap (fun r =>
    let row := spadRead k (sdBase d + r * sdOstride d) (rowBytes f inner)
    let sc := spadRead k (sdSbase d + r * nb * z) (nb * z)
    (List.range inner).map (fun c =>
      let x := elemAt f.bits row.data c
      let g := if f.scalar then 0 else c / f.group
      let s := leAt sc.data (g * z) z
      let (v, ev) : FVal × Evs := if f.scalar then (f.elem x, {})
        else if isInt4 f then
          let t := f.toF32 x s
          (fpDecode Machine.fp32 t.1, cvEvs t.2)
        else (f.scaled x s, {})
      let t := toTy ty v
      let lo := c * f.bits / 8
      let bad := row.badIn lo ((c * f.bits + f.bits + 7) / 8 - lo) || (!f.scalar && sc.badIn (g * z) z)
      ((t.1, bad), ev.add t.2)))
  (⟨ty, els.map (·.1)⟩, els.foldl (fun a x => a.add x.2) {})

/-! ### Units (R105 to R114) -/

/-- What an instruction gathers as its units run (R115). -/
structure SfAcc where
  /-- Event counts. -/
  ev : Evs := {}
  /-- CNT0. -/
  cnt0 : Nat := 0
  /-- CNT1. -/
  cnt1 : Nat := 0
  /-- AMAX_NAN. -/
  amaxNan : Bool := false
  /-- EXP_SHORT. -/
  short : Bool := false
  /-- EXP_LEFT. -/
  left : Bool := false
  deriving DecidableEq, Repr, Inhabited

/-- An INT32 result of the ALU (R106, R107). -/
def aluInt (op : Nat) (a b : Int) : Int × Evs :=
  let big : Int := 2 ^ 31 - 1
  match op with
  | 0x01 => (a + b, {})
  | 0x02 => (a - b, {})
  | 0x03 => (if a < b then a else b, {})
  | 0x04 => (if a < b then b else a, {})
  | 0x0B => (a * 2 ^ (b % 32).toNat, {})
  | 0x0C => (((toCode 32 a / 2 ^ (b % 32).toNat : Nat) : Int), {})
  | 0x0D => (a / 2 ^ (b % 32).toNat, {})
  | 0x0E => if a = -2 ^ 31 then (big, { sat := 1 }) else (a.natAbs, {})
  | 0x0F => if a = -2 ^ 31 then (big, { sat := 1 }) else (-a, {})
  | 0x10 => if b = 0 then (0, { div0 := 1 }) else if a = -2 ^ 31 ∧ b = -1 then (big, { sat := 1 }) else (a.tdiv b, {})
  | 0x11 => if b = 0 then (0, { div0 := 1 }) else (a.tmod b, {})
  | _ => (a, {})

/-- A floating-point result of the ALU (R106). -/
def aluFp (ty op : Nat) (a b : FVal) : Nat × Evs :=
  let f := tyFp ty
  match op with
  | 0x01 => ieeeOp f [a, b] (a.add b)
  | 0x02 => ieeeOp f [a, b] (a.add b.negate)
  | 0x03 => ieeeOp f [a, b] (a.min b)
  | 0x04 => ieeeOp f [a, b] (a.max b)
  | 0x0E => ieeeOp f [a] a.abs
  | _ => ieeeOp f [a] a.negate

/-- A comparison (R106): any comparison with a NaN holds only for NE. -/
def cmpHolds (mode : Nat) (o : Option Ordering) : Bool :=
  match o with
  | none => mode == 1
  | some r => match mode with
    | 0 => r == .eq
    | 1 => r != .eq
    | 2 => r == .lt
    | 3 => r != .gt
    | 4 => r == .gt
    | _ => r != .lt

/-- An element of an ALU (R106). -/
def aluElem (r : UnitRec) (a b d : Nat) : Nat × Evs :=
  let w := 2 ^ tyBits r.ty
  match r.op with
  | 0x05 => (b2n (cmpHolds r.mode (FVal.cmp (tyVal r.ty a) (tyVal r.ty b))), {})
  | 0x06 => (canonTy r.ty (if d = 0 then b else a), {})
  | 0x07 => (canonTy r.ty (a &&& b), {})
  | 0x08 => (canonTy r.ty (a ||| b), {})
  | 0x09 => (canonTy r.ty (a ^^^ b), {})
  | 0x0A => (canonTy r.ty (w - 1 - a % w), {})
  | 0x12 => toTy r.dty (tyVal r.ty a)
  | 0x13 => (canonTy r.ty a, {})
  | op =>
    if r.ty = 6 then
      let x := aluInt op (sext 32 a) (sext 32 b)
      (toCode 32 x.1, x.2)
    else aluFp r.ty op (tyVal r.ty a) (tyVal r.ty b)

/-- An element of an FMA/MUL unit (R107, R108). -/
def fmaElem (r : UnitRec) (a b c : Nat) : Nat × Evs :=
  if r.ty = 6 then
    let p := sext 32 a * sext 32 b
    (toCode 32 (if r.op = 1 then p else if r.op = 2 then p + sext 32 c else p - sext 32 c), {})
  else
    let x := tyVal r.ty a
    let y := tyVal r.ty b
    let z := tyVal r.ty c
    if r.op = 1 then ieeeOp (tyFp r.ty) [x, y] (x.mul y)
    else ieeeOp (tyFp r.ty) [x, y, z] ((x.mul y).add (if r.op = 2 then z else z.negate))

/-- A scan's fold (R110): the running value and poison, the outputs newest first, and the events. -/
structure ScanSt where
  /-- The running value with the poison of its segment so far. -/
  run : Nat × Bool
  /-- Outputs, newest first. -/
  out : List (Nat × Bool)
  /-- Events. -/
  ev : Evs
  deriving DecidableEq, Repr, Inhabited

/-- One position of a scan: data, initial value, flag. -/
def scanStep (r : UnitRec) (st : ScanSt) (x : (Nat × Bool) × (Nat × Bool) × (Nat × Bool)) : ScanSt :=
  let seg := r.mode.testBit 1
  let start := st.out.isEmpty || (seg && x.2.2.1 != 0)
  let run := if start then x.2.1 else st.run
  let run := (run.1, run.2 || (seg && x.2.2.2))
  let y := redWord (r.op - 1) (r.ty == 6) (BitVec.ofNat 32 run.1) (BitVec.ofNat 32 x.1.1)
  let next := (y.1.toNat, run.2 || x.1.2)
  { run := next, out := (if r.mode.testBit 0 then (canonTy r.ty run.1, run.2) else next) :: st.out, ev := st.ev.add y.2 }

/-- EXPAND (R111, R116): mask, fill and dense elements; the outputs, the dense elements used, and whether they ran
short. -/
def expand (poisonAll : Bool) : List ((Nat × Bool) × (Nat × Bool)) → List (Nat × Bool) → List (Nat × Bool) × Nat × Bool
  | [], _ => ([], 0, false)
  | (m, fill) :: r, ds =>
    if m.1 = 0 then
      let t := expand poisonAll r ds
      ((fill.1, fill.2 || poisonAll) :: t.1, t.2)
    else match ds with
      | d :: ds =>
        let t := expand poisonAll r ds
        ((d.1, d.2 || poisonAll) :: t.1, t.2.1 + 1, t.2.2)
      | [] =>
        let t := expand poisonAll r []
        ((fill.1, fill.2 || poisonAll) :: t.1, t.2.1, true)

/-- A list cut into pieces of `n`, at most `fuel` of them; 0 takes it whole. -/
def cut {α : Type} (n : Nat) : Nat → List α → List (List α)
  | 0, _ => []
  | k + 1, l => if l.isEmpty then [] else if n = 0 then [l] else l.take n :: cut n k (l.drop n)

/-- A 32-byte record from eight words. -/
def recordOf (ws : List Nat) : ExAcc := ExAcc.ofBytes (ws.flatMap (fun w => leBytes 4 w))

/-- The eight words of a record. -/
def wordsOf (x : ExAcc) : List Nat := (List.range 8).map (fun i => leAt x.bytes (4 * i) 4)

/-- One reduction (R114): the result words, events and AMAX_NAN. -/
def reduce (r : UnitRec) (vs : List (List Nat)) : List Nat × Evs × Bool :=
  match r.op with
  | 4 =>
    let xs := vs.flatMap id
    let ok := xs.filter (fun x => !(tyVal 0 x).isNan)
    ([ok.foldl (fun a x => max a (x % 2 ^ 31)) 0], {}, xs.any (fun x => (tyVal 0 x).isNan))
  | 5 => (wordsOf ((vs.flatMap id).foldl (fun a x => a.input (tyVal 0 x)) {}), {}, false)
  | 6 => (wordsOf (vs.foldl (fun a x => a.combine (recordOf x)) {}), {}, false)
  | op =>
    let t := treeWords (op - 1) (r.ty == 6) (vs.map (fun x => BitVec.ofNat 32 (x.headD 0)))
    ([t.1.toNat], t.2, false)

/-- A reducer's items: words one by one, or records of eight words for ACC192, with poison. Over a COMPRESS domain they are
those of the emitted length, and an incomplete last record is dropped (DEDUCED, log 60). -/
def redItems (r : UnitRec) (x : Strm) : List (List Nat × Bool) :=
  if r.op = 6 then
    ((cut 8 x.els.length x.els).filter (fun c => c.length == 8)).map (fun c => (c.map (·.1), c.any (·.2)))
  else x.els.map (fun e => ([e.1], e.2))

/-- Lists read across: the items of each position (R114, ACROSS). -/
def across {α : Type} (n : Nat) (ls : List (List α)) : List (List α) :=
  (List.range n).map (fun i => ls.filterMap (fun l => l[i]?))

/-- The streams known so far, by source code. -/
abbrev SfEnv := List (Nat × Strm)

/-- A source for a consumer of type `ty` over `n` elements (R100). -/
def srcStrm (f b : Bytes) (env : SfEnv) (ty n c : Nat) : Strm :=
  match env.find? (fun x => x.1 == c) with
  | some x => x.2
  | none =>
    if c = 0x41 then ⟨6, (List.range n).map (fun i => (i % 2 ^ 32, false))⟩
    else
      let w := if c < 0x2C then sbImm b (c - 0x28) else if c < 0x40 then foConst f (c - 0x30) else 0
      ⟨ty, List.replicate n (w % 2 ^ tyBits ty, false)⟩

/-- One unit over its operand streams: its output stream, and what it adds to the record. -/
def runUnit (f b : Bytes) (env : SfEnv) (acc : SfAcc) (r : UnitRec) : Strm × SfAcc :=
  let (used, masks) := r.uses.getD ([], [])
  let len := if r.kind = .ce ∧ r.op = 2 then sbN b
    else match (used ++ masks).findSome? (fun c => (env.find? (fun x => x.1 == c)).map (fun x => x.2.els.length)) with
      | some n => n
      | none => sbN b
  let g (c : Nat) : List (Nat × Bool) := (srcStrm f b env r.ty len c).els
  let none_ : List (Nat × Bool) := List.replicate len (0, false)
  let col (i : Nat) : List (Nat × Bool) := match used[i]? with
    | some c => g c
    | none => none_
  let mcol : List (Nat × Bool) := match masks with
    | c :: _ => g c
    | [] => none_
  let pointwise (h : Nat → Nat → Nat → Nat → Nat × Evs) : Strm × SfAcc :=
    let rs := ((col 0).zip ((col 1).zip ((col 2).zip mcol))).map (fun x =>
      let y := h x.1.1 x.2.1.1 x.2.2.1.1 x.2.2.2.1
      ((y.1, x.1.2 || x.2.1.2 || x.2.2.1.2 || x.2.2.2.2), y.2))
    (⟨r.outTy, rs.map (·.1)⟩, { acc with ev := rs.foldl (fun a x => a.add x.2) acc.ev })
  match r.kind with
  | .alu => pointwise (fun a b _ d => aluElem r a b d)
  | .fma => pointwise (fun a b c _ => fmaElem r a b c)
  | .fn => pointwise (fun a _ _ _ => let y := fnOp r.op (BitVec.ofNat 32 a); (y.1.toNat, y.2))
  | .scan =>
    let st := ((col 0).zip ((col 1).zip mcol)).foldl (scanStep r) ⟨(0, false), [], {}⟩
    (⟨r.ty, st.out.reverse⟩, { acc with ev := acc.ev.add st.ev })
  | .ce =>
    let bad := mcol.any (·.2)
    let setCnt (a : SfAcc) (n : Nat) : SfAcc := if r.u = 20 then { a with cnt0 := n } else { a with cnt1 := n }
    if r.op = 1 then
      let out := (((col 0).zip mcol).filter (fun x => x.2.1 != 0)).map (fun x => (canonTy r.ty x.1.1, x.1.2 || bad))
      (⟨r.ty, out⟩, setCnt acc out.length)
    else
      let ds := g r.a
      let t := expand bad (mcol.zip (g r.c)) ds
      (⟨r.ty, t.1.map (fun x => (canonTy r.ty x.1, x.2))⟩,
        setCnt { acc with short := acc.short || t.2.2, left := acc.left || decide (t.2.1 < ds.length) } t.2.1)
  | .red =>
    let items := used.map (fun c => redItems r (srcStrm f b env r.ty len c))
    let n := (items.headD []).length
    let groups := if r.mode.testBit 0 then across n items else cut (sbSeg b) n (items.headD [])
    let rs := groups.map (fun gr =>
      let y := reduce r (gr.map (·.1))
      (y.1.map (fun w => (w, gr.any (·.2))), y.2))
    (⟨r.outTy, rs.flatMap (·.1)⟩,
      { acc with ev := rs.foldl (fun a x => a.add x.2.1) acc.ev, amaxNan := acc.amaxNan || rs.any (fun x => x.2.2) })

/-- Every unit run once its sources are known: the units in the order in which they were typed. -/
def runUnits (f b : Bytes) (env : SfEnv) (acc : SfAcc) : SfEnv × SfAcc :=
  (typedUnits f).foldl (fun st k =>
    let y := runUnit f b st.1 st.2 (foUnit f k.1)
    (st.1 ++ [(0x10 + k.1, y.1)], y.2)) (env, acc)

/-! ### Output ports (R93, R94, R104, R116; 02 R47, R48) -/

/-- emax of R47. -/
def mxEmax (f : Fmt) : Int :=
  match f with
  | .mx8e4m3 => 8
  | .mx8e5m2 => 15
  | .mx6e3m2 => 4
  | .mx6e2m3 => 2
  | .mx4 => 2
  | _ => 0

/-- A value times 2^-s. -/
def FVal.shift (v : FVal) (s : Int) : FVal :=
  match v with
  | .fin n m e => .fin n m (e - s)
  | v => v

/-- A block encoded into an MX format (R47): scale byte, element codes, events. -/
def mxBlock (f : Fmt) (vs : List (FVal × Rnd)) : Nat × List Nat × Evs :=
  if vs.any (fun v => v.1.isNan || v.1.isInf) then
    (255, vs.map (fun _ => 0), { nan := (vs.filter (fun v => !v.1.isNan)).length })
  else
    let top := vs.foldl (fun a v => if (a : Dy).lt v.1.abs.dy then v.1.abs.dy else a) Dy.zero
    let s : Int := if top.n = 0 then -127 else max (-127) (min 127 (ilog2 top.n.natAbs top.e - mxEmax f))
    let rs := vs.map (fun v => f.round v.2 (v.1.shift s))
    ((s + 127).toNat, rs.map (·.1), rs.foldl (fun a r => a.add (cvEvs r.2)) {})

/-- The writes of a port's row: address and blob of each, the events, and whether a poisoned element is written. -/
structure PortOut where
  /-- Writes in order. -/
  writes : List (Nat × Blob)
  /-- Events. -/
  ev : Evs
  /-- Poison written. -/
  bad : Bool
  deriving DecidableEq, Repr, Inhabited

/-- Row `r` of an output port from its elements, with their multipliers q by element (R48). A NaN product of an INT4 port,
as from 0 × infinity, gives element 0 and counts in no counter of R115 (DEDUCED, log 60). -/
def writeRow (k : Core) (d : Bytes) (r : Nat) (xs : List (FVal × Bool)) (qs : List (FVal × Bool)) : PortOut :=
  let f := sdFormat d
  let nb := blocksOf f (sdInner d)
  let step := k.step
  let xr := (xs.zipIdx).map (fun x =>
    (x.1, rndOf (sdRnd d) step (leAt d 16 2) ((leAt d 18 6 + r * leAt d 24 6 + x.2) % 2 ^ 48)))
  let addr := sdBase d + r * sdOstride d
  let (codes, ev, sw) : List (Nat × Bool) × Evs × List (Nat × Blob) :=
    if f.scalar then
      let rs := xr.map (fun x => (x.1.2, f.round x.2 x.1.1))
      (rs.map (fun x => (x.2.1, x.1)), rs.foldl (fun a x => a.add (cvEvs x.2.2)) {}, [])
    else
      let bs := (cut f.group xr.length xr).zipIdx
      bs.foldl (fun st b =>
        let q := qs.getD (b.2 * f.group) (.fin false 1 0, false)
        let bad := b.1.any (fun x => x.1.2)
        if isInt4 f then
          let rs := b.1.map (fun x => (f.round x.2 (x.1.1.mul q.1), x.1.2 || q.2))
          (st.1 ++ rs.map (fun y => (y.1.1, y.2)), rs.foldl (fun a y => a.add (cvEvs y.1.2)) st.2.1, st.2.2)
        else
          let y := mxBlock f (b.1.map (fun x => (x.1.1, x.2)))
          (st.1 ++ y.2.1.map (fun c => (c, bad)), st.2.1.add y.2.2,
            st.2.2 ++ [(sdSbase d + r * nb + b.2, ⟨[BitVec.ofNat 8 y.1], if bad then [(0, 1)] else []⟩)])) ([], {}, [])
  let bits := codes.length * f.bits
  let data := packElems f.bits (codes.map (·.1))
  let data := if bits % 8 = 0 then data
    else
      let last := data.length - 1
      let old := (rdByte k.spad (addr + last)).toNat / 2 ^ (bits % 8) * 2 ^ (bits % 8)
      data.dropLast ++ [BitVec.ofNat 8 (old + (data.getLastD 0).toNat % 2 ^ (bits % 8))]
  let pz := ((codes.zipIdx).filter (fun x => x.1.2)).map (fun x =>
    (x.2 * f.bits / 8, (x.2 * f.bits + f.bits + 7) / 8 - x.2 * f.bits / 8))
  ⟨sw ++ [(addr, ⟨data, pz⟩)], ev, !pz.isEmpty⟩

/-- An output port's writes: elements 0 to n - 1 of its source (R111). -/
def writePort (k : Core) (f b : Bytes) (env : SfEnv) (o : Nat) : PortOut :=
  let d := sbOut b o
  let ty := if sdFmt d = 5 ∨ sdFmt d = 6 then 6 else 0
  let x := srcStrm f b env ty (sbN b) (foSrc f o)
  let vs := x.els.map (fun e => (tyVal x.ty e.1, e.2))
  let q := foQsrc f o
  let qs := if q = 0xFF ∨ !isInt4 (sdFormat d) then [] else (srcStrm f b env 0 x.els.length q).els.map (fun e => (tyVal 0 e.1, e.2))
  let inner := sdInner d
  let rows := if inner = 0 then [] else (cut inner vs.length vs).zipIdx
  rows.foldl (fun a r =>
    let y := writeRow k d r.2 r.1 (qs.drop (r.2 * inner))
    ⟨a.writes ++ y.writes, a.ev.add y.ev, a.bad || y.bad⟩) ⟨[], {}, false⟩

/-! ### One instruction -/

/-- A count stopped at 2^32 - 1 (R115). -/
def cap32 (n : Nat) : Nat := min n (2 ^ 32 - 1)

/-- The status record (R115). -/
def statusRecord (a : SfAcc) (poison : Bool) : Bytes :=
  leBytes 4 (cap32 a.ev.nan) ++ leBytes 4 (cap32 a.ev.inf) ++ leBytes 4 (cap32 a.ev.sat) ++ leBytes 4 (cap32 a.ev.div0) ++
  leBytes 4 a.cnt0 ++ leBytes 4 a.cnt1 ++
  leBytes 1 (b2n poison + 2 * b2n a.amaxNan + 4 * b2n a.short + 8 * b2n a.left) ++ zeros 7

/-- A count added to a cumulative counter (R115). -/
def addCum (x : BitVec 64) (n : Nat) : BitVec 64 := BitVec.ofNat 64 (min (x.toNat + cap32 n) (2 ^ 64 - 1))

/-- A stream instruction that has passed its checks, with N above 0: the core after it, and whether it consumed poison. A
line's poison is cleared by one write that covers the whole line, not by several rows or scale bytes that together do
(DEDUCED, log 60).
Every input port is a unit of the fabric (R89), so poison that it reads is consumed (R174; DEDUCED, log 30). -/
def streamRun (k : Core) (e : TileEntry) (f b : Bytes) : Core × Bool :=
  let ins := (foInputs f).map (fun i => (i, readPort k (sbIn b i) (foInType f i)))
  let env : SfEnv := ins.map (fun x => (x.1, x.2.1))
  let ev0 := ins.foldl (fun a x => a.add x.2.2) ({} : Evs)
  let (env, acc) := runUnits f b env { ev := ev0 }
  let outs := (foOutputs f).map (writePort k f b env)
  let acc := { acc with ev := outs.foldl (fun a o => a.add o.ev) acc.ev }
  let bad := outs.any (·.bad)
  let k := (outs.flatMap (·.writes)).foldl (fun k w => spadWrite k w.1 w.2) k
  let k := if e.fen then spadWrite k e.flagdst (.clean (statusRecord acc bad)) else k
  ({ k with sfNan := addCum k.sfNan acc.ev.nan, sfInf := addCum k.sfInf acc.ev.inf, sfSat := addCum k.sfSat acc.ev.sat
            sfDiv0 := addCum k.sfDiv0 acc.ev.div0 },
   ins.any (fun x => x.2.1.els.any (·.2)))

/-- STREAM_INSTRUCTION: the head of the fabric's queue starts and completes, when it can. -/
def streamInstruction (s : State) (c : Nat) : State :=
  match startEntry s c 2 with
  | none => s
  | some (e, s) =>
    let k := core s c
    let f := mget (unitsOf s c).formes [] (e.spec % 64)
    let b := (spadRead k e.blk 416).data
    if f.isEmpty || !streamOk e f b then failQueued s c 2 e .badDesc
    else if sbN b = 0 then
      completeEntry (if e.fen then updCore s c (fun k => spadWrite k e.flagdst (.clean (zeros 32))) else s) c 2 e
    else
      let r := streamRun k e f b
      let s := updCore s c (fun _ => r.1)
      completeEntry (if r.2 then consumeLine s c (operTile 2) else s) c 2 e

end Sys2Proof.Machine
end

