-- ==== Sys2Proof/Machine/CoreRows.lean ====
section
/-! DEFINITION. The meanings of the sequencer, unit and program rows (05_core_sequencer.md R126, R132, R138, R144, R146),
one definition per row. -/

namespace Sys2Proof.Machine

/-- The answer of a command. -/
abbrev Ans := Host.Outcome State Fault Refusal

/-- ADD. -/
def execCsqAdd (c : CoreId) (rd ra rb : SReg) (s : State) : Ans :=
  regOp s c rd ra rb (· + ·)

/-- SUB. -/
def execCsqSub (c : CoreId) (rd ra rb : SReg) (s : State) : Ans :=
  regOp s c rd ra rb (· - ·)

/-- AND. -/
def execCsqAnd (c : CoreId) (rd ra rb : SReg) (s : State) : Ans :=
  regOp s c rd ra rb (· &&& ·)

/-- OR. -/
def execCsqOr (c : CoreId) (rd ra rb : SReg) (s : State) : Ans :=
  regOp s c rd ra rb (· ||| ·)

/-- XOR. -/
def execCsqXor (c : CoreId) (rd ra rb : SReg) (s : State) : Ans :=
  regOp s c rd ra rb (· ^^^ ·)

/-- SLL. -/
def execCsqSll (c : CoreId) (rd ra rb : SReg) (s : State) : Ans :=
  regOp s c rd ra rb (fun a b => a <<< shamt b)

/-- SRL. -/
def execCsqSrl (c : CoreId) (rd ra rb : SReg) (s : State) : Ans :=
  regOp s c rd ra rb (fun a b => a >>> shamt b)

/-- SRA. -/
def execCsqSra (c : CoreId) (rd ra rb : SReg) (s : State) : Ans :=
  regOp s c rd ra rb (fun a b => a.sshiftRight (shamt b))

/-- MUL: low 64 bits. -/
def execCsqMul (c : CoreId) (rd ra rb : SReg) (s : State) : Ans :=
  regOp s c rd ra rb (· * ·)

/-- MULHU: high 64 bits, unsigned. -/
def execCsqMulhu (c : CoreId) (rd ra rb : SReg) (s : State) : Ans :=
  regOp s c rd ra rb mulHigh

/-- DIV: signed, truncated (R127). -/
def execCsqDiv (c : CoreId) (rd ra rb : SReg) (s : State) : Ans :=
  regOp s c rd ra rb csqDivide

/-- REM: sign of ra (R127). -/
def execCsqRem (c : CoreId) (rd ra rb : SReg) (s : State) : Ans :=
  regOp s c rd ra rb csqRemainder

/-- SLT. -/
def execCsqSlt (c : CoreId) (rd ra rb : SReg) (s : State) : Ans :=
  regOp s c rd ra rb (fun a b => bit64 (decide (a.toInt < b.toInt)))

/-- SLTU. -/
def execCsqSltu (c : CoreId) (rd ra rb : SReg) (s : State) : Ans :=
  regOp s c rd ra rb (fun a b => bit64 (decide (a.toNat < b.toNat)))

/-- MIN, signed. -/
def execCsqMin (c : CoreId) (rd ra rb : SReg) (s : State) : Ans :=
  regOp s c rd ra rb minS

/-- MAX, signed. -/
def execCsqMax (c : CoreId) (rd ra rb : SReg) (s : State) : Ans :=
  regOp s c rd ra rb maxS

/-- MINU. -/
def execCsqMinu (c : CoreId) (rd ra rb : SReg) (s : State) : Ans :=
  regOp s c rd ra rb minU

/-- MAXU. -/
def execCsqMaxu (c : CoreId) (rd ra rb : SReg) (s : State) : Ans :=
  regOp s c rd ra rb maxU

/-- ADDI. -/
def execCsqAddi (c : CoreId) (rd ra : SReg) (imm : BitVec 14) (s : State) : Ans :=
  immOp s c rd ra imm (· + ·)

/-- ANDI. -/
def execCsqAndi (c : CoreId) (rd ra : SReg) (imm : BitVec 14) (s : State) : Ans :=
  immOp s c rd ra imm (· &&& ·)

/-- ORI. -/
def execCsqOri (c : CoreId) (rd ra : SReg) (imm : BitVec 14) (s : State) : Ans :=
  immOp s c rd ra imm (· ||| ·)

/-- XORI. -/
def execCsqXori (c : CoreId) (rd ra : SReg) (imm : BitVec 14) (s : State) : Ans :=
  immOp s c rd ra imm (· ^^^ ·)

/-- SLTI. -/
def execCsqSlti (c : CoreId) (rd ra : SReg) (imm : BitVec 14) (s : State) : Ans :=
  immOp s c rd ra imm (fun a b => bit64 (decide (a.toInt < b.toInt)))

/-- SLTIU: unsigned against the sign-extended immediate (R125). -/
def execCsqSltiu (c : CoreId) (rd ra : SReg) (imm : BitVec 14) (s : State) : Ans :=
  immOp s c rd ra imm (fun a b => bit64 (decide (a.toNat < b.toNat)))

/-- SLLI: IMM14[13:6] must be 0. -/
def execCsqSlli (c : CoreId) (rd ra : SReg) (imm : BitVec 14) (s : State) : Ans :=
  shiftImm s c rd ra imm (fun a n => a <<< n)

/-- SRLI: IMM14[13:6] must be 0. -/
def execCsqSrli (c : CoreId) (rd ra : SReg) (imm : BitVec 14) (s : State) : Ans :=
  shiftImm s c rd ra imm (fun a n => a >>> n)

/-- SRAI: IMM14[13:6] must be 0. -/
def execCsqSrai (c : CoreId) (rd ra : SReg) (imm : BitVec 14) (s : State) : Ans :=
  shiftImm s c rd ra imm (fun a n => a.sshiftRight n)

/-- LUI: IMM19 << 14, sign-extended (R125). -/
def execCsqLui (c : CoreId) (rd : SReg) (imm : BitVec 19) (s : State) : Ans :=
  putReg s c rd (fun _ => imm.signExtend 64 <<< 14)

/-- LD8. -/
def execCsqLd8 (c : CoreId) (rd ra : SReg) (imm : BitVec 14) (s : State) : Ans :=
  csqLoad s c rd ra imm 1 (signExt 1)

/-- LD16. -/
def execCsqLd16 (c : CoreId) (rd ra : SReg) (imm : BitVec 14) (s : State) : Ans :=
  csqLoad s c rd ra imm 2 (signExt 2)

/-- LD32. -/
def execCsqLd32 (c : CoreId) (rd ra : SReg) (imm : BitVec 14) (s : State) : Ans :=
  csqLoad s c rd ra imm 4 (signExt 4)

/-- LD64. -/
def execCsqLd64 (c : CoreId) (rd ra : SReg) (imm : BitVec 14) (s : State) : Ans :=
  csqLoad s c rd ra imm 8 (signExt 8)

/-- LDU8. -/
def execCsqLdu8 (c : CoreId) (rd ra : SReg) (imm : BitVec 14) (s : State) : Ans :=
  csqLoad s c rd ra imm 1 (BitVec.ofNat 64)

/-- LDU16. -/
def execCsqLdu16 (c : CoreId) (rd ra : SReg) (imm : BitVec 14) (s : State) : Ans :=
  csqLoad s c rd ra imm 2 (BitVec.ofNat 64)

/-- LDU32. -/
def execCsqLdu32 (c : CoreId) (rd ra : SReg) (imm : BitVec 14) (s : State) : Ans :=
  csqLoad s c rd ra imm 4 (BitVec.ofNat 64)

/-- ST8. -/
def execCsqSt8 (c : CoreId) (rs ra : SReg) (imm : BitVec 14) (s : State) : Ans :=
  csqStore s c rs ra imm 1

/-- ST16. -/
def execCsqSt16 (c : CoreId) (rs ra : SReg) (imm : BitVec 14) (s : State) : Ans :=
  csqStore s c rs ra imm 2

/-- ST32. -/
def execCsqSt32 (c : CoreId) (rs ra : SReg) (imm : BitVec 14) (s : State) : Ans :=
  csqStore s c rs ra imm 4

/-- ST64. -/
def execCsqSt64 (c : CoreId) (rs ra : SReg) (imm : BitVec 14) (s : State) : Ans :=
  csqStore s c rs ra imm 8

/-- BEQ: s[ra] against s[rs]. -/
def execCsqBeq (c : CoreId) (rs ra : SReg) (imm : BitVec 14) (s : State) : Ans :=
  csqBranch s c rs ra imm (· == ·)

/-- BNE: s[ra] against s[rs]. -/
def execCsqBne (c : CoreId) (rs ra : SReg) (imm : BitVec 14) (s : State) : Ans :=
  csqBranch s c rs ra imm (· != ·)

/-- BLT: s[ra] against s[rs]. -/
def execCsqBlt (c : CoreId) (rs ra : SReg) (imm : BitVec 14) (s : State) : Ans :=
  csqBranch s c rs ra imm (fun a b => decide (a.toInt < b.toInt))

/-- BGE: s[ra] against s[rs]. -/
def execCsqBge (c : CoreId) (rs ra : SReg) (imm : BitVec 14) (s : State) : Ans :=
  csqBranch s c rs ra imm (fun a b => decide (b.toInt ≤ a.toInt))

/-- BLTU: s[ra] against s[rs]. -/
def execCsqBltu (c : CoreId) (rs ra : SReg) (imm : BitVec 14) (s : State) : Ans :=
  csqBranch s c rs ra imm (fun a b => decide (a.toNat < b.toNat))

/-- BGEU: s[ra] against s[rs]. -/
def execCsqBgeu (c : CoreId) (rs ra : SReg) (imm : BitVec 14) (s : State) : Ans :=
  csqBranch s c rs ra imm (fun a b => decide (b.toNat ≤ a.toNat))

/-- JAL. -/
def execCsqJal (c : CoreId) (rd : SReg) (imm : BitVec 19) (s : State) : Ans :=
  csqDo s c (fun k => goTo s c (sset k rd (pcNext k)) (BitVec.ofNat 64 k.pc + 4 * imm.signExtend 64))

/-- JALR: the target is formed before s[rd] is written; a misaligned target faults (R129). -/
def execCsqJalr (c : CoreId) (rd ra : SReg) (imm : BitVec 14) (s : State) : Ans :=
  csqDo s c (fun k =>
    let t := sget k ra + immX imm
    if t.toNat % 4 ≠ 0 then done s (csqFault s c .misaligned) else goTo s c (sset k rd (pcNext k)) t)

/-- CSRR. -/
def execCsqCsrr (c : CoreId) (rd ra : SReg) (imm : BitVec 14) (s : State) : Ans :=
  csrRead s c rd ra imm

/-- CSRW. -/
def execCsqCsrw (c : CoreId) (rs ra : SReg) (imm : BitVec 14) (s : State) : Ans :=
  csrWrite s c rs ra imm

/-- SEMSIG. -/
def execCsqSemsig (c : CoreId) (rs ra : SReg) (imm : BitVec 14) (s : State) : Ans :=
  semSig s c rs ra imm

/-- SEMWAIT. -/
def execCsqSemwait (c : CoreId) (rs ra : SReg) (imm : BitVec 14) (s : State) : Ans :=
  semWait s c rs ra imm

/-- SEMTAKE. -/
def execCsqSemtake (c : CoreId) (rs ra : SReg) (imm : BitVec 14) (s : State) : Ans :=
  semTakeOp s c rs ra imm

/-- SEMTEST. -/
def execCsqSemtest (c : CoreId) (rd ra : SReg) (imm : BitVec 14) (s : State) : Ans :=
  semTest s c rd ra imm

/-- BAR. -/
def execCsqBar (c : CoreId) (rd ra : SReg) (imm : BitVec 14) (s : State) : Ans :=
  csqBarrier s c rd ra imm

/-- BARRIER_RELEASE (R144, R145). -/
def execBarrierRelease (launch : Nat) (scope : Bool) (group : Fin 16) (s : State) : Ans :=
  .next (if awake s then releaseBarrier s launch scope group else s)

/-- TISSUE. -/
def execCsqTissue (c : CoreId) (rd ra rb : SReg) (fn : BitVec 9) (s : State) : Ans :=
  csqIssue s c rd ra rb fn

/-- HALT. -/
def execCsqHalt (c : CoreId) (rd ra : SReg) (imm : BitVec 14) (s : State) : Ans :=
  csqStop s c rd ra imm

/-- PROGRAM_START (R146, R148). -/
def execProgramStart (launch : Nat) (l : LogicalId) (s : State) : Ans :=
  done s (startProgram s launch l)

/-- MATRIX_INSTRUCTION (03 R61 to R88). -/
def execMatrixInstruction (c : CoreId) (array : Bool) (s : State) : Ans :=
  done s (matrixInstruction s c (b2n array))

/-- STREAM_INSTRUCTION (04). -/
def execStreamInstruction (c : CoreId) (s : State) : Ans :=
  done s (streamInstruction s c)

/-- LOAD (R138). -/
def execLoad (c : CoreId) (s : State) : Ans :=
  done s (moverInstruction s c 0)

/-- STORE (R138). -/
def execStore (c : CoreId) (s : State) : Ans :=
  done s (moverInstruction s c 1)

/-- XCORE (R138). -/
def execXcore (c : CoreId) (s : State) : Ans :=
  done s (moverInstruction s c 2)

/-- FORME (R138). -/
def execForme (c : CoreId) (s : State) : Ans :=
  done s (moverInstruction s c 3)

end Sys2Proof.Machine
end

