-- ==== Sys2Proof/Machine/Queues.lean ====
section
/-! DEFINITION. The descriptors of the host queues (08_host_queues.md R236 to R257): when a descriptor starts, its checks
and its effect; the replay runs the same bodies (R256). -/

namespace Sys2Proof.Machine

/-! ### Opcodes (R237) -/

/-- The opcodes of R237. -/
def opcodes : List Nat :=
  [0x00, 0x01, 0x02, 0x03, 0x04, 0x08, 0x09, 0x0A, 0x0B, 0x0C, 0x10, 0x11, 0x12, 0x18, 0x19, 0x1A, 0x1C, 0x1D]

/-- Blocking opcodes. -/
def opBlocks (o : Nat) : Bool := [0x08, 0x0A, 0x11, 0x18, 0x19].contains o

/-- Whether a descriptor is step-bound: a SNAPSHOT is, unless QUIESCE. -/
def stepBound (d : Desc) : Bool :=
  let o := dOpcode d
  [0x01, 0x02, 0x03, 0x04, 0x09, 0x0A, 0x0B, 0x0C].contains o || (o == 0x10 && !bitOf d 65)

/-- Opcodes legal on the step queue only. -/
def stepQueueOnly (o : Nat) : Bool := [0x08, 0x09, 0x0A].contains o

/-- The bits of an opcode's body that hold fields (R239): low bit and width. -/
def bodyFields (o : Nat) : List (Nat × Nat) :=
  match o with
  | 0x01 => [(64, 48), (128, 48), (192, 40)]
  | 0x02 => [(64, 48), (128, 40), (192, 64)]
  | 0x03 => [(64, 120), (192, 48), (256, 48), (320, 48), (384, 1)]
  | 0x04 => [(64, 8), (72, 8), (80, 2), (96, 16), (112, 16), (128, 48), (192, 48), (256, 40), (320, 32)]
  | 0x08 => [(64, 48), (112, 16), (128, 48)]
  | 0x09 => [(64, 3), (72, 3), (80, 1), (96, 32)]
  | 0x0A => [(64, 48)]
  | 0x0B => [(64, 48)]
  | 0x0C => [(64, 48), (128, 16), (160, 32)]
  | 0x10 => [(64, 3), (72, 8)]
  | 0x11 => [(64, 2), (112, 16), (128, 48), (192, 64)]
  | 0x12 => [(64, 2), (72, 4), (80, 8), (128, 64)]
  | 0x18 => [(64, 1)]
  | 0x19 => [(64, 3), (72, 6), (128, 64)]
  | 0x1A => [(64, 1), (72, 6), (128, 64)]
  | 0x1C => [(64, 8), (80, 16), (128, 48)]
  | 0x1D => [(64, 8), (80, 16), (128, 48)]
  | _ => []

/-- Whether every reserved field of a descriptor is 0 (R13, R236, R239); JIN is legal on COPY alone. -/
def reservedOk (d : Desc) : Bool :=
  let fs := (if dOpcode d = 1 then [(0, 12)] else [(0, 11)]) ++ [(16, 6), (32, 32)] ++ bodyFields (dOpcode d)
  fs.foldl (fun x f => setFld x f.1 f.2 0) d.toNat == 0

/-- Check 1 of R239: encoding, reserved fields and the step-queue rule. -/
def encodingOk (s : State) (h q : Nat) (d : Desc) : Bool :=
  opcodes.contains (dOpcode d) && reservedOk d && (!stepQueueOnly (dOpcode d) || q == stepQ s h)

/-! ### When a descriptor starts (R229, R237, R249, R252; 12 R370) -/

/-- Started descriptors of a queue. -/
def queueFlights (s : State) (h q : Nat) : List Flight := (hport s h).flights.filter (fun f => f.q == q && !f.replay)

/-- INFLIGHT: started descriptors of the current generation (R228). -/
def inflight (s : State) (h q : Nat) : Nat := ((queueFlights s h q).filter (fun f => f.qgen == (queue s h q).gen)).length

/-- Whether a step-bound descriptor may start: before the first STEP_BEGIN since the restart, or while a step is open
that STEP_END has not closed to further starts and no SNAPSHOT holds (R245, R252, 12 R370). -/
def stepGate (s : State) (p : Nat) (d : Desc) : Bool :=
  let x := proof s p
  !stepBound d || !x.begun || (x.openStep.isSome && !x.ending && (snap s p).held.isNone)

/-- Whether the descriptor at SQ_HEAD can start. -/
def canStartDesc (s : State) (h p q : Nat) (d : Desc) : Bool :=
  let x := queue s h q
  let fs := queueFlights s h q
  x.state == 1 && hostUp s h && !(hport s h).frozen && x.sqHead != x.tail && decide (inflight s h q < 32) &&
  fs.all (fun f => !opBlocks (dOpcode f.desc)) && (!dFence d || fs.isEmpty) && stepGate s p d

/-- The step a descriptor belongs to as it starts (R252). -/
def stepOf (s : State) (p : Nat) (d : Desc) : Option Nat :=
  if stepBound d ∧ (proof s p).begun then (proof s p).openStep else none

/-- The descriptor at SQ_HEAD taken off its ring: the state after, and its flight (R249, R252). -/
def takeDesc (s : State) (h p q : Nat) (d : Desc) : State × Flight :=
  let x := queue s h q
  let f : Flight :=
    { seq := (part s p).started, q := q, didx := x.sqHead, qgen := x.gen, desc := d, step := stepOf s p d, waits := .now
      conc := ((hport s h).flights.filter (fun g => !g.replay)).map (·.seq) }
  let s := updQueue s h q (fun x => { x with sqHead := (x.sqHead + 1) % x.ringsz, lastDescs := (d :: x.lastDescs).take 4 })
  (updPart s p (fun y => { y with started := y.started + 1 }), f)

/-! ### How a started descriptor goes on -/

/-- What starting a descriptor comes to. -/
inductive Began where
  /-- It completes: state, status, RESULT, offending address, input-journal bytes. -/
  | ended (s : State) (st : St) (result addr : Nat) (input : Option Blob)
  /-- It waits; `then_` follows once it is on the list of started descriptors. -/
  | waits (s : State) (f : Flight) (then_ : State → State)

/-- It completes with a status. -/
def Began.fin (s : State) (st : St) : Began := .ended s st 0 0 none

/-- What a check that fails comes to, or what follows. -/
def unless_ (s : State) (bad : Bool) (st : St) (k : Began) : Began := if bad then .fin s st else k

/-- The same for a scope check with its offending address. -/
def inScope_ (s : State) (ok : Bool) (addr : Nat) (k : Began) : Began := if ok then k else .ended s .outOfScope 0 addr none

/-- The first address of a range whose page is out of scope; the start where there is none. -/
def badVa (s : State) (p : Nat) (cls : Cls) (wr : Bool) (va n : Nat) : Nat :=
  if isHostVa va then va else match (pagesIn va n).find? (fun v => !pageOk s p cls wr v) with
    | some v => max va (v * pageSize)
    | none => va

/-- The state after a descriptor has begun. -/
def Began.run (h : Nat) (f : Flight) (b : Began) : State :=
  match b with
  | .ended s st r a i => completeDesc s h f st r true a i
  | .waits s f t => t (updHp s h (fun x => { x with flights := x.flights ++ [f] }))

/-! ### COPY and FILL (R240, R256; 10 R326) -/

/-- SRC. -/
def cpSrc (d : Desc) : Nat := dF d 8 0 48
/-- DST. -/
def cpDst (d : Desc) : Nat := dF d 16 0 48
/-- LEN of a COPY. -/
def cpLen (d : Desc) : Nat := dF d 24 0 40

/-- Whether a COPY with JIN keeps its source bytes: they come from host memory or the host-side window (R256, 10 R326). -/
def keepsInput (s : State) (p : Nat) (d : Desc) : Bool :=
  let lo := regF s (.part p) 0x0204030 0 28 * pageSize
  let n := regF s (.part p) 0x0204034 0 22 * pageSize
  dJin d && (isHostVa (cpSrc d) || (decide (lo ≤ cpSrc d) && decide (cpSrc d + cpLen d ≤ lo + n)))

/-- Bytes of the input journal: INJ_REGIONS regions (R256). -/
def inputRoom (s : State) (p : Nat) : Nat := regF s (.part p) 0x0800480 16 6 * 2 ^ 30

/-- Bytes that the input journal holds. -/
def inputHeld (s : State) (p : Nat) : Nat :=
  (proof s p).log.foldl (fun a e => a + match e.input with
    | some b => b.data.length
    | none => 0) 0

/-- The bytes of a COPY moved: the state and the source bytes with their poison. A replay takes the bytes of its input
journal. -/
def moveCopy (s : State) (p : Nat) (d : Desc) (input : Option Blob) : State × Blob :=
  let s := if input.isSome then s else touch s p (cpSrc d) (cpLen d)
  let b := match input with
    | some b => b
    | none => vread s p (cpSrc d) (cpLen d)
  (vwrite s p (cpDst d) b, b)

/-- The COPY carried out, its checks passed. -/
def finCopy (s : State) (p : Nat) (d : Desc) (keep : Bool) (input : Option Blob) : Began :=
  let (s, b) := moveCopy s p d input
  .ended s (if b.bad then .poisoned else .done) 0 0 (if keep then some b else none)

/-- A descriptor whose writes stall for undo-journal space waits for it (07 R211). -/
def unlessStalled (s : State) (p : Nat) (f : Flight) (ranges : List (Nat × Nat)) (input : Option Blob) (k : Began) : Began :=
  if journalStalls s p (proof s p).openStep ranges then .waits s { f with waits := .undoSpace input } id else k

/-- A COPY whose checks have passed goes on, or waits for room in the undo journal or the input journal (R256). -/
def copyGo (s : State) (p : Nat) (f : Flight) (input : Option Blob) : Began :=
  let d := f.desc
  let n := cpLen d
  unlessStalled s p f [(cpDst d, n)] input <|
  match keepsInput s p d && !f.replay, f.step with
  | true, some k =>
    if inputHeld s p + n ≤ inputRoom s p then finCopy s p d true none
    else if (proof s p).log.all (fun e => e.input.isNone || e.step == k) then
      finCopy (raise s p 0x11 (some k) (ucHost (partHp s p))) p d false none
    else .waits s { f with waits := .inputSpace (cpSrc d) (cpDst d) n } id
  | _, _ => finCopy s p d false input

/-- COPY. -/
def copyBody (s : State) (p : Nat) (f : Flight) (input : Option Blob) : Began :=
  let d := f.desc
  let n := cpLen d
  unless_ s ((isHostVa (cpSrc d) && isHostVa (cpDst d)) || rangesMeet (cpSrc d, n) (cpDst d, n)) .badDesc <|
  unless_ s (fencedMem s p (cpSrc d) n || fencedMem s p (cpDst d) n) .fenced <|
  unless_ s (n == 0) .doneEmpty <|
  inScope_ s (scopeOk s p .host false (cpSrc d) n) (badVa s p .host false (cpSrc d) n) <|
  inScope_ s (scopeOk s p .host true (cpDst d) n) (badVa s p .host true (cpDst d) n) <|
  copyGo s p f input

/-- The bytes that a FILL writes: the pattern's byte a mod 8 at address a. -/
def fillBytes (d : Desc) : Bytes :=
  (upto (dF d 8 0 48) (dF d 16 0 40)).map (fun a => (leBytes 8 (dF d 24 0 64)).getD (a % 8) 0)

/-- FILL. -/
def fillBody (s : State) (p : Nat) (f : Flight) : Began :=
  let d := f.desc
  let dst := dF d 8 0 48
  let n := dF d 16 0 40
  unless_ s (fencedMem s p dst n) .fenced <|
  unless_ s (n == 0) .doneEmpty <|
  inScope_ s (scopeOk s p .host true dst n) (badVa s p .host true dst n) <|
  unlessStalled s p f [(dst, n)] none <|
  .fin (vwrite s p dst (.clean (fillBytes d))) .done

/-! ### LAUNCH (R241; 05 R146, R147, R152) -/

/-- The header checks of a program image and its CRC (05 R147). -/
def imageOk (im : Bytes) : Bool :=
  let n := leAt im 4 4
  leAt im 0 2 == 0x4351 && leAt im 2 1 == 1 && leAt im 3 1 == 0 && decide (68 ≤ n) && decide (n ≤ 262208) && n % 4 == 0 &&
  leAt im 8 4 % 4 == 0 && decide (leAt im 8 4 < n - 64)

/-- The CRC of a whole image. -/
def imageCrcOk (im : Bytes) : Bool := crc32 (im.take 12 ++ zeros 4 ++ im.drop 16) == leAt im 12 4

/-- The LAUNCH accepted: it joins the partition's LAUNCHes. -/
def acceptLaunch (s : State) (p : Nat) (f : Flight) (mask argva exitva : Nat) (im : Option Bytes) : Began :=
  let l : Launch := { id := s.nextLaunch, part := p, mask := mask, argva := argva, exitva := exitva, image := im, step := f.step
                      loaded := im.isNone, waiting := bitsSet mask 120, running := [] }
  .waits { s with launches := s.launches ++ [l], nextLaunch := s.nextLaunch + 1 } { f with waits := .launch s.nextLaunch } id

/-- LAUNCH. -/
def launchBody (s : State) (p : Nat) (f : Flight) : Began :=
  let d := f.desc
  let mask := dF d 8 0 120
  let exitva := dF d 32 0 48
  let imgva := dF d 40 0 48
  let img := dF d 48 0 1 == 1
  let named := bitsSet mask 120
  let mine := named.filter (fun n => lcorePart s n == p)
  let range := 16 * (named.foldl max 0) + 16
  let hdr := vread s p imgva 64
  let size := leAt hdr.data 4 4
  unless_ s (exitva % 16 != 0) .badDesc <|
  unless_ s (!img && mine.any (fun n => !(core s (physOf s n)).imageValid)) .badDesc <|
  unless_ s (mine.any (smem s.frozenCores) || (!named.isEmpty && (fencedMem s p exitva range || (img && (fencedMem s p imgva 64 ||
    (scopeOk s p .host false imgva 64 && fencedMem s p imgva size)))))) .fenced <|
  unless_ s named.isEmpty .doneEmpty <|
  inScope_ s (mine.length == named.length) (mask % 2 ^ 64) <|
  inScope_ s (scopeOk s p .host true exitva range) (badVa s p .host true exitva range) <|
  if img then
    inScope_ s (scopeOk s p .host false imgva 64) (badVa s p .host false imgva 64) <|
    unless_ s (!imageOk hdr.data) .badDesc <|
    inScope_ s (scopeOk s p .host false imgva size) (badVa s p .host false imgva size) <|
    let im := vread (touch s p imgva size) p imgva size
    unless_ s (!imageCrcOk im.data) .badDesc <|
    acceptLaunch (touch s p imgva size) p f mask (dF d 24 0 48) exitva (some im.data)
  else acceptLaunch s p f mask (dF d 24 0 48) exitva none

/-! ### COLLECTIVE (R243; 10 R311 to R318) -/

/-- COP 0 to 5. -/
def collBody (s : State) (p : Nat) (f : Flight) : Began :=
  let d := f.desc
  let n := (groupRanks s p (coGroup d)).length
  let reads := coReads d (groupRank s p (coGroup d))
  unless_ s (!passed s p || !coOk s p d) .badDesc <|
  unless_ s (coCount d != 0 && coFenced s p d) .fenced <|
  inScope_ s (coCount d == 0 || coScope s p d)
    (if reads && !scopeOk s p .peer false (coSrc d) (coSrcLen d n) then badVa s p .peer false (coSrc d) (coSrcLen d n)
     else badVa s p .peer true (coDst d) (coDstLen d n)) <|
  let (m, s) := nextMsg s p
  .waits s { f with waits := .coll m } (fun s => startColl s p d f.step m)

/-- COP 6 and 7. -/
def rmaBody (s : State) (p : Nat) (f : Flight) : Began :=
  let d := f.desc
  let put := coCop d == 6
  let n := coCount d
  let here := if put then coSrc d else coDst d
  let there := if put then coDst d else coSrc d
  match rmaPeer s p d with
  | none => .fin s .badDesc
  | some r =>
    let own := r == ownRank s p
    unless_ s (!passed s p) .badDesc <|
    unless_ s (fencedMem s p here n || (own && fencedMem s p there n)) .fenced <|
    unless_ s (n == 0) .doneEmpty <|
    inScope_ s (scopeOk s p .peer (!put) here n) (badVa s p .peer (!put) here n) <|
    if own then
      inScope_ s (scopeOk s p .peer put there n) (badVa s p .peer put there n) <|
      let (s, bad) := localRma (touch s p (coSrc d) n) p d
      .fin s (if bad then .poisoned else .done)
    else
      let (m, s) := nextMsg s p
      .waits s { f with waits := .rma m } (fun s => startRma s p d r m)

/-! ### Steps (R242, R244 to R246; 12 R375) -/

/-- STEP_BEGIN. -/
def stepBeginBody (s : State) (p : Nat) (f : Flight) : Began :=
  let d := f.desc
  let n := dF d 8 0 48
  let va := dF d 16 0 48
  unless_ s (!passed s p || va % 32 != 0 || n != (proof s p).nextStep) .badDesc <|
  unless_ s (dF d 14 0 16 != (xport s p).epoch) .epochStale <|
  unless_ s (fencedMem s p va 32) .fenced <|
  inScope_ s (scopeOk s p .host true va 32) va <|
  .waits (updProof s p (fun x => { x with begun := true, nextStep := n + 1 })) { f with step := some n, waits := .stepBegin n va } id

/-- The SNAPSHOT descriptor that an internal snapshot is logged as (12 R375). -/
def internalDesc (cow drain : Bool) : Desc := BitVec.ofNat 512 (0x10 + 2 ^ 64 * (b2n cow + 4 * b2n drain))

/-- An internal snapshot after an MBB PHASE (12 R375): taken, logged in the replay log, or refused and counted. -/
def internalSnapshot (s : State) (p : Nat) (f : Flight) : State :=
  let c := regW s (.part p) 0x0300000
  let interval := natFld c 0 16
  let due := interval != 0 && decide ((snap s p).lastCapture + interval * 1000000000 ≤ uptimeNs s)
  let prec := c.testBit 18 && (snap s p).armed
  if !(due || prec) || (proof s p).openStep.isNone || f.replay then s
  else if snapRefused s p false then
    record (updSnap s p (fun x => { x with skipped := min (x.skipped + 1) (2 ^ 32 - 1) })) p (ucXport p) 0 0x0002
      (leBytes 4 0x0300008 ++ zeros 4 ++ leBytes 1 0)
  else
    let cow := c.testBit 16
    let dr := c.testBit 17
    let s := match f.step with
      | some n => updProof s p (fun x => { x with log := insLog x.log ⟨(part s p).started, n, partHp s p, f.q, internalDesc cow dr, none, [f.seq]⟩ })
      | none => s
    updPart s p (fun y => { y with
      started := y.started + 1
      snap := { y.snap with held := some (cow, false, dr, 0, true), armed := if prec then false else y.snap.armed } })

/-- PHASE. -/
def phaseBody (s : State) (p : Nat) (f : Flight) : Began :=
  let d := f.desc
  let mbb := dF d 10 0 1 == 1
  let s := updProof s p (fun x => { x with phase := dF d 8 0 3, mbb := some (mbb, dF d 12 0 32) })
  let s := updPart s p (fun y => { y with opReq := dF d 9 0 3, phased := true })
  .fin (if mbb then internalSnapshot s p f else s) .done

/-- STEP_END. -/
def stepEndBody (s : State) (p : Nat) (f : Flight) : Began :=
  let n := dF f.desc 8 0 48
  unless_ s (!passed s p || (proof s p).openStep != some n) .badDesc <|
  .waits (updProof s p (fun x => { x with ending := true })) { f with waits := .stepEnd n } id

/-! ### OPTIM and SCALE_COMMIT (R239, R242; 07 R187 to R202) -/

/-- The address that an out-of-scope OPTIM names: of its parameter block, else of the first operand that fails. -/
def optimBadVa (s : State) (p pbva : Nat) : Nat :=
  if !scopeOk s p .engine false pbva 160 then badVa s p .engine false pbva 160
  else
    let b := (vread s p pbva 160).data
    let out := (if pbUpdates b then pbWritten b else []) ++ (if pbRen b then [(pbR b, 48)] else [])
    match (pbRead b).find? (fun r => !scopeOk s p .engine false r.1 r.2), out.find? (fun r => !scopeOk s p .engine true r.1 r.2) with
    | some r, _ => badVa s p .engine false r.1 r.2
    | none, some r => badVa s p .engine true r.1 r.2
    | none, none => pbva

/-- OPTIM. The scope of its parameter block is checked before check 1 (R239). -/
def optimBody (s : State) (p h : Nat) (f : Flight) : Began :=
  let va := dF f.desc 8 0 48
  let addr := optimBadVa s p va
  let (t, st) := optimRun (touch s p va 160) p va f.step (encodingOk s h f.q f.desc && va % 32 == 0)
  if st.code ≤ 0x10 then unlessStalled s p f (optimWrites s p (vread s p va 160).data) none (.ended t st 0 addr none)
  else .ended t st 0 addr none

/-- SCALE_COMMIT. -/
def scaleCommitBody (s : State) (p : Nat) (f : Flight) : Began :=
  let d := f.desc
  let n := dF d 8 0 48
  let cnt := dF d 20 0 32
  unless_ s (decide (65536 < cnt) || f.step != some n) .badDesc <|
  unless_ s (cnt == 0) .doneEmpty <|
  .fin ((List.range cnt).foldl (fun s i =>
    commitScale s p (scaleIndex s p ((dF d 16 0 16 + i) % 65536)) n (ucEngine (p * nstacks s))) s) .done

/-! ### SNAPSHOT, RESTORE, DRAIN (R242; 12 R369 to R383) -/

/-- SNAPSHOT. -/
def snapshotBody (s : State) (p : Nat) (f : Flight) : Began :=
  let d := f.desc
  let cow := bitOf d 64
  let quiesce := bitOf d 65
  let auto := bitOf d 66
  let dfrac := dF d 9 0 8
  let atMbb := match (proof s p).mbb with
    | some (b, _) => b
    | none => true
  unless_ s (!passed s p) .badDesc <|
  unless_ s (if quiesce then stepActive s p else f.step.isNone || !atMbb) .badDesc <|
  unless_ s (snapRefused s p quiesce) .badDesc <|
  unless_ s (auto && (storagePorts s p).isEmpty) .unsupported <|
  if quiesce then
    let i := targetSlot s p
    let s := capture s p cow true auto dfrac
    let bad := slotPoisoned (slotOf s p i)
    -- The full mirror copy at QUIESCE (07 R206; DEDUCED, log 17).
    let s := if hasFacing s p then copyMirror s p else s
    .ended (autoDrain s p i) (if bad then .poisoned else .done) i 0 none
  else .waits (updSnap s p (fun x => { x with held := some (cow, false, auto, dfrac, false) })) { f with waits := .snapshot } id

/-- RESTORE. -/
def restoreBody (s : State) (p : Nat) (f : Flight) : Began :=
  let d := f.desc
  let storage := bitOf d 64
  let chk := bitOf d 65
  let slot := newestSlot s p
  let slotBad := match slot with
    | none => true
    | some i =>
      let x := slotOf s p i
      (chk && x.step != dF d 16 0 48) || !restoreOk s p x.slice x.rank s.pmode p (x.pages.map (·.vpn))
  unless_ s (!passed s p || stepActive s p || (!storage && slotBad)) .badDesc <|
  unless_ s (dF d 14 0 16 != (xport s p).epoch) .epochStale <|
  .waits s { f with waits := .restore } (fun s => if storage then startObject s p (dF d 24 0 64) else restoreSlot s p (slot.getD 0))

/-- DRAIN. A port that PORTS selects and that belongs to another partition is out of scope; one of the partition's own
that is not in the STORAGE role is a feature the configuration lacks (DEDUCED, log 32). -/
def drainBody (s : State) (p : Nat) (f : Flight) : Began :=
  let d := f.desc
  let sel := dF d 8 0 2
  let slot := if sel = 2 then newestSlot s p else some sel
  let named := (bitsSet (dF d 9 0 4) 4).map (28 + ·)
  let js := if named.isEmpty then storagePorts s p else named
  match slot with
  | none => .fin s .badDesc
  | some i =>
    unless_ s (!passed s p || sel == 3 || (slotOf s p i).state != 3) .badDesc <|
    inScope_ s (js.all (fun j => portPart s j == some p)) (ofBits named) <|
    unless_ s (js.isEmpty || js.any (fun j => jpRole s j != 1)) .unsupported <|
    let (m, s) := nextMsg s p
    .waits s { f with waits := .drain m } (fun s => startDrain s p m i (dF d 16 0 64) js (dF d 10 0 8) true)

/-! ### FENCE, WAIT, SIGNAL (R236, R237, R239, R248) -/

/-- FENCE: it waits for every earlier descriptor of its queue or of the partition. -/
def fenceBody (s : State) (f : Flight) : Began := .waits s { f with waits := .fence (bitOf f.desc 64) } id

/-- WAIT. -/
def waitBody (s : State) (f : Flight) : Began :=
  let c := dF f.desc 8 0 3
  unless_ s (decide (3 < c)) .badDesc <|
  .waits s { f with waits := .cond c (dF f.desc 9 0 6) (dF f.desc 16 0 64) } id

/-- SIGNAL. -/
def signalBody (s : State) (p : Nat) (f : Flight) : Began :=
  let k := dF f.desc 9 0 6
  let v := dF f.desc 16 0 64
  if bitOf f.desc 64 then .fin (setEc s p k v) .done
  else unless_ s (v == 0) .doneEmpty <| .fin (addEc s p k v) .done

/-! ### PROOF_CTRL (R239, R248; 11 R329, R335, R361) -/

/-- The proof-state record of 11 R361. -/
def proofRecord (s : State) (p : Nat) : Bytes :=
  let x := proof s p
  let t := xport s p
  leBytes 6 (x.openStep.getD 0) ++ leBytes 2 t.epoch ++ leBytes 6 x.lastComputed ++ leBytes 1 t.reprint ++ leBytes 1 x.slice ++
  leBytes 6 x.lastProven ++ leBytes 1 x.w ++ leBytes 1 (b2n x.openStep.isSome + 2 * b2n x.observe + 4 * b2n x.fallbackPending) ++
  leBytes 6 x.lastRetired ++ leBytes 1 x.lastReason ++ leBytes 1 x.sampleK ++ leBytes 8 x.sampled ++ leBytes 8 x.sampleMismatch ++
  leBytes 8 x.sampleSkipped ++ leBytes 8 (uptimeNs s)

/-- A record written at VA with the HOST class. -/
def recordBody (s : State) (p va : Nat) (bs : Bytes) : Began :=
  unless_ s (fencedMem s p va bs.length) .fenced <|
  inScope_ s (scopeOk s p .host true va bs.length) (badVa s p .host true va bs.length) <|
  .fin (vwrite s p va (.clean bs)) .done

/-- PROOF_CTRL by its POP. -/
def proofCtrlBody (s : State) (p : Nat) (f : Flight) : Began :=
  let a := dF f.desc 10 0 16
  match dF f.desc 8 0 8 with
  | 0 => unless_ s (a < 1 || 4 < a) .badDesc <| .fin (updProof s p (fun x => { x with wNext := a })) .done
  | 1 => unless_ s (a < 4 || 10 < a) .badDesc <| .fin (updProof s p (fun x => { x with sampleK := a })) .done
  | 2 => recordBody s p (dF f.desc 16 0 48) (proofRecord s p)
  | 3 => match (proof s p).openStep with
    | some n => .fin (raise s p 0x0B (some n) (ucHost (partHp s p))) .done
    | none => .fin s .badDesc
  | _ => .fin s .badDesc

/-! ### TEST_CTRL (13 R389 to R393) -/

/-- Whether a unit counts as under observation for its tests: its score, or its partition's OBSERVE for a core (13 R390,
R396). -/
def underObservation (s : State) (u : Nat) : Bool :=
  observed s u || (u / 4096 == 1 && (proof s (unitPart s u)).observe)

/-- The test report of 13 R393. -/
def testReport (s : State) : Bytes :=
  let x := s.faults
  leBytes 8 x.completed ++ leBytes 4 x.transient ++ leBytes 4 x.confirmed ++ leBytes 2 x.last.1 ++ leBytes 1 x.last.2.1 ++ zeros 5 ++
  leBytes 8 x.last.2.2 ++ leBytes 16 (ofBits ((List.range 128).filter (fun c => underObservation s (ucCore c)))) ++
  leBytes 4 x.starved ++ zeros 12

/-- The unit that RUN's ARG names. -/
def testUnit (a : Nat) : Nat := if a < 128 then ucCore a else ucEngine (a - 128)

/-- Whether a unit is retired. -/
def unitRetired (s : State) (u : Nat) : Bool :=
  let n := u % 4096
  match u / 4096 with
  | 1 => smem s.retiredCores n
  | 3 => (channel s n).state == 2
  | 6 => (port s n).state == 9
  | _ => false

/-- The fault that INJECT puts in (13 R393); a kind that is not listed, or a unit that does not exist, has none. -/
def injectFault (kind n : Nat) : Option (Nat × (State → State)) :=
  match kind with
  | 1 => if n < 128 then some (ucCore n, fun s => updUnits s n (fun u => { u with
      ma0 := { u.ma0 with inject := true }, ma1 := { u.ma1 with inject := true } })) else none
  | 2 => if n < 128 then some (ucCore n, fun s =>
      let (k, s) := fresh s
      recordE s (coreOwner s n) (ucCore n) 0 0x0020 (leBytes 8 (Config.lineAddress k).toNat) true) else none
  | 3 => if n < 128 then some (ucCore n, fun s => updUnits s n (fun u => { u with stalled := true })) else none
  | 4 => if n < 32 then some (ucPort n, fun s => updPort s n (fun x => { x with inject := true })) else none
  | 5 => if n < 384 then some (ucChannel n, fun s => updChannel s n (fun x => { x with inject := true })) else none
  | _ => none

/-- TEST_CTRL by its TOP. -/
def testCtrlBody (s : State) (p h : Nat) (f : Flight) : Began :=
  let a := dF f.desc 10 0 16
  match dF f.desc 8 0 8 with
  | 0 =>
    let u := testUnit a
    unless_ s (decide (139 < a) || unitRetired s u) .badDesc <|
    inScope_ s (unitPart s u == p) a <|
    .waits (updFaults s (fun x => { x with asked := x.asked ++ [u] })) { f with waits := .test u } id
  | 1 =>
    unless_ s (a < 1 || 3600 < a) .badDesc <|
    unless_ s (!isOwner s h) .unsupported <|
    .fin (setRegF s .dev 0x00C0804 0 12 a) .done
  | 2 => recordBody s p (dF f.desc 16 0 48) (testReport s)
  | 3 => match injectFault (a / 4096) (a % 4096) with
    | none => .fin s .badDesc
    | some (u, g) =>
      unless_ s (unitPart s u != p) .badDesc <|
      unless_ s (regF s .dev 0x00C0804 12 1 == 0) .unsupported <|
      .fin (g s) .done
  | _ => .fin s .badDesc

/-! ### A descriptor by its opcode -/

/-- The effect of a descriptor as it starts, its checks included (R239). -/
def descBody (s : State) (h p : Nat) (f : Flight) (input : Option Blob) : Began :=
  let o := dOpcode f.desc
  if s.faults.oos then .fin s .fenced
  else if o = 0x0B then optimBody s p h f
  else if !encodingOk s h f.q f.desc then .fin s .badDesc
  else match o with
    | 0x00 => .fin s .done
    | 0x01 => copyBody s p f input
    | 0x02 => fillBody s p f
    | 0x03 => launchBody s p f
    | 0x04 => if coCop f.desc < 6 then collBody s p f else if coCop f.desc < 8 then rmaBody s p f else .fin s .badDesc
    | 0x08 => stepBeginBody s p f
    | 0x09 => phaseBody s p f
    | 0x0A => stepEndBody s p f
    | 0x0C => scaleCommitBody s p f
    | 0x10 => snapshotBody s p f
    | 0x11 => restoreBody s p f
    | 0x12 => drainBody s p f
    | 0x18 => fenceBody s f
    | 0x19 => waitBody s f
    | 0x1A => signalBody s p f
    | 0x1C => proofCtrlBody s p f
    | _ => testCtrlBody s p h f

/-- A descriptor starts from its queue, or is turned away while it cannot (log 4). -/
def startDesc (s : State) (h q : Nat) (d : Desc) : State :=
  match hpPart s h with
  | none => s
  | some p =>
    if canStartDesc s h p q d then
      let (t, f) := takeDesc s h p q d
      (descBody t h p f none).run h f
    else s

/-- A logged descriptor replayed (R256): the same body, with no completion entry and no SIGEN. -/
def replayDesc (s : State) (p : Nat) (e : Logged) : State :=
  let h := partHp s p
  let f : Flight := { seq := e.seq, q := e.q, didx := 0, qgen := 0, desc := e.desc
                      step := if dOpcode e.desc = 8 then none else some e.step, waits := .now, replay := true, conc := e.conc }
  let s := updProof s p (fun x => { x with replayed := e.seq + 1 })
  (descBody s h p f e.input).run h f

/-- The logged descriptor that the replay runs next (R256). -/
def nextLogged (s : State) (p : Nat) : Option Logged :=
  let x := proof s p
  x.log.find? (fun e => decide (x.replayed ≤ e.seq) && decide (e.seq < x.replayTo) && decide (x.lastProven < e.step))

/-- Replayed descriptors that have not completed. -/
def replayFlights (s : State) (p : Nat) : List Flight := (hport s (partHp s p)).flights.filter (·.replay)

/-- The replay runs its next descriptor once every earlier one has completed that had completed when it first started
(log 33). -/
def replayOne (s : State) (p : Nat) : State :=
  if (proof s p).slice = 7 then
    match nextLogged s p with
    | some e => if (replayFlights s p).all (fun g => e.conc.contains g.seq) then replayDesc s p e else s
    | none => s
  else s

/-- The replay has reached the stop point (R257). -/
def replayOver (s : State) (p : Nat) : Bool := (nextLogged s p).isNone

/-! ### Input journal space (R256) -/

/-- A descriptor that waits for input-journal or undo-journal space goes on once its bytes fit (R256; 07 R211); when only
the open step holds space it goes on unjournaled, and INPUT_FULL or JOURNAL_FULL is raised. -/
def resumeSpace (s : State) (p : Nat) (f : Flight) : State :=
  let h := partHp s p
  match f.waits with
  | .inputSpace _ _ _ => (copyGo (dropFlight s h f) p f none).run h f
  | .undoSpace input => (descBody (dropFlight s h f) h p f input).run h f
  | _ => s

/-- Every descriptor that waits for space, oldest first, as a step retires. -/
def resumeWaiting (s : State) (p : Nat) : State :=
  (sortBy (·.seq) (hport s (partHp s p)).flights).foldl (fun s f => resumeSpace s p f) s

end Sys2Proof.Machine
end

