-- ==== Sys2Proof/Machine/QueueRows.lean ====
section
/-! DEFINITION. The rows of the host queues (08_host_queues.md): one definition per descriptor row, the events that
open and compute a step and take a capture point, doorbells, queue control, the host port's link and reset, and BAR4. -/

namespace Sys2Proof.Machine

/-! ### Descriptor rows -/

/-- A sub-operation when it is listed. -/
def listed (n k : Nat) : Option Nat := if k < n then some k else none

/-- The sub-operation that distinguishes the rows of one opcode (R239); none where the descriptor names none that is
listed, or its parameter block cannot be read. -/
def descSub (s : State) (p : Nat) (d : Desc) : Option Nat :=
  match dOpcode d with
  | 0x04 => listed 8 (coCop d)
  | 0x0B =>
    let va := dF d 8 0 48
    if scopeOk s p .engine false va 160 then listed 6 (pbRecipe (vread s p va 160).data) else none
  | 0x10 => some (if bitOf d 65 then 2 else b2n (bitOf d 64))
  | 0x11 => some (b2n (bitOf d 64))
  | 0x1A => some (b2n (bitOf d 64))
  | 0x1C => listed 4 (dF d 8 0 8)
  | 0x1D => listed 4 (dF d 8 0 8)
  | _ => some 0

/-- Whether a descriptor is of the row with an opcode and a sub-operation: one with an unlisted opcode or sub-operation
is of every row, since its status says only that (log 3). -/
def fitsRow (s : State) (h : Nat) (d : Desc) (op subop : Nat) : Bool :=
  !opcodes.contains (dOpcode d) || (dOpcode d == op && (descSub s ((hpPart s h).getD 0) d).all (· == subop))

/-- A descriptor row: the descriptor at SQ_HEAD of the queue starts; one of another row is turned away (log 4). -/
def descRow (s : State) (h q : Nat) (d : Desc) (op subop : Nat) : State :=
  if fitsRow s h d op subop then startDesc s h q d else s

/-- NOP. -/
def execNop (hp : HostId) (q : QueueId) (d : Desc) (s : State) : Ans :=
  done s (descRow s hp q d 0x00 0)

/-- COPY (R240, R256). -/
def execCopy (hp : HostId) (q : QueueId) (d : Desc) (s : State) : Ans :=
  done s (descRow s hp q d 0x01 0)

/-- FILL (R239, R240). -/
def execFill (hp : HostId) (q : QueueId) (d : Desc) (s : State) : Ans :=
  done s (descRow s hp q d 0x02 0)

/-- LAUNCH (R241; 05 R146 to R152). -/
def execLaunch (hp : HostId) (q : QueueId) (d : Desc) (s : State) : Ans :=
  done s (descRow s hp q d 0x03 0)

/-- ALL_REDUCE (10 R315). -/
def execAllReduce (hp : HostId) (q : QueueId) (d : Desc) (s : State) : Ans :=
  done s (descRow s hp q d 0x04 0)

/-- REDUCE_SCATTER (10 R315). -/
def execReduceScatter (hp : HostId) (q : QueueId) (d : Desc) (s : State) : Ans :=
  done s (descRow s hp q d 0x04 1)

/-- ALL_GATHER (10 R315). -/
def execAllGather (hp : HostId) (q : QueueId) (d : Desc) (s : State) : Ans :=
  done s (descRow s hp q d 0x04 2)

/-- BROADCAST (10 R315). -/
def execBroadcast (hp : HostId) (q : QueueId) (d : Desc) (s : State) : Ans :=
  done s (descRow s hp q d 0x04 3)

/-- ALL_TO_ALL (10 R315). -/
def execAllToAll (hp : HostId) (q : QueueId) (d : Desc) (s : State) : Ans :=
  done s (descRow s hp q d 0x04 4)

/-- BARRIER (10 R315). -/
def execCollBarrier (hp : HostId) (q : QueueId) (d : Desc) (s : State) : Ans :=
  done s (descRow s hp q d 0x04 5)

/-- PUT (10 R311, R312). -/
def execPut (hp : HostId) (q : QueueId) (d : Desc) (s : State) : Ans :=
  done s (descRow s hp q d 0x04 6)

/-- GET (10 R311, R312). -/
def execGet (hp : HostId) (q : QueueId) (d : Desc) (s : State) : Ans :=
  done s (descRow s hp q d 0x04 7)

/-- STEP_BEGIN (R244). -/
def execStepBegin (hp : HostId) (q : QueueId) (d : Desc) (s : State) : Ans :=
  done s (descRow s hp q d 0x08 0)

/-- PHASE (R246). -/
def execPhase (hp : HostId) (q : QueueId) (d : Desc) (s : State) : Ans :=
  done s (descRow s hp q d 0x09 0)

/-- STEP_END (R245). -/
def execStepEnd (hp : HostId) (q : QueueId) (d : Desc) (s : State) : Ans :=
  done s (descRow s hp q d 0x0A 0)

/-- ADAMW (07 R193). -/
def execAdamw (hp : HostId) (q : QueueId) (d : Desc) (s : State) : Ans :=
  done s (descRow s hp q d 0x0B 0)

/-- SGD_MOMENTUM (07 R193). -/
def execSgdMomentum (hp : HostId) (q : QueueId) (d : Desc) (s : State) : Ans :=
  done s (descRow s hp q d 0x0B 1)

/-- LION (07 R193). -/
def execLion (hp : HostId) (q : QueueId) (d : Desc) (s : State) : Ans :=
  done s (descRow s hp q d 0x0B 2)

/-- PROG (07 R194). -/
def execProg (hp : HostId) (q : QueueId) (d : Desc) (s : State) : Ans :=
  done s (descRow s hp q d 0x0B 3)

/-- SSQ (07 R198). -/
def execSsq (hp : HostId) (q : QueueId) (d : Desc) (s : State) : Ans :=
  done s (descRow s hp q d 0x0B 4)

/-- AMAX (07 R198). -/
def execAmax (hp : HostId) (q : QueueId) (d : Desc) (s : State) : Ans :=
  done s (descRow s hp q d 0x0B 5)

/-- SCALE_COMMIT (07 R202). -/
def execScaleCommit (hp : HostId) (q : QueueId) (d : Desc) (s : State) : Ans :=
  done s (descRow s hp q d 0x0C 0)

/-- SNAPSHOT in EAGER mode (12 R370, R371). -/
def execSnapshotEager (hp : HostId) (q : QueueId) (d : Desc) (s : State) : Ans :=
  done s (descRow s hp q d 0x10 0)

/-- SNAPSHOT in COW mode (12 R370, R371). -/
def execSnapshotCow (hp : HostId) (q : QueueId) (d : Desc) (s : State) : Ans :=
  done s (descRow s hp q d 0x10 1)

/-- SNAPSHOT with QUIESCE (12 R383). -/
def execSnapshotQuiesce (hp : HostId) (q : QueueId) (d : Desc) (s : State) : Ans :=
  done s (descRow s hp q d 0x10 2)

/-- RESTORE with SRC 0 (12 R378, R380). -/
def execRestore (hp : HostId) (q : QueueId) (d : Desc) (s : State) : Ans :=
  done s (descRow s hp q d 0x11 0)

/-- RESTORE with SRC 1 (12 R379). -/
def execRestoreFromStorage (hp : HostId) (q : QueueId) (d : Desc) (s : State) : Ans :=
  done s (descRow s hp q d 0x11 1)

/-- DRAIN (12 R377; 10 R321). -/
def execDrain (hp : HostId) (q : QueueId) (d : Desc) (s : State) : Ans :=
  done s (descRow s hp q d 0x12 0)

/-- FENCE (R236, R237). -/
def execFence (hp : HostId) (q : QueueId) (d : Desc) (s : State) : Ans :=
  done s (descRow s hp q d 0x18 0)

/-- WAIT (R248). -/
def execWait (hp : HostId) (q : QueueId) (d : Desc) (s : State) : Ans :=
  done s (descRow s hp q d 0x19 0)

/-- SIGNAL with SOP ADD (R239). -/
def execSignalAdd (hp : HostId) (q : QueueId) (d : Desc) (s : State) : Ans :=
  done s (descRow s hp q d 0x1A 0)

/-- SIGNAL with SOP SET (R239). -/
def execSignalSet (hp : HostId) (q : QueueId) (d : Desc) (s : State) : Ans :=
  done s (descRow s hp q d 0x1A 1)

/-- PROOF_CTRL SET_W (11 R329). -/
def execSetW (hp : HostId) (q : QueueId) (d : Desc) (s : State) : Ans :=
  done s (descRow s hp q d 0x1C 0)

/-- PROOF_CTRL SET_SAMPLE (11 R335). -/
def execSetSample (hp : HostId) (q : QueueId) (d : Desc) (s : State) : Ans :=
  done s (descRow s hp q d 0x1C 1)

/-- PROOF_CTRL QUERY (11 R361). -/
def execQuery (hp : HostId) (q : QueueId) (d : Desc) (s : State) : Ans :=
  done s (descRow s hp q d 0x1C 2)

/-- PROOF_CTRL FAIL_STEP (11 R332). -/
def execFailStep (hp : HostId) (q : QueueId) (d : Desc) (s : State) : Ans :=
  done s (descRow s hp q d 0x1C 3)

/-- TEST_CTRL RUN (13 R393). -/
def execRun (hp : HostId) (q : QueueId) (d : Desc) (s : State) : Ans :=
  done s (descRow s hp q d 0x1D 0)

/-- TEST_CTRL INTERVAL (13 R393). -/
def execInterval (hp : HostId) (q : QueueId) (d : Desc) (s : State) : Ans :=
  done s (descRow s hp q d 0x1D 1)

/-- TEST_CTRL REPORT (13 R393). -/
def execTestReport (hp : HostId) (q : QueueId) (d : Desc) (s : State) : Ans :=
  done s (descRow s hp q d 0x1D 2)

/-- TEST_CTRL INJECT (13 R393). -/
def execInject (hp : HostId) (q : QueueId) (d : Desc) (s : State) : Ans :=
  done s (descRow s hp q d 0x1D 3)

/-! ### The step machine (R244, R245; 11 R328) -/

/-- The flight of a partition that a test picks. -/
def flightOf (s : State) (p : Nat) (t : Flight → Bool) : Option Flight := (hport s (partHp s p)).flights.find? t

/-- The chain ordinals of every logical core of a partition back at 0 (11 R335). -/
def clearOrdinals (s : State) (p : Nat) : State :=
  (upto (p * lcores s) (lcores s)).foldl (fun s l =>
    updUnits s (physOf s l) (fun u => { u with ma0 := { u.ma0 with ordinal := 0 }, ma1 := { u.ma1 with ordinal := 0 } })) s

/-- The record of a step as it opens: a step opened again keeps the count of its record's writes (R247). -/
def openRec (x : Proof) (n va : Nat) (replay : Bool) : StepRec :=
  { step := n, state := 1, recVa := va, replayed := replay
    seq := match x.steps.find? (fun r => r.step == n) with
      | some r => r.seq
      | none => 0 }

/-- Whether a flight is a STEP_BEGIN that waits to open its step. -/
def waitsToOpen (f : Flight) : Bool :=
  match f.waits with
  | .stepBegin _ _ => true
  | _ => false

/-- Whether a flight is a STEP_END that waits for its step's descriptors. -/
def waitsToCompute (f : Flight) : Bool :=
  match f.waits with
  | .stepEnd _ => true
  | _ => false

/-- STEP_OPEN: the waiting STEP_BEGIN opens its step once no step is OPEN and step n - W - 1 is PROVEN (R244). -/
def openStep (s : State) (p : Nat) : State :=
  match flightOf s p waitsToOpen with
  | some f =>
    match f.waits with
    | .stepBegin n va =>
      let x := proof s p
      if x.openStep.isNone ∧ n ≤ x.lastProven + x.w + 1 ∧ (upto (p * lcores s) (lcores s)).all (fun l => !copyDue s l) then
        let s := updProof s p (fun x => { x with
          steps := x.steps.filter (fun r => r.step != n) ++ [openRec x n va f.replay]
          openStep := some n, kNow := x.sampleK, mbb := none, ending := false, phase := 0 })
        let s := writeStepRec (clearOrdinals s p) p n
        finishFlight s (partHp s p) f .done 0
      else s
    | _ => s
  | none => s

/-- STEP_COMPUTED: the step becomes COMPUTED once every descriptor that belongs to it but STEP_END has completed
(R245). The owner's digest is formed then (11 R341), and the retrainings that DEFER held start (09 R285). -/
def computeStep (s : State) (p : Nat) : State :=
  match flightOf s p waitsToCompute with
  | some f =>
    match f.waits with
    | .stepEnd n =>
      let h := partHp s p
      if (hport s h).flights.all (fun g => g == f || g.step != some n) && (snap s p).held.isNone then
        let s := updProof s p (fun x => { x with openStep := none, ending := false, lastComputed := max x.lastComputed n })
        let s := setStep s p n 2 id
        -- The step's journal segments are SEALED (07 R209).
        let s := updPart s p (fun y => { y with journal := y.journal.map (fun g => if g.step = n then { g with state := 2 } else g) })
        let s := finishFlight s h f .done 0
        let s := if hasFacing s p then
            formDigest s p n 0 (match stepRec s p n with
              | some r => r.digestSet
              | none => [])
          else s
        (partPorts s p).foldl (fun s j => if (port s j).deferred then askRetrain s j 1 else s) s
      else s
    | _ => s
  | none => s

/-- STEP_OPEN. -/
def execStepOpen (p : PartId) (s : State) : Ans := done s (openStep s p)

/-- STEP_COMPUTED. -/
def execStepComputed (p : PartId) (s : State) : Ans := done s (computeStep s p)

/-! ### Snapshots in the step (12 R370 to R372) -/

/-- CAPTURE_POINT: the held snapshot is taken once every started descriptor of the open step has completed; an EAGER
copy is made whole, and the SNAPSHOT completes. -/
def capturePoint (s : State) (p : Nat) : State :=
  match (snap s p).held with
  | none => s
  | some (cow, _, auto, dfrac, _) =>
    let h := partHp s p
    let mine (g : Flight) : Bool := g.waits == .snapshot
    if (hport s h).flights.all (fun g => mine g || g.step.isNone || g.step != (proof s p).openStep) then
      let i := targetSlot s p
      let s := capture s p cow false auto dfrac
      let st : St := if slotPoisoned (slotOf s p i) then .poisoned else .done
      let s := match flightOf s p mine with
        | some f => finishFlight s h f st i
        | none => s
      tryCommit s p
    else s

/-- The first page of a slot in directory order that has not been copied, copied (R371). -/
def copyFirst (m : MemSys) : List SnapPage → List SnapPage
  | [] => []
  | g :: r => if g.copied then g :: copyFirst m r else copyPage m g :: r

/-- COW_COPY: the background copy of one page, of slot A first. -/
def cowCopy (s : State) (p : Nat) : State :=
  let todo (x : Slot) : Bool := x.state == 2 && x.cow && x.pages.any (fun g => !g.copied)
  let i := if todo (snap s p).a then 0 else 1
  if todo (slotOf s p i) then tryCommit (updSlotN s p i (fun x => { x with pages := copyFirst s.ms x.pages })) p else s

/-- CAPTURE_POINT. -/
def execCapturePoint (p : PartId) (s : State) : Ans := done s (capturePoint s p)

/-- COW_COPY. -/
def execCowCopy (p : PartId) (s : State) : Ans := done s (cowCopy s p)

/-! ### Writes by a host (R223; 15 R465; 18 R508) -/

/-- Whether the device is READY (18 R507). -/
def isReady (s : State) : Bool := s.pins.stage == .ready

/-- Whether a host reaches its port at all: the mode uses the port, its link is up and it is not frozen (15 R465). -/
def hostCan (s : State) (h : Nat) : Bool := (hpPart s h).isSome && hostUp s h && !(hport s h).frozen

/-- A register write by a host: dropped at a frozen port, ignored and recorded before READY (18 R508). -/
def hostWrite (s : State) (h off v : Nat) (f : State → State) : State :=
  if hostCan s h then (if isReady s then f s else writeIgnored s h off v 0) else s

/-! ### Doorbells and queue control (R229, R230, R234) -/

/-- A doorbell (R230). -/
def ringDoorbell (s : State) (h q v : Nat) : State :=
  hostWrite s h (4096 * q) v (fun s =>
    let x := queue s h q
    let tail := natFld v 0 16
    if natFld v 16 8 = x.gen ∧ tail < x.ringsz ∧ (x.state = 1 ∨ x.state = 2) then
      updQueue s h q (fun x => { x with tail := tail, doorbell := v % 2 ^ 24 })
    else record s ((hpPart s h).getD 7) (ucHost h) operReg 0x0004 (leBytes 1 q ++ leBytes 4 v))

/-- Offset of QCTRL of a queue. -/
def qctrlOff (q : Nat) : Nat := 0x0020018 + 256 * q

/-- Whether a RINGSZ may be enabled (R229). -/
def ringOk (n : Nat) : Bool := (List.range 13).any (fun i => n == 2 ^ (i + 4))

/-- Whether the partition of a host port is STRUCK: its queues stay STOPPED (11 R353). -/
def hostStruck (s : State) (h : Nat) : Bool := match hpPart s h with
  | some p => (proof s p).slice == 9
  | none => false

/-- QCTRL.EN written 1 (R229). A FROZEN queue, and a queue of a STRUCK partition (log 20), keeps its state. -/
def enableQueue (s : State) (h q : Nat) : State :=
  let x := queue s h q
  if x.state = 3 ∨ hostStruck s h then writeIgnored s h (qctrlOff q) 1 0
  else if x.state = 0 then
    if ringOk x.ringsz && x.sqBase != 0 && x.cqBase != 0 then
      updQueue s h q (fun x => { x with en := true, state := 1, stopwhy := 0, estatus := 0 })
    else updQueue s h q (fun x => { x with en := true, estatus := 0x20 })
  else updQueue s h q (fun x => { x with en := true, state := 1, stopwhy := 0 })

/-- QCTRL.EN written 0 (R229): the queue starts nothing more; what it has started completes, and R228 waits for it. -/
def disableQueue (s : State) (h q : Nat) : State :=
  if (queue s h q).state = 3 ∨ hostStruck s h then writeIgnored s h (qctrlOff q) 0 0
  else updQueue s h q (fun x => { x with en := false, state := 0, stopwhy := 0 })

/-- A queue reset (R234). -/
def resetQueue (s : State) (h q : Nat) : State :=
  updQueue s h q (fun x => { x with
    gen := (x.gen + 1) % 256, sqHead := 0, tail := 0, cqNext := 0, phase := true, state := if x.state = 3 then 3 else 0
    stopwhy := 0, en := false, uncovered := 0 })

/-- DOORBELL. -/
def execDoorbell (hp : HostId) (q : QueueId) (v : Word) (s : State) : Ans := done s (ringDoorbell s hp q v.toNat)

/-- QUEUE_ENABLE. -/
def execQueueEnable (hp : HostId) (q : QueueId) (s : State) : Ans :=
  done s (hostWrite s hp (qctrlOff q) 1 (fun s => enableQueue s hp q))

/-- QUEUE_DISABLE. -/
def execQueueDisable (hp : HostId) (q : QueueId) (s : State) : Ans :=
  done s (hostWrite s hp (qctrlOff q) 0 (fun s => disableQueue s hp q))

/-- QUEUE_RESET. -/
def execQueueReset (hp : HostId) (q : QueueId) (s : State) : Ans :=
  done s (hostWrite s hp (qctrlOff q) 2 (fun s => resetQueue s hp q))

/-- A descriptor read fails (R231): no entry, STOPWHY 4, SQ_HEAD stays, and the failure is recorded. -/
def fetchFails (s : State) (h q : Nat) : State :=
  let x := queue s h q
  if x.state = 1 ∧ hostUp s h ∧ !(hport s h).frozen ∧ x.sqHead ≠ x.tail then
    let s := updQueue s h q (fun x => { x with state := 2, stopwhy := 4 })
    record s ((hpPart s h).getD 7) (ucHost h) 0 0x0003 (leBytes 4 (x.sqBase + 64 * x.sqHead) ++ leBytes 1 64)
  else s

/-- DESCRIPTOR_FETCH_FAIL. -/
def execDescriptorFetchFail (hp : HostId) (q : QueueId) (s : State) : Ans := done s (fetchFails s hp q)

/-- COAL_TIME: the oldest uncovered entry has reached COAL_TIME (R225). -/
def coalesce (s : State) (h q : Nat) : State :=
  let x := queue s h q
  if x.ien && x.coalTime != 0 && x.uncovered != 0 then sendMsix (updQueue s h q (fun x => { x with uncovered := 0 })) h x.iv else s

/-- COAL_TIME. -/
def execCoalTime (hp : HostId) (q : QueueId) (s : State) : Ans := done s (coalesce s hp q)

/-! ### The host port (R226, R227, R259, R260) -/

/-- The host link goes down (R259): the completion entries of what has started are lost, whenever it completes. -/
def linkDown (s : State) (h : Nat) : State :=
  if (hport s h).linkUp then
    stopQueues (updHp s h (fun x => { x with linkUp := false, flights := x.flights.map (fun f => { f with lost := true }) })) h 2
  else s

/-- HOST_LINK_DOWN. -/
def execHostLinkDown (hp : HostId) (s : State) : Ans := done s (linkDown s hp)

/-- The host-port registers of 17 R483 at their reset values. -/
def resetPortRegs (s : State) (h : Nat) : State :=
  let s := updHp s h (fun x => { x with
    cfg := {}, armed := false, indAddr := 0, autoInc := false, indErr := 0, msix := [], asyncCause := 0, asyncMask := 63
    rdSeq := 0, rdRecord := [], rdStat := 0, latch := 0, latchOff := 0
    queues := mmapIf x.queues {} (fun _ => true) (fun q =>
      { q with sqBase := 0, cqBase := 0, ringsz := 0, iv := 0, ien := false, coalCnt := 0, coalTime := 0, estatus := 0, doorbell := 0 }) })
  [0x0049000, 0x00C0810, 0x001000C, 0x0010008].foldl (fun s o => setReg s (.hp h) o (regReset (nparts s) o)) s

/-- A host-port reset (R260, 17 R483): every queue undergoes R234; freezes stay (15 R467). -/
def resetHostPort (s : State) (h cause : Nat) : State :=
  match hpPart s h with
  | none => s
  | some p =>
    let s := dumpMeetsReset s [ucHost h]
    recordReset (resetPortRegs ((List.range 64).foldl (fun s q => resetQueue s h q) s) h) p (ucHost h) 6 cause

/-- HOST_PORT_RESET. -/
def execHostPortReset (hp : HostId) (s : State) : Ans := done s (resetHostPort s hp 4)

/-- PERST_N: the fundamental reset takes the link down and resets the port (18 R514); ignored while RESET_N is low (18
R512). -/
def perst (s : State) (h : Nat) : State :=
  if s.pins.resetN && (hpPart s h).isSome then resetHostPort (linkDown s h) h 4 else s

/-- PERST_N. -/
def execPerstN (hp : HostId) (s : State) : Ans := done s (perst s hp)

/-- IDE_FAIL: the TLP is discarded and a Secure stream becomes Insecure (R227). -/
def ideFails (s : State) (h : Nat) : State :=
  if (hport s h).ide = .secure then stickyHost (updHp s h (fun x => { x with ide := .insecure })) h 1 else s

/-- IDE_FAIL. -/
def execIdeFail (hp : HostId) (s : State) : Ans := done s (ideFails s hp)

/-! ### BAR4 (R222; 15 R465) -/

/-- A host port frozen (15 R465). -/
def freezeHost (s : State) (h addr : Nat) : State :=
  let s := updHp s h (fun x => { x with frozen := true })
  asyncCause (stickyHost (recordFreeze s ((hpPart s h).getD 7) (ucHost h) 1 h addr) h 2) h 3

/-- A read of `n` bytes answered with all ones. -/
def allOnes (s : State) (h n : Nat) : State := emit s (.bar4 h (List.replicate n 0xFF) false)

/-- A BAR4 access (R222). An address beyond the size of BAR4 (R221) is not the port's. Data of a poisoned TLP is written
poisoned (06 R173). An access that meets a stack held in self-refresh is refused as the requests of 06 R183 are: a write
has no effect and a read returns all ones (DESIGN CHOICE, log 34). -/
def bar4 (s : State) (h off : Nat) (write : Bool) (len : Nat) (data : Bytes) (ep : Bool) : State :=
  match hpPart s h with
  | none => s
  | some p =>
    let n := if write then data.length else len
    let va := (regF s (.hp h) 0x001000C 0 28 * pageSize + off) % 2 ^ 47
    let deny (s : State) : State := if write then s else allOnes s h n
    if !hostUp s h || n == 0 || decide (2 ^ (hport s h).cfg.bar4Log < off + n) then s
    else if (hport s h).frozen then deny s
    else if !scopeOk s p .host write va n then deny (freezeHost s h (badVa s p .host write va n))
    else if fencedMem s p va n then deny s
    else if write then vwrite s p va ⟨data, if ep then [(0, n)] else []⟩
    else
      let s := touch s p va n
      let b := vread s p va n
      emit s (.bar4 h b.data b.bad)

/-- BAR4_ACCESS. -/
def execBar4Access (hp : HostId) (off : Nat) (write : Bool) (len : Nat) (data : Tlp) (s : State) : Ans :=
  done s (bar4 s hp off write len data.bytes data.ep)

end Sys2Proof.Machine
end

