-- ==== Sys2Proof/Machine/Links.lean ====
section
/-! DEFINITION. Jilan links (09_jilan_links.md): received flits, retry, the training state machine, IDENT, retraining,
lane retirement and the port's reset. -/

namespace Sys2Proof.Machine

/-! ### Lanes (R276, R288) -/

/-- Width, active and standby lanes that R288 chooses from healthy lanes; width 0 below 6 lanes. -/
def pickLanes (ok : List Nat) : Nat × BitVec 8 × BitVec 8 :=
  let b (l : List Nat) : BitVec 8 := BitVec.ofNat 8 (ofBits l)
  if ok.length < 6 then (0, 0, 0)
  else if ok.length = 8 then (8, b ok, 0)
  else (6, b (ok.take 6), b (ok.drop 6))

/-- The non-retired lanes of a set. -/
def healthyIn (x : Port) (lanes : BitVec 8) : List Nat := (healthyLanes x).filter (fun m => lanes.getLsbD m)

/-- A saturating 64-bit count. -/
def sat64 (n : Nat) : Nat := min n (2 ^ 64 - 1)

/-- LANE_MAP sent (R276). -/
def sendLaneMap (s : State) (j : Nat) : State :=
  let x := port s j
  sendLctl s j 4 (leBytes 1 x.activeLanes.toNat ++ leBytes 1 x.standby.toNat ++ leBytes 1 x.retired.toNat)

/-- The lanes put into service at the end of a training or retraining, with the eye margins that it measured. -/
def setLanes (s : State) (j : Nat) (w : Nat) (a b : BitVec 8) (eyes : Nat → Nat) : State :=
  let lane (x : Port) (m : Nat) : Lane :=
    { mget x.lanes {} m with
      lstate := if x.retired.getLsbD m then 2 else if a.getLsbD m then 0 else if b.getLsbD m then 1 else 3
      eye := if x.retired.getLsbD m then (mget x.lanes {} m).eye else eyes m }
  updPort s j (fun x =>
    let ls := (List.range 8).foldl (fun t m => mset t {} m (lane x m)) x.lanes
    { x with width := w, activeLanes := a, standby := b, lanes := ls })

/-- A lane retired (R288): LANE_RET and its record, with the width that the healthy lanes left give. -/
def retireLane (s : State) (j m : Nat) : State :=
  let x := port s j
  if x.retired.getLsbD m then s
  else
    let s := updPort s j (fun x => { x with
      retired := x.retired ||| BitVec.ofNat 8 (2 ^ m)
      lanes := mset x.lanes {} m { mget x.lanes {} m with lstate := 2, condemned := false, watch := false, asked := false } })
    let s := stickyPort s j 2
    record s ((portPart s j).getD 7) (ucPort j) operLink 0x0042
      (leBytes 1 m ++ leBytes 1 (pickLanes (healthyLanes (port s j))).1 ++ leBytes 4 (mget x.lanes {} m).ber.toNat)

/-- Lanes retired in ascending order. -/
def retireLanes (s : State) (j : Nat) (ms : List Nat) : State := ms.foldl (fun s m => retireLane s j m) s

/-! ### State changes (R278) -/

/-- The port goes to DETECT. -/
def toDetect (s : State) (j : Nat) : State := untrain (movePort s j 1) j

/-- The port goes to DISABLED. -/
def toDisabled (s : State) (j : Nat) : State := untrain (movePort s j 0) j

/-- Whether a port may leave DISABLED (R278): EN, a partition that has started, in service (13 R405), its PHYs on
(14 R437). -/
def mayEnable (s : State) (j : Nat) : Bool :=
  jpEn s j && !s.faults.oos && !s.power.ioOff.contains (j / 16) &&
  (match portPart s j with
    | some p => partExists s p && decide (2 ≤ (part s p).pstate) && decide ((part s p).pstate ≤ 4)
    | none => false)

/-- DISABLED left for DETECT when it may be. -/
def tryEnable (s : State) (j : Nat) : State := if (port s j).state = 0 ∧ mayEnable s j then toDetect s j else s

/-- A Jilan port reset (R278; 13 R398). A DISABLED port leaves DISABLED only as R278 allows. -/
def relink (s : State) (j : Nat) : State :=
  if (port s j).state = 9 then s
  else if !jpEn s j then toDisabled s j
  else if (port s j).state = 0 then tryEnable (untrain s j) j
  else toDetect s j

/-- It, with its record. -/
def resetJilan (s : State) (j cause : Nat) : State :=
  relink (recordReset (dumpMeetsReset s [ucPort j]) ((portPart s j).getD 7) (ucPort j) 4 cause) j

/-- RECOVER entered (R275): FEC alignment is to be reacquired on the active lanes. -/
def goRecover (s : State) (j : Nat) : State :=
  updPort (movePort s j 6) j (fun x => { x with
    recovers := sat64 (x.recovers + 1), aligned := x.aligned &&& ~~~x.activeLanes
    link := { x.link with replayed := false, naks := 0, invalid := 0 } })

/-- RECOVER left for the state it was entered from, once the active lanes are aligned and a REPLAY_START has been
exchanged (R278). -/
def checkRecover (s : State) (j : Nat) : State :=
  let x := port s j
  if x.state = 6 ∧ x.activeLanes &&& x.aligned = x.activeLanes ∧ x.link.replayed then pump (movePort s j x.from_) j else s

/-! ### Received flits (R265, R270, R272, R273) -/

/-- Whether the CRC of a flit matches and its KIND is not reserved (R265). -/
def flitValid (f : Flit) : Bool :=
  let b := flitToBytes f
  crc32c (b.take 252) == leAt b 252 4 && fKind f != 3

/-- Whether a port receives flits at all: it has left DETECT and is not RETIRED (R277). -/
def hears (x : Port) : Bool := decide (2 ≤ x.state) && x.state != 9

/-- Whether a flit is a NAK. -/
def isNak (f : Flit) : Bool := fKind f == 2 && leAt (fPayload f) 0 1 == 1

/-- What every valid flit's header says: the ACK of R272 and the credit of R270. What they let the port send goes out at
once, but after the replay where the flit is a NAK (R274). -/
def rxHeader (s : State) (j : Nat) (f : Flit) : State :=
  let s := updPort s j (fun x => { x with rxFlits := sat64 (x.rxFlits + 1) })
  let s := updLink s j (fun l =>
    let keep := match l.replay with
      | [] => []
      | (o, _) :: _ =>
        let n := (fAck f + 1024 - o) % 1024
        if n < 512 then l.replay.filter (fun e => decide (n < (e.1 + 1024 - o) % 1024)) else l.replay
    let v := fCrvc f
    let old := mget l.freed 0 v
    let fr := if (fCrcum f + 1024 - old) % 1024 < 512 then mset l.freed 0 v (fCrcum f) else l.freed
    { l with invalid := 0, replay := keep, freed := fr })
  if isNak f then s else pump s j

/-- A NAK sent with the sequence number expected next. -/
def sendNak (s : State) (j : Nat) : State :=
  let s := sendLctl s j 1 (leBytes 2 (port s j).link.rxSeq)
  updPort s j (fun x => { x with nakTx := sat64 (x.nakTx + 1), link := { x.link with naks := x.link.naks + 1 } })

/-- Whether a port's traffic admits LCTL flits while it is trained (R277). -/
def talks (x : Port) : Bool := x.state == 3 || x.state == 4 || x.state == 5 || x.state == 8

/-- Later DATA flits are discarded until a replay begins, and a NAK asks for it (R273). -/
def askReplay (s : State) (j : Nat) : State :=
  if (talks (port s j) || (port s j).state == 6) && !(port s j).link.discarding then
    sendNak (updLink s j (fun l => { l with discarding := true })) j
  else s

/-- A flit that is not valid (R273): discarded with every later DATA flit until a replay begins, and NAKed once. -/
def rxInvalid (s : State) (j : Nat) : State :=
  askReplay (updPort s j (fun x => { x with
    rxFlits := sat64 (x.rxFlits + 1), crcErr := sat64 (x.crcErr + 1), link := { x.link with invalid := x.link.invalid + 1 } })) j

/-- A received flit: the injected CRC failure of 13 R393, an invalid flit, or its header and then `k`. -/
def rxFlit (s : State) (j : Nat) (f : Flit) (k : State → State) : State :=
  if !hears (port s j) then s
  else if (port s j).inject then rxInvalid (updPort s j (fun x => { x with inject := false })) j
  else if flitValid f then k (rxHeader s j f)
  else rxInvalid s j

/-- A received LCTL flit of a control type: `k` takes its payload. One of a type that R276 does not list is counted in
CRC_ERR and ignored; another listed type than the row's is no flit of this row. -/
def rxLctl (s : State) (j ctype : Nat) (f : Flit) (k : State → Bytes → State) : State :=
  let pl := fPayload f
  let c := leAt pl 0 1
  rxFlit s j f (fun s =>
    if fKind f ≠ 2 then s
    else if c = ctype then k s pl
    else if 1 ≤ c ∧ c ≤ 7 then s
    else updPort s j (fun x => { x with crcErr := sat64 (x.crcErr + 1) }))

/-- The packet of assembled flits (10 R294, R295, R297), once every byte has come: PTYPE and packet. -/
def asmPacket (vc : Nat) (fs : List (Bytes × Nat)) : Option (Nat × Packet) :=
  let bs := fs.flatMap (·.1)
  let len := leAt bs 12 2 % 2 ^ 13
  if bs.length < 32 + len then none
  else
    let pz := fs.zipIdx.flatMap (fun e => (bitsSet e.1.2 4).filterMap (fun k =>
      let lo := 248 * e.2 + 64 * k
      let hi := min (lo + min 64 (248 - 64 * k)) (32 + len)
      let a := max lo 32
      if a < hi then some (a - 32, hi - a) else none))
    some (leAt bs 0 1,
      { vc := vc, sub := leAt bs 1 1, src := leAt bs 2 3 % 2 ^ 20, dst := leAt bs 5 3 % 2 ^ 20, gen := leAt bs 8 3
        group := leAt bs 14 2, addr := leAt bs 16 6, msg := leAt bs 24 4, imptag := leAt bs 28 4
        data := (bs.drop 32).take len, poison := pz })

/-- A DATA flit in sequence, delivered to the transport engine in order per VC (R271); the buffers of a whole packet are
freed as it is taken (R270), those of a held packet as it is released. A flit that a replay repeats is discarded, and
one that leaves a gap is treated as a flit that is not valid (R273). A port that is not ACTIVE or waits for a newer
IDENT carries none (R277, R283), and a STRUCK partition accepts none (11 R353). -/
def rxData (s : State) (j : Nat) (f : Flit) : State :=
  let x := port s j
  let struck : Bool := match portPart s j with
    | some p => (proof s p).slice == 9
    | none => true
  if fKind f ≠ 1 ∨ x.state ≠ 5 ∨ x.epochWait ∨ x.link.discarding ∨ struck then s
  else if x.link.rxPos ≠ x.link.rxSeq then
    if (x.link.rxSeq + 1024 - x.link.rxPos) % 1024 < 512 then updLink s j (fun l => { l with rxPos := (l.rxPos + 1) % 1024 })
    else askReplay s j
  else
    let v := fVc f
    let fs := mget x.link.asm [] v ++ [(fPayload f, fPoison f)]
    let n := (x.link.rxSeq + 1) % 1024
    let s := updLink s j (fun l => { l with rxSeq := n, rxPos := n, naks := 0, asm := mset l.asm [] v fs })
    match asmPacket v fs with
    | none => s
    | some (ptype, pk) =>
      let s := updLink s j (fun l => { l with asm := mset l.asm [] v [] })
      let p := (portPart s j).getD 0
      let n := (xport s p).held.length
      let s := receive s j ptype pk
      if n < (xport s p).held.length then
        updXport s p (fun y => { y with held := y.held.dropLast ++ (y.held.drop n).map (fun h => { h with flits := fs.length }) })
      else freeBuffers s j v fs.length

/-- DATA_FLIT. -/
def execDataFlit (j : PortId) (f : Flit) (s : State) : Ans := done s (rxFlit s j f (fun s => rxData s j f))

/-- IDLE_FLIT: its header alone (R270). -/
def execIdleFlit (j : PortId) (f : Flit) (s : State) : Ans := done s (rxFlit s j f id)

/-- INVALID_FLIT. -/
def execInvalidFlit (j : PortId) (s : State) : Ans := done s (if hears (port s j) then rxInvalid s j else s)

/-- Whether a port may send DATA flits again: in ACTIVE, or in RECOVER entered from ACTIVE, and not while it waits for a
newer IDENT (R277, R283); not for a STRUCK partition (11 R353). -/
def mayResend (s : State) (j : Nat) : Bool :=
  let x := port s j
  (x.state == 5 || (x.state == 6 && x.from_ == 5)) && !x.epochWait &&
  (match portPart s j with
    | some p => (proof s p).slice != 9
    | none => false)

/-- DATA flits from a sequence number onwards sent again, each with its current header (R274). -/
def resend (s : State) (j from_ : Nat) : State :=
  let x := port s j
  let es := if mayResend s j then x.link.replay.filter (fun e => decide ((e.1 + 1024 - from_) % 1024 < 512)) else []
  let s := es.foldl (fun s e =>
    let l := (port s j).link
    let g := flitOf (flitBytes (hdrNow l 1 (fVc e.2) (fPoison e.2)) (fPayload e.2))
    let s := updPort s j (fun x => { x with
      txFlits := sat64 (x.txFlits + 1), replayedCnt := sat64 (x.replayedCnt + 1), link := { x.link with crvc := (l.crvc + 1) % 8 } })
    emit s (.flit j e.1 g)) s
  chargeEvery s (ucPort j) es.length 1024

/-- NAK received: REPLAY_START, the buffered flits, then new ones (R274). -/
def rxNak (s : State) (j : Nat) (pl : Bytes) : State :=
  let x := port s j
  if talks x || x.state == 6 then
    let n := leAt pl 1 2 % 1024
    let s := updPort s j (fun x => { x with nakRx := sat64 (x.nakRx + 1), link := { x.link with replayed := true } })
    pump (checkRecover (resend (sendLctl s j 2 (leBytes 2 n)) j n) j) j
  else s

/-- NAK. -/
def execNak (j : PortId) (f : Flit) (s : State) : Ans := done s (rxLctl s j 1 f (fun s pl => rxNak s j pl))

/-- NAK_REPEAT: no REPLAY_START for 4 µs (R273). -/
def execNakRepeat (j : PortId) (s : State) : Ans :=
  let x := port s j
  done s (if (talks x || x.state == 6) && x.link.discarding then sendNak s j else s)

/-- REPLAY_START received: a replay begins, and the next DATA flits are those from its sequence number onwards (R273). -/
def rxReplayStart (s : State) (j : Nat) (pl : Bytes) : State :=
  let x := port s j
  if talks x || x.state == 6 then
    checkRecover (updLink s j (fun l => { l with discarding := false, rxPos := leAt pl 1 2 % 1024, replayed := true })) j
  else s

/-- REPLAY_START. -/
def execReplayStart (j : PortId) (f : Flit) (s : State) : Ans := done s (rxLctl s j 2 f (fun s pl => rxReplayStart s j pl))

/-- RECOVER: eight NAKs of one sequence number, or sixteen flits in a row that are not valid (R275). -/
def execRecover (j : PortId) (s : State) : Ans :=
  let x := port s j
  done s (if (x.state = 4 ∨ x.state = 5) ∧ (8 ≤ x.link.naks ∨ 16 ≤ x.link.invalid) then goRecover s j else s)

/-! ### Training (R276 to R278) -/

/-- The lane map that the port's own view gives: from its aligned lanes once six are, until then from its healthy
lanes. -/
def ownMap (x : Port) : Nat × BitVec 8 × BitVec 8 :=
  let ok := healthyIn x x.aligned
  pickLanes (if 6 ≤ ok.length then ok else healthyLanes x)

/-- The port's own map in EQUALISE: sent again when it changes. -/
def offerMap (s : State) (j : Nat) : State :=
  let x := port s j
  let (_, a, b) := ownMap x
  if a = x.activeLanes ∧ b = x.standby then s
  else sendLaneMap (updPort s j (fun x => { x with activeLanes := a, standby := b, mapAgreed := false })) j

/-- CREDIT_INIT sent, once in a training (R269, R276). -/
def sendCredits (s : State) (j : Nat) : State :=
  if (port s j).link.creditSent then s
  else
    let ns := if isFabric j ∨ jpRole s j = 0 then [32, 32, 64, 384, 384, 384, 384, 384] else [0, 0, 0, 0, 0, 0, 0, 384]
    sendLctl (updLink s j (fun l => { l with creditSent := true })) j 7 (zeros 3 ++ ns.flatMap (leBytes 2))

/-- IDENTIFY entered: a new link layer and the first IDENT. The eye margins of the training are free values (log 81). -/
def toIdentify (s : State) (j : Nat) : State :=
  let (w, a, b) := ownMap (port s j)
  let (k, s) := fresh s
  let s := setLanes (movePort s j 3) j w a b (fun m => (Config.eyeMargin (8 * k + m)).toNat)
  let s := updPort s j (fun x => { x with link := {}, gotIdent := false })
  sendIdent s j

/-- EQUALISE left once six non-retired lanes are aligned and the LANE_MAP is agreed (R278). -/
def tryIdentify (s : State) (j : Nat) : State :=
  let x := port s j
  if x.state = 2 ∧ x.mapAgreed ∧ 6 ≤ (healthyIn x x.aligned).length then toIdentify s j else s

/-- SIGNAL_DETECT: the lanes on which signal is present. -/
def signalSeen (s : State) (j : Nat) (lanes : BitVec 8) : State :=
  let s := updPort s j (fun x => { x with signal := lanes })
  let x := port s j
  if x.state = 1 ∧ 6 ≤ (healthyIn x lanes).length then
    let (_, a, b) := ownMap x
    sendLaneMap (updPort (movePort s j 2) j (fun x => { x with activeLanes := a, standby := b, mapAgreed := false })) j
  else s

/-- SIGNAL_DETECT. -/
def execSignalDetect (j : PortId) (lanes : BitVec 8) (s : State) : Ans := done s (signalSeen s j lanes)

/-- SIGNAL_LOSS: signal is left on the lanes alone; below six non-retired ones the port returns to DETECT from EQUALISE,
IDENTIFY and QUARANTINE. -/
def signalLost (s : State) (j : Nat) (lanes : BitVec 8) : State :=
  let s := updPort s j (fun x => { x with signal := lanes })
  let x := port s j
  if (x.state = 2 ∨ x.state = 3 ∨ x.state = 8) ∧ (healthyIn x lanes).length < 6 then toDetect s j else s

/-- SIGNAL_LOSS. -/
def execSignalLoss (j : PortId) (lanes : BitVec 8) (s : State) : Ans := done s (signalLost s j lanes)

/-- FEC_ALIGNMENT: lanes gain FEC alignment and deskew. -/
def fecGained (s : State) (j : Nat) (lanes : BitVec 8) : State :=
  if hears (port s j) then
    let s := updPort s j (fun x => { x with aligned := x.aligned ||| lanes })
    if (port s j).state = 2 then tryIdentify (offerMap s j) j else checkRecover s j
  else s

/-- FEC_ALIGNMENT. -/
def execFecAlignment (j : PortId) (lanes : BitVec 8) (s : State) : Ans := done s (fecGained s j lanes)

/-- FEC_ALIGNMENT_LOSS: a lane loses alignment; an active lane takes the port to RECOVER or DETECT (R275, R278). -/
def fecLost (s : State) (j m : Nat) : State :=
  let x := port s j
  let s := updPort s j (fun x => { x with aligned := x.aligned &&& ~~~BitVec.ofNat 8 (2 ^ m) })
  if x.activeLanes.getLsbD m then
    if x.state = 4 ∨ x.state = 5 then goRecover s j
    else if x.state = 2 ∨ x.state = 3 ∨ x.state = 8 then toDetect s j
    else s
  else s

/-- FEC_ALIGNMENT_LOSS. -/
def execFecAlignmentLoss (j : PortId) (lane : LaneId) (s : State) : Ans := done s (fecLost s j lane)

/-- LANE_MAP received in EQUALISE or at the end of a retraining: the union of the retired lanes is retired (R288); the
maps agree when they are equal. -/
def rxLaneMap (s : State) (j : Nat) (pl : Bytes) : State :=
  let x := port s j
  if x.state = 2 ∨ x.state = 7 then
    let s := retireLanes s j (bitsSet (leAt pl 3 1) 8)
    if (healthyLanes (port s j)).length < 6 then dropPort s j
    else if x.state = 7 then s
    else
      let s := offerMap s j
      let y := port s j
      let same := leAt pl 1 1 == y.activeLanes.toNat && leAt pl 2 1 == y.standby.toNat && leAt pl 3 1 == y.retired.toNat
      tryIdentify (updPort s j (fun x => { x with mapAgreed := same })) j
  else s

/-- LANE_MAP. -/
def execLaneMap (j : PortId) (f : Flit) (s : State) : Ans := done s (rxLctl s j 4 f (fun s pl => rxLaneMap s j pl))

/-- EQUALISE_TIMEOUT: back to DETECT with RETRAINS counted. -/
def execEqualiseTimeout (j : PortId) (s : State) : Ans :=
  done s (if (port s j).state = 2 then countRetrain (toDetect s j) j else s)

/-- RECOVER_TIMEOUT: 40 µs without the link (R278). -/
def execRecoverTimeout (j : PortId) (s : State) : Ans := done s (if (port s j).state = 6 then toDetect s j else s)

/-! ### IDENT (R280 to R284) -/

/-- The fields of an IDENT payload. -/
def identOf (pl : Bytes) : IdentMsg :=
  { kind := leAt pl 1 1, port := leAt pl 2 1, vmin := leAt pl 3 1, vmax := leAt pl 4 1, role := leAt pl 5 1 % 4
    id := leAt pl 6 3 % 2 ^ 20, slice := leAt pl 10 4, epoch := leAt pl 14 2, colophon := sub (pl.drop 16) 0 12 }

/-- What a verdict on the last IDENT does (R282, R283): IDENTIFY and QUARANTINE act on it, READY shows QREASON, and an
epoch wait ends when every check passes. -/
def actOnIdent (s : State) (p j r : Nat) : State :=
  let x := port s j
  if x.state = 3 then
    if r ≠ 0 then quarantine s j r
    else if (xport s p).imp.isNone then s
    else updPort (movePort s j 4) j (fun y => { y with qreason := 0 })
  else if x.epochWait then (if r = 0 then pump (portActive s j) j else updPort s j (fun y => { y with qreason := r }))
  else if x.state = 8 then
    if r = 0 then updPort (movePort s j 4) j (fun y => { y with qreason := 0 }) else updPort s j (fun y => { y with qreason := r })
  else if x.state = 4 then updPort s j (fun y => { y with qreason := r })
  else s

/-- The last IDENT evaluated (R282). Check 2 needs the IDENT alone; where it passes, the port sends its CREDIT_INIT, and
check 3 waits for the partner's (DEDUCED, log 87: R276 puts CREDIT_INIT at the end of IDENTIFY). -/
def evalIdent (s : State) (j : Nat) : State :=
  match (port s j).peer, portPart s j with
  | some i, some p =>
    let s := updPort s j (fun y => { y with version := negotiated s i })
    if negotiated s i = 0 then actOnIdent s p j 4
    else
      let s := sendCredits s j
      if (port s j).link.creditInit then actOnIdent s p j (identVerdict s p j i) else s
  | _, _ => s

/-- IDENT received; one of a retraining waits for its end (R285). -/
def rxIdent (s : State) (j : Nat) (pl : Bytes) : State :=
  let t := updPort s j (fun x => { x with peer := some (identOf pl), gotIdent := true })
  if talks (port s j) then evalIdent t j else if (port s j).state = 7 then t else s

/-- IDENT. -/
def execIdent (j : PortId) (f : Flit) (s : State) : Ans := done s (rxLctl s j 3 f (fun s pl => rxIdent s j pl))

/-- IDENT_SEND: every 1 ms in IDENTIFY, READY and QUARANTINE (R276). -/
def execIdentSend (j : PortId) (s : State) : Ans :=
  let x := port s j
  done s (if x.state = 3 ∨ x.state = 4 ∨ x.state = 8 then sendIdent s j else s)

/-- CREDIT_INIT received: the partner's buffers per VC (R269). -/
def rxCredits (s : State) (j : Nat) (pl : Bytes) : State :=
  let x := port s j
  if x.state = 3 ∨ x.state = 4 ∨ x.state = 8 then
    let s := updLink s j (fun l => { l with
      credit := mofList 0 0 ((List.range 8).map (fun v => leAt pl (4 + 2 * v) 2)), creditInit := true })
    if x.state = 3 ∧ x.gotIdent then evalIdent s j else s
  else s

/-- CREDIT_INIT. -/
def execCreditInit (j : PortId) (f : Flit) (s : State) : Ans := done s (rxLctl s j 7 f (fun s pl => rxCredits s j pl))

/-- IDENT_TIMEOUT (R282, check 1). -/
def execIdentTimeout (j : PortId) (s : State) : Ans :=
  done s (if (port s j).state = 3 ∧ !(port s j).gotIdent then quarantine s j 8 else s)

/-- EPOCH_WAIT_TIMEOUT (R283). -/
def execEpochWaitTimeout (j : PortId) (s : State) : Ans := done s (if (port s j).epochWait then quarantine s j 3 else s)

/-! ### Retraining and lane retirement (R285 to R290) -/

/-- RETRAIN entered: counted, the LANE_MAP to be agreed again. The link layer keeps its state (DEDUCED: R278 lets the
port return to ACTIVE without IDENTIFY). -/
def enterRetrain (s : State) (j : Nat) : State :=
  countRetrain (updPort (movePort s j 7) j (fun x => { x with
    retrainAsked := none, deferred := false, mapAgreed := false, peerBefore := x.peer })) j

/-- RETRAIN_REQ received: an acknowledgement where the port has asked itself, else answered with RETRAIN_ACK. -/
def rxRetrainReq (s : State) (j : Nat) (pl : Bytes) : State :=
  let x := port s j
  if x.state = 4 ∨ x.state = 5 then
    enterRetrain (if x.retrainAsked.isSome then s else sendLctl s j 6 (leBytes 1 (leAt pl 1 1))) j
  else s

/-- RETRAIN_REQ. -/
def execRetrainReq (j : PortId) (f : Flit) (s : State) : Ans := done s (rxLctl s j 5 f (fun s pl => rxRetrainReq s j pl))

/-- RETRAIN_ACK received for the port's own request. -/
def rxRetrainAck (s : State) (j : Nat) : State :=
  let x := port s j
  if (x.state = 4 ∨ x.state = 5) ∧ x.retrainAsked.isSome then enterRetrain s j else s

/-- RETRAIN_ACK. -/
def execRetrainAck (j : PortId) (f : Flit) (s : State) : Ans := done s (rxLctl s j 6 f (fun s _ => rxRetrainAck s j))

/-- Offset of JP_UNRETIRE of a port. -/
def unretireOff (j : Nat) : Nat := 0x040000C + 0x1000 * j

/-- The lanes that UNRETIRE names return to service, and its bits are cleared (R290). -/
def applyUnretire (s : State) (j : Nat) : State :=
  let w := BitVec.ofNat 8 (regW s .dev (unretireOff j))
  let s := updPort s j (fun x =>
    let ls := (List.range 8).foldl (fun t m =>
      if w.getLsbD m && x.retired.getLsbD m then mset t {} m { mget t {} m with lstate := 3, rtc := 0 } else t) x.lanes
    { x with retired := x.retired &&& ~~~w, lanes := ls })
  setReg s .dev (unretireOff j) 0

/-- UNRETIRE written on a RETIRED port with the bit of a retired lane: it trains again, where R278 lets it, once six
lanes are healthy (DESIGN CHOICE, log 35). -/
def wakeRetired (s : State) (j : Nat) : State :=
  let x := port s j
  if x.state = 9 ∧ x.retired &&& BitVec.ofNat 8 (regW s .dev (unretireOff j)) ≠ 0 then
    let t := applyUnretire s j
    if 6 ≤ (healthyLanes (port t j)).length then tryEnable (untrain (updPort t j (fun x => { x with state := 0 })) j) j
    else s
  else s

/-- The counts of the lanes that asked for the retraining that ends (R288). -/
def countLanes (x : Port) : Map Lane :=
  (List.range 8).foldl (fun t m =>
    let l := mget t {} m
    if l.asked then mset t {} m { l with rtc := min 3 (l.rtc + 1), watch := l.rtc == 1, asked := false } else t) x.lanes

/-- The identity of R278: KIND, ID and PORT, the fields of the expected peer (R282; DEDUCED, log 87). -/
def IdentMsg.who (i : IdentMsg) : Nat × Nat × Nat := (i.kind, i.id, i.port)

/-- RETRAIN_COMPLETE (R278, R288): counts, retirements, the new lane map, and the state the port left, or QUARANTINE
where the identity that the retraining's IDENT gives has changed. An epoch wait goes on with that IDENT. The row carries
the eye margins that the retraining measured, 16 bits for each lane from lane 0. -/
def retrained (s : State) (j : Nat) (eyes : BitVec 128) : State :=
  let x := port s j
  let same := decide (x.peer.map IdentMsg.who = x.peerBefore.map IdentMsg.who)
  if x.state ≠ 7 then s
  else
    let s := updPort s j (fun x => { x with lanes := countLanes x, peerBefore := none, midWindow := true })
    let s := applyUnretire s j
    let s := retireLanes s j ((List.range 8).filter (fun m => (mget (port s j).lanes {} m).condemned))
    let ok := healthyLanes (port s j)
    if ok.length < 6 then dropPort s j
    else
      let (w, a, b) := pickLanes ok
      let s := sendIdent (sendLaneMap (setLanes s j w a b (fun m => eyes.toNat / 2 ^ (16 * m) % 2 ^ 16)) j) j
      if same then
        let s := updPort (movePort s j x.from_) j (fun y => { y with mapAgreed := true, aligned := y.aligned ||| a ||| b })
        let s := if x.from_ = 5 ∧ w = 6 then stickyPort s j 4 else s
        let s := pump s j
        if x.epochWait then evalIdent s j else s
      else
        let r := match x.peer, portPart s j with
          | some i, some p => identVerdict s p j i
          | _, _ => 1
        quarantine (movePort s j 8) j (if r = 0 then 1 else r)

/-- RETRAIN_COMPLETE. -/
def execRetrainComplete (j : PortId) (eyes : BitVec 128) (s : State) : Ans := done s (retrained s j eyes)

/-- RETRAIN_TIMEOUT: 100 ms in RETRAIN (R278). -/
def execRetrainTimeout (j : PortId) (s : State) : Ans := done s (if (port s j).state = 7 then toDetect s j else s)

/-- A quotient as FP32, rounded to nearest even. -/
def ratioF32 (n d : Nat) : BitVec 32 :=
  if d = 0 then 0
  else
    let k := 64 + Nat.log2 d
    let q := n * 2 ^ k / d
    toF32 (.fin false (2 * q + b2n (n * 2 ^ k % d != 0)) (-((k : Int) + 1)))

/-- A lane's counters after a window (R292). -/
def laneCounted (l : Lane) (w : LaneWindow) : Lane :=
  { l with cwCorr := sat64 (l.cwCorr + w.cwCorr), cwUncorr := sat64 (l.cwUncorr + w.cwUncorr), symCorr := sat64 (l.symCorr + w.symCorr)
           recent := l.recent + w.cwUncorr * 1024 }

/-- Errors that BER_EST counts in a window (R286). -/
def windowErrors (w : LaneWindow) : Nat := w.symCorr + 16 * w.cwUncorr

/-- Whether a lane is over threshold in a window (R286). -/
def overThreshold (w : LaneWindow) (e : Nat) : Bool := decide (w.bits < windowErrors w * 10 ^ e)

/-- A lane after a window (R286 to R288): BER_EST; over threshold it asks for a retraining, or is condemned where this is
the window that R288 watches: the first that lies wholly after the retraining. -/
def laneJudged (l : Lane) (w : LaneWindow) (e : Nat) (full : Bool) : Lane :=
  let isOver := overThreshold w e
  { l with ber := ratioF32 (windowErrors w) w.bits, watch := l.watch && !full
           condemned := l.condemned || (isOver && l.watch && full), asked := l.asked || (isOver && !(l.watch && full)) }

/-- BER_WINDOW: the counters of every lane that is not retired; a window that ends in RETRAIN is not judged (R288). -/
def berWindow (s : State) (j : Nat) (seen : List LaneWindow) : State :=
  let x := port s j
  if x.state < 3 ∨ x.state = 9 then s
  else
    let ws := (seen.zipIdx.filter (fun e => decide (e.2 < 8) && !x.retired.getLsbD e.2))
    let e := natFld (jpCfg s j) 8 4
    let ls := ws.foldl (fun t c => mset t {} c.2 (laneCounted (mget t {} c.2) c.1)) x.lanes
    let ls := if x.state = 7 then ls else ws.foldl (fun t c => mset t {} c.2 (laneJudged (mget t {} c.2) c.1 e (!x.midWindow))) ls
    let s := updPort s j (fun x => { x with lanes := ls, midWindow := false })
    let s := chargeEvery s (ucPort j) (ws.foldl (fun a c => a + c.1.cwCorr) 0) (2 ^ 30)
    if x.state = 7 then s
    else if (List.range 8).any (fun m => (mget ls {} m).condemned) then askRetrain s j 2
    else if ws.any (fun c => overThreshold c.1 e) then
      if natFld (jpCfg s j) 7 1 = 1 ∧ !observed s (ucPort j) then updPort s j (fun x => { x with deferred := true })
      else askRetrain s j 1
    else s

/-- BER_WINDOW. -/
def execBerWindow (j : PortId) (seen : List LaneWindow) (s : State) : Ans := done s (berWindow s j seen)

/-- UNCORRECTABLE_BURST: a retraining at once, whatever DEFER holds (R287). -/
def burst (s : State) (j m : Nat) : State :=
  if (port s j).state = 4 ∨ (port s j).state = 5 then
    askRetrain (updPort s j (fun x => { x with lanes := mset x.lanes {} m { mget x.lanes {} m with asked := true } })) j 1
  else s

/-- UNCORRECTABLE_BURST. -/
def execUncorrectableBurst (j : PortId) (lane : LaneId) (s : State) : Ans := done s (burst s j lane)

/-- RETRAIN_COUNT_RESET: 3,600 s with no window over threshold (R288). -/
def execRetrainCountReset (j : PortId) (lane : LaneId) (s : State) : Ans :=
  done s (updPort s j (fun x =>
    let l := mget x.lanes {} lane.val
    { x with lanes := mset x.lanes {} lane { l with rtc := 0, watch := false } }))

/-! ### JP_CFG (R292) -/

/-- CNTCLR: the port's and its lanes' counters cleared. -/
def clearCounters (s : State) (j : Nat) : State :=
  updPort s j (fun x =>
    let ls := (List.range 8).foldl (fun t m => mset t {} m { mget t {} m with cwCorr := 0, cwUncorr := 0, symCorr := 0 }) x.lanes
    { x with crcErr := 0, nakTx := 0, nakRx := 0, replayedCnt := 0, recovers := 0, retrains := 0, linkLosses := 0, txFlits := 0
             rxFlits := 0, stall := [], lanes := ls })

/-- What a write of JP_CFG.EN does beside the field: 0 is a Jilan port reset to DISABLED (13 R398), 1 lets the port
leave DISABLED. -/
def portEn (s : State) (j : Nat) (en : Bool) : State :=
  if en then tryEnable s j else if (port s j).state = 0 then s else resetJilan s j 3

end Sys2Proof.Machine
end

