-- ==== Sys2Proof/Machine/PacketRows.lean ====
section
/-! DEFINITION. Transport packets by row (10_jilan_transport.md R296): a packet of the row's type, and of the row's
sub-code where it names one, arrives on a port. -/

namespace Sys2Proof.Machine

/-- RMA_OPEN: a PUT or GET asks its target (10 R312). -/
def execRmaOpen (j : PortId) (pk : Packet) (s : State) : Ans := done s (receive s j 0x01 pk)

/-- RMA_GRANT: the target of a PUT is ready (10 R312). -/
def execRmaGrant (j : PortId) (pk : Packet) (s : State) : Ans := done s (receive s j 0x02 pk)

/-- RMA_REFUSE: the target turns an RMA away (10 R312). -/
def execRmaRefuse (j : PortId) (pk : Packet) (s : State) : Ans := done s (receive s j 0x03 pk)

/-- RMA_DATA: bytes of a PUT or GET (10 R312). -/
def execRmaData (j : PortId) (pk : Packet) (s : State) : Ans := done s (receive s j 0x04 pk)

/-- RMA_ACK: every byte of a PUT has landed (10 R312). -/
def execRmaAck (j : PortId) (pk : Packet) (s : State) : Ans := done s (receive s j 0x06 pk)

/-- COLL_READY (10 R314). -/
def execCollReady (j : PortId) (pk : Packet) (s : State) : Ans := done s (receive s j 0x10 pk)

/-- COLL_DATA (10 R314). -/
def execCollData (j : PortId) (pk : Packet) (s : State) : Ans := done s (receive s j 0x11 pk)

/-- PLANES: the sender's ACTIVE set (10 R308). -/
def execPlanes (j : PortId) (pk : Packet) (s : State) : Ans := done s (receive s j 0x23 pk)

/-- HS_WRITE (10 R325). -/
def execHsWrite (j : PortId) (pk : Packet) (s : State) : Ans := done s (receive s j 0x50 pk)

/-- HS_READ (10 R325). -/
def execHsRead (j : PortId) (pk : Packet) (s : State) : Ans := done s (receive s j 0x52 pk)

/-- DR_READY (10 R321). -/
def execDrReady (j : PortId) (pk : Packet) (s : State) : Ans := done s (receive s j 0x41 pk)

/-- DR_DURABLE (10 R321). -/
def execDrDurable (j : PortId) (pk : Packet) (s : State) : Ans := done s (receive s j 0x43 pk)

/-- DR_COMMITTED (10 R321). -/
def execDrCommitted (j : PortId) (pk : Packet) (s : State) : Ans := done s (receive s j 0x45 pk)

/-- DR_ERROR (10 R323). -/
def execDrError (j : PortId) (pk : Packet) (s : State) : Ans := done s (receive s j 0x46 pk)

/-- RD_DATA (10 R324). -/
def execRdData (j : PortId) (pk : Packet) (s : State) : Ans := done s (receive s j 0x49 pk)

/-- RD_END (10 R324). -/
def execRdEnd (j : PortId) (pk : Packet) (s : State) : Ans := done s (receive s j 0x4A pk)

/-- STOP (11 R347, R348). -/
def execStop (j : PortId) (pk : Packet) (s : State) : Ans := done s (receive s j 0x20 { pk with sub := 0 })

/-- REPORT at a root (11 R351). -/
def execReport (j : PortId) (pk : Packet) (s : State) : Ans := done s (receive s j 0x20 { pk with sub := 1 })

/-- DECISION (11 R352). -/
def execDecision (j : PortId) (pk : Packet) (s : State) : Ans := done s (receive s j 0x20 { pk with sub := 2 })

/-- POLL (11 R351). -/
def execPoll (j : PortId) (pk : Packet) (s : State) : Ans := done s (receive s j 0x20 { pk with sub := 3 })

/-- UP from a child of the vote tree (11 R344). -/
def execUp (j : PortId) (pk : Packet) (s : State) : Ans := done s (receive s j 0x22 { pk with sub := 0 })

/-- PROVEN from the parent of the vote tree (11 R344). -/
def execProven (j : PortId) (pk : Packet) (s : State) : Ans := done s (receive s j 0x22 { pk with sub := 1 })

/-- PULSE from a neighbour (11 R344). -/
def execPulse (j : PortId) (pk : Packet) (s : State) : Ans := done s (receive s j 0x22 { pk with sub := 2 })

/-- DIGEST from the facing rank (11 R341). -/
def execDigest (j : PortId) (pk : Packet) (s : State) : Ans := done s (receive s j 0x24 pk)

/-- MIRROR OPEN (11 R339). -/
def execMirrorOpen (j : PortId) (pk : Packet) (s : State) : Ans := done s (receive s j 0x30 { pk with sub := 0 })

/-- MIRROR GRAD (11 R339). -/
def execGrad (j : PortId) (pk : Packet) (s : State) : Ans := done s (receive s j 0x30 { pk with sub := 1 })

/-- MIRROR DONE (11 R340). -/
def execMirrorDone (j : PortId) (pk : Packet) (s : State) : Ans := done s (receive s j 0x30 { pk with sub := 2 })

/-- MIRROR SEAL (11 R341). -/
def execSeal (j : PortId) (pk : Packet) (s : State) : Ans := done s (receive s j 0x30 { pk with sub := 3 })

/-- MIRROR SCALE (11 R342). -/
def execScale (j : PortId) (pk : Packet) (s : State) : Ans := done s (receive s j 0x30 { pk with sub := 4 })

/-- STATE_XFER own pages of a restore set (11 R343). -/
def execOwnRestore (j : PortId) (pk : Packet) (s : State) : Ans := done s (receive s j 0x32 { pk with sub := 0 })

/-- STATE_XFER pages of a fill set (11 R343). -/
def execMirrorFill (j : PortId) (pk : Packet) (s : State) : Ans := done s (receive s j 0x32 { pk with sub := 1 })

/-- STATE_XFER scale bytes of a fill set (11 R343). -/
def execShadowFill (j : PortId) (pk : Packet) (s : State) : Ans := done s (receive s j 0x32 { pk with sub := 2 })

/-- STATE_XFER scale bytes of a restore set (11 R343). -/
def execScaleRestore (j : PortId) (pk : Packet) (s : State) : Ans := done s (receive s j 0x32 { pk with sub := 3 })

/-- STATE_XFER END (11 R343). -/
def execStateXferEnd (j : PortId) (pk : Packet) (s : State) : Ans := done s (receive s j 0x32 { pk with sub := 4 })

end Sys2Proof.Machine
end

