-- ==== Sys2Proof/Machine/ProofRows.lean ====
section
/-! DEFINITION. The engine events of transport, drains, steps and restarts: HELD_PACKET_TIMEOUT, the drain timers,
RESTORE_PARTNER_TIMEOUT (10_jilan_transport.md R305, R323; 12_snapshots.md R380), and ROLLBACK, JOIN, REPLAY, retirement,
pulses and sample recomputation (11_proof_and_reprint.md R328, R337, R344, R351, R355). -/

namespace Sys2Proof.Machine

/-! ### Transport and drains -/

/-- HELD_PACKET_TIMEOUT (10 R305). -/
def execHeldPacketTimeout (j : PortId) (vc : Fin 8) (s : State) : Ans := done s (dropHeld s j vc)

/-- CHUNK_RESEND (10 R323). -/
def execChunkResend (p : PartId) (chunk : Nat) (s : State) : Ans := done s (resendChunk s p chunk)

/-- The oldest drain whose manifest is out is aborted (10 R323). -/
def committedTimeout (s : State) (p : Nat) : State :=
  match (snap s p).drains.find? (·.manifest) with
  | some d => abortDrain s p d
  | none => s

/-- DR_COMMITTED_TIMEOUT (10 R323). -/
def execDrCommittedTimeout (p : PartId) (s : State) : Ans := done s (committedTimeout s p)

/-- The facing rank's fill does not come within 60 s: the RESTORE completes with FENCED (12 R380). -/
def partnerTimeout (s : State) (p : Nat) : State :=
  match (snap s p).restoring with
  | some r => if r.filling then failRestore s p else s
  | none => s

/-- RESTORE_PARTNER_TIMEOUT (12 R380). -/
def execRestorePartnerTimeout (p : PartId) (s : State) : Ans := done s (partnerTimeout s p)

/-! ### The decision and the restart (11 R351, R355) -/

/-- ROOT_COLLECT_TIMEOUT (11 R351). -/
def execRootCollectTimeout (p : PartId) (s : State) : Ans := done s (collectTimeout s p)

/-- DECISION_TIMEOUT (11 R351). -/
def execDecisionTimeout (p : PartId) (s : State) : Ans := done s (nextRound s p)

/-- The PHYs of an I/O die whose hottest sensor a restart finds below TJ_LIMIT come back (14 R437). -/
def wakeDies (s : State) : State :=
  let off := s.power.ioOff.filter (fun x => decide (4 * regF s .dev 0x0080018 0 8 ≤ dieTemp s (4 + x)))
  if off = s.power.ioOff then s
  else (List.range 32).foldl tryEnable (updPower s (fun y => { y with ioOff := off }))

/-- ROLLBACK_DONE (11 R355). -/
def execRollbackDone (p : PartId) (s : State) : Ans :=
  done s (if (proof s p).slice = 4 then endRollback (wakeDies (rollback s p)) p else s)

/-- JOIN_DONE (11 R355). -/
def execJoinDone (p : PartId) (s : State) : Ans :=
  done s (if (proof s p).slice = 6 ∧ joinReady s p then finishJoin s p else s)

/-- The replay reaches the stop point (08 R257): RUNNING, with ASYNC_IV raised; the queues stay STOPPED. -/
def endReplay (s : State) (p : Nat) : State :=
  if (proof s p).slice = 7 ∧ replayOver s p ∧ (replayFlights s p).isEmpty then
    asyncCause (updProof s p (fun x => { x with slice := 1 })) (partHp s p) 1
  else s

/-- REPLAY_END. -/
def execReplayEnd (p : PartId) (s : State) : Ans := done s (endReplay s p)

/-- STEP_RETIRE (11 R328): the step's journals, logs and captures are freed; what waits for journal space looks again
(07 R211, 08 R256). -/
def execStepRetire (p : PartId) (step : Nat) (s : State) : Ans := done s (tryPortion (resumeWaiting (retireStep s p step) p) p)

/-! ### Pulses (11 R344) -/

/-- The pulse neighbours: the parent, the children and the facing rank. -/
def neighbours (s : State) (p : Nat) : List Nat :=
  let l := (if ownRank s p = 0 then [] else [parentRank s p]) ++ childrenOf s p
  if hasFacing s p && !l.contains (facingRank s p) then l ++ [facingRank s p] else l

/-- PULSE sent to every neighbour while RUNNING. -/
def sendPulses (s : State) (p : Nat) : State :=
  if (proof s p).slice = 1 then
    (neighbours s p).foldl (fun s d => sendRank s p d 0x22 1 2 0 0 0 (.clean [])) s
  else s

/-- PULSE_SEND. -/
def execPulseSend (p : PartId) (s : State) : Ans := done s (sendPulses s p)

/-- A neighbour whose PULSE has been received since the restart is silent for 48 µs while RUNNING. -/
def loseNeighbour (s : State) (p rank : Nat) : State :=
  if (proof s p).slice = 1 ∧ (neighbours s p).contains rank ∧ (proof s p).heard.contains rank then
    raiseStrikes s p 0x19 (ucXport p) [⟨rank, false, false, true, 0x19⟩]
  else s

/-- NEIGHBOUR_LOST. -/
def execNeighbourLost (p : PartId) (rank : Nat) (s : State) : Ans := done s (loseNeighbour s p rank)

/-! ### Sample recomputation (11 R337) -/

/-- What a recomputation of a capture gives: output bytes, word 0 of the report with PCOL and PMIS masked, word 1. -/
def recompute (c : Capture) : Bytes × Nat × BitVec 32 :=
  let bank := c.steps.foldl (fun (b : Option Bank) st =>
    let m := mbM st.entry.block
    let n := mbN st.entry.block
    let b := b.getD (bankClear {} m n 0)
    some (bankRun (matIn { spad := st.spad } st.entry.block) m n (mbK st.entry.block) b).1) none
  match c.steps.getLast?, bank with
  | some st, some b =>
    let o := emitOf { spad := st.spad } st.entry b
    (o.rows.flatMap id, reportWord0 { b with pmis := false, pcol := 0 } o, o.amax)
  | _, _ => ([], 0, 0)

/-- What the chain itself gave, masked in the same way: bit 5 is PMIS, bits [25:20] are PCOL (03 R76). -/
def captured_ (c : Capture) : Bytes × Nat × BitVec 32 :=
  (c.output, setFld (setFld c.report.1.toNat 5 1 0) 20 6 0, c.report.2)

/-- A result of a recomputation as a core gives it: `wrong` is what the core gets wrong in word 1 (environment). -/
def faulty (r : Bytes × Nat × BitVec 32) (wrong : Word) : Bytes × Nat × BitVec 32 := (r.1, r.2.1, r.2.2 ^^^ wrong)

/-- The cores to charge for a difference (R337): each whose result differs from the third one's, or all three when all
three differ. -/
def sampleCharges (rs : List (Nat × (Bytes × Nat × BitVec 32))) (third : Nat × (Bytes × Nat × BitVec 32)) : List Nat :=
  let bad := (rs.filter (fun x => x.2 != third.2)).map (·.1)
  if bad.length = 2 then bad ++ [third.1] else bad

/-- A capture recomputed on physical core `c`, and on `third` where the results differ (R337): a match frees it; a
difference is SAMPLE and the third result says which cores to charge. Where `third` is no usable core, nobody is charged. -/
def recomputeSample (s : State) (p c third : Nat) (wrong wrong3 : Word) : State :=
  let usable (x : Nat) : Bool := corePart s x == p && !smem s.retiredCores x
  match (proof s p).captures.find? (fun k => k.phys != c) with
  | none => s
  | some k =>
    let s1 := updProof s p (fun x => { x with captures := x.captures.erase k })
    if !usable c then s
    else
      let r := recompute k
      if k.poison || decide (faulty r wrong = captured_ k) then s1
      else
        let s := updProof s1 p (fun x => { x with sampleMismatch := min (x.sampleMismatch + 1) (2 ^ 64 - 1) })
        let s := raise s p 0x02 (some k.step) (ucCore k.phys)
        if !usable third || third == c || third == k.phys then s
        else (sampleCharges [(k.phys, captured_ k), (c, faulty r wrong)] (third, faulty r wrong3)).foldl
          (fun s x => charge s (ucCore x) 192) s

/-- SAMPLE_RECOMPUTE. -/
def execSampleRecompute (p : PartId) (second third : Recompute) (s : State) : Ans :=
  done s (recomputeSample s p second.core third.core second.wrong third.wrong)

end Sys2Proof.Machine
end

