-- ==== Sys2Proof/Machine/MemRows.lean ====
section
/-! DEFINITION. The commands of memory and the scale table: translation updates (06_memory_system.md R163, R164),
interleave classes (R165; 17 R502), patrol scrub and row remaps (R172, R176, R181), and SCT writes
(07_stack_engines.md R200; 17 R503). -/

namespace Sys2Proof.Machine

/-! ### Translation updates (06 R163, R164; 17 R501, R504) -/

/-- TT_GO: the update starts with the values that stand; one that meets an update in progress is ignored and
recorded. -/
def ttStart (s : State) (h : Nat) : State :=
  match hpPart s h with
  | none => s
  | some p =>
    if (part s p).tt.isSome then writeIgnored s h 0x0800010 1 4
    else
      let e := regW s (.part p) 0x0800008 + 2 ^ 32 * regW s (.part p) 0x080000C
      let u : TtUpdate := { vpn := regF s (.part p) 0x0800000 0 28, count := regF s (.part p) 0x0800004 0 22, entry := BitVec.ofNat 64 e }
      updPart s p (fun x => { x with tt := some u })

/-- The entries of an update, in order (R163). -/
def ttEntries (u : TtUpdate) : List (BitVec 64) :=
  (List.range u.count).map (fun i => if tteValid u.entry then u.entry + BitVec.ofNat 64 i else u.entry)

/-- Listed entries of a partition's context, by virtual page. -/
def ttContext (s : State) (p : Nat) : List (Nat × BitVec 64) := mslice s.ms.tt (ctxBase s p) (ctxSize s p)

/-- PERSISTENT, MIRRORED or JOURNALED. -/
def ttKept (e : BitVec 64) : Bool := ttePersist e || tteMirror e || tteJournal e

/-- Regions that an update's pages lie in. -/
def ttRegions (u : TtUpdate) : List Nat :=
  let a := ttePpn u.entry
  upto (a / 2048) ((a + u.count - 1) / 2048 - a / 2048 + 1)

/-- The status that R164 gives a whole update. -/
def ttJudge (s : State) (p : Nat) (u : TtUpdate) : St :=
  let v := tteValid u.entry
  let a := ttePpn u.entry
  let ctx := ttContext s p
  let inside (n : Nat) : Bool := decide (u.vpn ≤ n) && decide (n < u.vpn + u.count)
  if u.count = 0 || fieldOf u.entry 33 31 != 0 then .badDesc
  else if v && decide (2260991 < a + u.count - 1) then .badDesc
  else if v && (ttRegions u).any (fun r => regionRanged s r != tteRanged u.entry) then .badDesc
  else if v && s.ms.tt.any (fun c => !(decide (ctxBase s p + u.vpn ≤ c.1) && decide (c.1 < ctxBase s p + u.vpn + u.count)) &&
      tteValid c.2 && decide (a ≤ ttePpn c.2) && decide (ttePpn c.2 < a + u.count) && (ttKept c.2 || ttKept u.entry)) then .badDesc
  else if stepActive s p && (tteMirror u.entry || tteJournal u.entry ||
      ctx.any (fun c => inside c.1 && (tteMirror c.2 || tteJournal c.2))) then .badDesc
  else if ctxSize s p < u.vpn + u.count then .outOfScope
  else if v && (tteOwner u.entry != p || (ttRegions u).any (fun r => regionPart s r != p)) then .outOfScope
  else if s.faults.oos || (proof s p).slice == 9 then .fenced
  else .done

/-- TT_UPDATE_DONE: the update in progress is checked as a whole and its entries change at once. -/
def ttFinish (s : State) (p : Nat) : State :=
  match (part s p).tt with
  | none => s
  | some u =>
    let st := ttJudge s p u
    let s := updPart s p (fun x => { x with tt := none, ttStatus := st.code })
    if st = .done then
      -- A page whose copy is pending is copied before its mapping changes (12 R372).
      let s := ((ttContext s p).filter (fun c => decide (u.vpn ≤ c.1) && decide (c.1 < u.vpn + u.count) && tteValid c.2)).foldl
        (fun s c => cowHook s (ttePpn c.2)) s
      updMs s (fun m => { m with tt := mreplace m.tt (ctxBase s p + u.vpn) u.count (mofList 0 0 (ttEntries u)) })
    else s

/-- TT_GO. -/
def execTtGo (hp : HostId) (s : State) : Ans := done s (hostWrite s hp 0x0800010 1 (fun s => ttStart s hp))

/-- TT_UPDATE_DONE. -/
def execTtUpdateDone (p : PartId) (s : State) : Ans := done s (ttFinish s p)

/-! ### Interleave classes (06 R165, 17 R502) -/

/-- The regions of a region's stripe in a partition. -/
def stripeOf (s : State) (p r : Nat) : List Nat := (partStacks s p).map (fun k => 92 * k + r % 92)

/-- One class request of a REGION_CLASS write. -/
def classRequest (s : State) (h p r : Nat) (ranged : Bool) (off v : Nat) : State :=
  if regionRanged s r = ranged then s
  else if regionPart s r ≠ p then writeIgnored s h off v 1
  else
    let rs := stripeOf s p r
    if s.ms.tt.any (fun c => tteValid c.2 && rs.contains (ttePpn c.2 / 2048)) then writeIgnored s h off v 0
    else updMs s (fun m => { m with regionClass := rs.foldl (fun t r => mset t 0 r (b2n ranged)) m.regionClass })

/-- A write of REGION_CLASS[w]: a request for each bit that differs, in ascending region number. -/
def writeRegionClass (s : State) (h w v : Nat) : State :=
  match hpPart s h with
  | none => s
  | some p =>
    (((List.range 32).map (fun b => 32 * w + b)).filter (fun r => decide (r < 1104))).foldl (fun s r =>
      classRequest s h p r (v.testBit (r % 32)) (0x0800100 + 4 * w) v) s

/-- REGION_CLASS. -/
def execRegionClass (hp : HostId) (w : Fin 35) (v : Word) (s : State) : Ans :=
  done s (hostWrite s hp (0x0800100 + 4 * w) v.toNat (fun s => writeRegionClass s hp w v.toNat))

/-! ### The scale table's set-up registers (07 R200, 17 R503) -/

/-- A write of SCT_IDX: SCT_DATA takes the entry. -/
def sctSelect (s : State) (h v : Nat) : State :=
  match hpPart s h with
  | none => s
  | some p =>
    let s := setReg s (.part p) 0x0800240 (v % 2 ^ 16)
    updPart s p (fun x => { x with sctData := scaleE s (scaleIndex s p (v % 2 ^ 16)) })

/-- Whether a word is a positive normal power of two in FP32. -/
def isPow2 (w : BitVec 32) : Bool := w &&& 0x807FFFFF == 0 && fieldOf w 23 8 != 0 && fieldOf w 23 8 != 255

/-- SCT_WR (R503). -/
def sctWrite (s : State) (h : Nat) : State :=
  match hpPart s h with
  | none => s
  | some p =>
    let cur := BitVec.ofNat 32 (regW s (.part p) 0x0800244)
    let w := regW s (.part p) 0x0800248
    let fmt := natFld w 0 4
    let margin := sext 8 (natFld w 8 8)
    let i := scaleIndex s p (regF s (.part p) 0x0800240 0 16)
    if stepActive s p then writeIgnored (updPart s p (fun x => { x with sctStatus := 1 })) h 0x080024C 1 0
    else if fmt < 1 ∨ 4 < fmt ∨ margin < -16 ∨ 15 < margin ∨ !isPow2 cur then updPart s p (fun x => { x with sctStatus := 2 })
    else
      let e := { scaleE s i with cur := cur, fmt := fmt, margin := margin, frozen := natFld w 16 1 == 1 }
      let e := if natFld w 17 1 = 1 then { e with hist := [], hpos := 0, histInf := false, histNan := false, baseStep := 0 } else e
      updPart (setScaleE s i e) p (fun x => { x with sctStatus := 0, sctData := e })

/-- SCT_IDX. -/
def execSctIdx (hp : HostId) (v : Word) (s : State) : Ans :=
  done s (hostWrite s hp 0x0800240 v.toNat (fun s => sctSelect s hp v.toNat))

/-- SCT_WR. -/
def execSctWr (hp : HostId) (s : State) : Ans := done s (hostWrite s hp 0x080024C 1 (fun s => sctWrite s hp))

/-! ### Patrol scrub and row remaps (06 R172, R176, R181) -/

/-- A line that exists in a place: its physical address lies below the end of memory and in the pseudo-channels that
the test picks (06 R154, R155). -/
def lineOk (s : State) (line : Nat) (here : Nat → Bool) : Bool := decide (line < ppnCount * 2048) && here (channelOf s (256 * line))

/-- One granule of a scrubbed line (R172): what it meets anyway, or the outcome seen. -/
def scrubGranule (s : State) (g : Nat) (o : EccOutcome) : State := readGranule (touchGranule s g) g o

/-- PATROL_SCRUB: the four granules of a line in a stack are read with the outcomes seen; poison is never consumed. A
stack in self-refresh takes no traffic (R183). -/
def execPatrolScrub (k : StackId) (line : Nat) (seen : List EccOutcome) (s : State) : Ans :=
  if lineOk s line (fun i => i / 32 == k) then
    done s (if (stack s k).selfRefresh then s
      else (seen.zipIdx.filter (fun o => decide (o.2 < 4))).foldl (fun s o => scrubGranule s (4 * line + o.2) o.1) s)
  else .fault .noSuchLine

/-- ROW_REMAP: a permanent fault in the row that holds a line of a pseudo-channel. -/
def execRowRemap (ch : ChannelId) (line : Nat) (s : State) : Ans :=
  if lineOk s line (fun i => i == ch.val) then done s (remapRow s ch (256 * line) false) else .fault .noSuchLine

end Sys2Proof.Machine
end

