-- ==== Sys2Proof/Machine/Resets.lean ====
section
/-! DEFINITION. Crash dumps (13_faults_and_resets.md R407 to R413), reset domains (R398, R399), OUT_OF_SERVICE (R405,
R406) and what a device-cold reset keeps (R401; 15 R451, R452; 18 R509, R511). -/

namespace Sys2Proof.Machine

/-! ### Crash dumps -/

/-- Every unit, in ascending unit code (R407). -/
def allUnits : List Nat :=
  upto (ucCore 0) 128 ++ upto (ucGalley 0) 16 ++ upto (ucChannel 0) 384 ++ upto (ucStack 0) 12 ++ upto (ucEngine 0) 12 ++
  upto (ucPort 0) 32 ++ upto (ucXport 0) 4 ++ upto (ucHost 0) 4 ++ upto (ucDie 0) 6 ++ upto (ucSpeush 0) 2

/-- A dump asked for (R409): taken, added to the causes of the one in progress, or counted where the region holds one.
`p` is 7 for a device-level cause. -/
def takeDump (s : State) (unit trigger reason p : Nat) : State :=
  let d := s.faults.dump
  let now := uptimeNs s
  match d.state with
  | 1 =>
    updFaults s (fun f => { f with dump := { d with
      causes := (d.causes ++ [(unit, trigger, reason, (now - d.uptime) / 1000)]).take 8, parts := sins d.parts p } })
  | 2 => updFaults s (fun f => { f with dump := { d with skipped := min (d.skipped + 1) 65535 } })
  | _ =>
    updFaults s (fun f => { f with dump := { d with
      state := 1, causes := [(unit, trigger, reason, 0)], uptime := now, parts := [p], unreadable := [], resetUnits := []
      flashTrunc := false
      step := if p = 7 then 0 else (proof s p).openStep.getD 0
      gen := if p = 7 then 0 else genOf s p, seq := (d.seq + 1) % 2 ^ 32 } })

/-- First byte of the dump region (R408). -/
def dumpBase (s : State) : Nat := regF s .dev 0x00C0880 0 11 * 2 ^ 30

/-- Bytes of the dump region. -/
def dumpSize (s : State) : Nat := regF s .dev 0x00C0880 12 2 * 2 ^ 30

/-- Whether a dump reads a unit (R409). -/
def dumpSelects (s : State) (u : Nat) : Bool :=
  let d := s.faults.dump
  d.parts.contains 7 || unitPart s u == 7 || d.parts.contains (unitPart s u)

/-- Whether a unit is a cause of the dump. -/
def dumpCause (s : State) (u : Nat) : Bool := s.faults.dump.causes.any (fun c => c.1 == u)

/-- The scratchpad and program memory that follow a core's record (R412). -/
def dumpScratch (s : State) (u : Nat) : Bytes :=
  let m := regF s .dev 0x00C0880 16 2
  if u / 4096 = 1 ∧ (m = 2 ∨ (m = 1 ∧ dumpCause s u)) then
    let k := core s (u % 4096)
    rdBytes k.spad 0 spadSize ++ (List.range 65536).flatMap (fun w => leBytes 4 (mget k.pm 0 w).toNat)
  else []

/-- A unit's record: R412 lists its contents without a layout, so that its bytes are free values (log 8). -/
def dumpRecord (s : State) (key u : Nat) : Bytes :=
  let k := 65536 * key + u
  (upto 0 (Config.dumpLength k).toNat).map (fun o => Config.dumpByte (2 ^ 32 * k + o)) ++ dumpScratch s u

/-- An entry of the unit index, and the record it points to. -/
structure DumpEntry where
  /-- Unit code. -/
  unit : Nat
  /-- Status: 0 READ, 1 UNREADABLE, 2 SKIPPED. -/
  status : Nat
  /-- Reason. -/
  reason : Nat
  /-- Offset of the record. -/
  off : Nat
  /-- The record. -/
  bytes : Bytes
  deriving DecidableEq, Repr, Inhabited

/-- The 32 bytes of an index entry (R411). -/
def DumpEntry.toBytes (e : DumpEntry) : Bytes :=
  leBytes 2 e.unit ++ leBytes 1 e.status ++ leBytes 1 e.reason ++ zeros 4 ++ leBytes 8 e.off ++ leBytes 8 e.bytes.length ++
  leBytes 8 (if e.status = 0 then crc64 e.bytes else 0)

/-- The units read in order, causing units first (R410); each record goes to the next multiple of 64 (R411). The end of
the records, and their entries. -/
def dumpEntries (s : State) (key : Nat) (silent : List Nat) : Nat × List DumpEntry :=
  ((allUnits.filter (dumpCause s)) ++ allUnits.filter (fun u => !dumpCause s u)).foldl (fun (a : Nat × List DumpEntry) u =>
    let o := up64 a.1
    let bs := dumpRecord s key u
    if !dumpSelects s u then (a.1, a.2 ++ [⟨u, 2, 0, 0, []⟩])
    else if unitRetired s u then (a.1, a.2 ++ [⟨u, 1, 2, 0, []⟩])
    else if silent.contains u then (a.1, a.2 ++ [⟨u, 1, if s.faults.dump.resetUnits.contains u then 5 else 1, 0, []⟩])
    else if o + bs.length ≤ dumpSize s then (o + bs.length, a.2 ++ [⟨u, 0, 0, o, bs⟩])
    else (a.1, a.2 ++ [⟨u, 1, 4, 0, []⟩])) (0x10000, [])

/-- The 256 bytes of a dump's header (R411). -/
def dumpHeader (d : Dump) (trunc : Bool) : Bytes :=
  let causes := d.causes.flatMap (fun c => leBytes 2 c.1 ++ leBytes 1 c.2.1 ++ leBytes 1 c.2.2.1 ++ leBytes 4 c.2.2.2)
  let b := leBytes 2 0x444D ++ leBytes 1 1 ++ leBytes 1 (1 + 2 * b2n trunc + 4 * b2n d.flashTrunc) ++ leBytes 4 d.seq ++
    leBytes 8 d.uptime ++ leBytes 6 d.step ++ leBytes 3 d.gen ++ leBytes 1 d.causes.length ++ leBytes 2 allUnits.length ++
    zeros 4 ++ sub causes 0 64 ++ leBytes 8 d.length ++ zeros 144
  b ++ leBytes 8 (crc64 b)

/-- DUMP_DONE: the dump is written to its region, or its header and index to the flash store where there is none
(R408, R413). -/
def dumpDone (s : State) (silent : List Nat) : State :=
  if s.faults.dump.state = 1 then
    let (k, s) := fresh s
    let (end_, es) := dumpEntries s k silent
    let es := sortBy (·.unit) es
    let trunc := es.any (fun e => e.reason == 4)
    let n := (es.filter (fun e => e.status == 1)).length
    let here := dumpSize s != 0
    let d := { s.faults.dump with
      state := 2, length := if here then end_ else 0x8100, unreadable := (es.filter (fun e => e.status == 1)).map (·.unit) }
    let idx := es.flatMap DumpEntry.toBytes
    let head := dumpHeader d trunc ++ sub idx 0 0x8000
    let s :=
      if here then
        es.foldl (fun s e => if e.status = 0 then pwrite s (dumpBase s + e.off) (.clean e.bytes) else s)
          (pwrite s (dumpBase s) (.clean (head ++ zeros (0x10000 - 0x8100))))
      else s
    let s := updFaults s (fun f => { f with dump := if here then d else { d with store := head } })
    let p := match d.parts with
      | [p] => p
      | _ => 7
    let s := record s p (ucSpeush 0) 0 0x0057
      (leBytes 4 d.seq ++ leBytes 1 (match d.causes with
        | c :: _ => c.2.1
        | [] => 0) ++ leBytes 2 n)
    stickyDev s 3
  else s

/-- Bytes of the flash dump store (15 R451). -/
def storeSize : Nat := 24 * 2 ^ 20

/-- DUMP_FLASH_COPY (R413): the whole dump, or what fits with FLASH_TRUNC set in its header. -/
def flashCopy (s : State) : State :=
  let d := s.faults.dump
  if d.state = 2 then
    if dumpSize s = 0 then updFaults s (fun f => { f with dump := { d with state := 3 } })
    else
      let bs := rdBytes s.ms.mem (dumpBase s) (min d.length storeSize)
      if d.length ≤ storeSize then updFaults s (fun f => { f with dump := { d with state := 3, store := bs } })
      else
        let trunc := natFld (leAt bs 3 1) 1 1 == 1
        let d := { d with flashTrunc := true }
        let h := dumpHeader d trunc
        pwrite (updFaults s (fun f => { f with dump := { d with store := h ++ bs.drop 256 } })) (dumpBase s) (.clean h)
  else s

/-- The region freed (R413). -/
def releaseDump (s : State) : State :=
  updFaults s (fun f => { f with dump := if f.dump.state = 2 ∨ f.dump.state = 3 then { f.dump with state := 0 } else f.dump })

/-! ### Reset domains (R398, R399) -/

/-- A physical core reset as a domain of its own: WATCHDOG against an active step, then the reset. -/
def coreDomain (s : State) (c cause : Nat) : State :=
  resetCore (resetNegative s (coreOwner s c) (ucCore c) (stallBarks s c cause)) c cause true

/-- A stack reset. Its contents stay through self-refresh; engine work is whole in this model (log 21), so none is left
to complete with FENCED. -/
def resetStack (s : State) (k cause : Nat) : State :=
  let s := dumpMeetsReset s ([ucStack k, ucEngine k] ++ (List.range 32).map (fun i => ucChannel (32 * k + i)))
  charge (recordReset s (stackPart s k) (ucStack k) 3 cause) (ucEngine k) 128

/-- A stack reset as a domain of its own. -/
def stackDomain (s : State) (k cause : Nat) : State :=
  resetStack (resetNegative s (stackPart s k) (ucStack k) false) k cause

/-- A galley reset: one core reset for each of its cores, recorded as the galley's (R404; 16 R472). -/
def galleyDomain (s : State) (g cause : Nat) : State :=
  let p := corePart s (8 * g)
  let s := recordReset (resetNegative (dumpMeetsReset s [ucGalley g]) p (ucGalley g) false) p (ucGalley g) 2 cause
  (upto (8 * g) 8).foldl (fun s c => resetCore s c cause false) s

/-- A transport-engine reset: no RMA or collective in progress; what waited for one completes with FENCED. -/
def xportDomain (s : State) (p cause : Nat) : State :=
  let s := recordReset (resetNegative (dumpMeetsReset s [ucXport p]) p (ucXport p) false) p (ucXport p) 5 cause
  let s := updXport s p (fun x => { x with rmas := [], colls := [], early := [], needReset := false })
  ((hport s (partHp s p)).flights.filter (fun f => match f.waits with
    | .coll _ => true
    | .rma _ => true
    | _ => false)).foldl (fun s f => finishFlight s (partHp s p) f .fenced 0) s

/-- A unit reset in its own domain (R403). -/
def resetUnit (s : State) (u cause : Nat) : State :=
  let n := u % 4096
  match u / 4096 with
  | 1 => coreDomain s n cause
  | 2 => galleyDomain s n cause
  | 3 => stackDomain s (n / 32) cause
  | 4 => stackDomain s n cause
  | 5 => stackDomain s n cause
  | 6 => resetJilan s n cause
  | 7 => xportDomain s n cause
  | 8 => resetHostPort s n cause
  | _ => s

/-! ### Partition reset -/

/-- ACC written to flash before a reset that Speush foresees (R397). -/
def saveAcc (s : State) : State := if speushUp s && !s.pins.pwrfail then updFaults s (fun f => { f with saved := f.acc }) else s

/-- The STOP that precedes a reset (11 R349), and WATCHDOG against a step that no negative event has met. -/
def stopForReset (s : State) (p : Nat) : State :=
  let u := ucHost (partHp s p)
  let s := if (proof s p).slice = 0 ∨ (proof s p).slice = 9 then s else handleRaised s ⟨p, 0x20, none, u, [ownStrike s p false 0x20], false⟩
  handleAll (resetNegative s p u false)

/-- The cores of a partition after its reset; its freezes end (15 R467). -/
def clearCores (s : State) (p : Nat) : State :=
  let ls := upto (p * lcores s) (lcores s)
  let s := ls.foldl (fun s l => stopProgram s (physOf s l)) s
  let s := { s with launches := s.launches.filter (fun l => l.part != p), frozenCores := s.frozenCores.filter (fun l => !ls.contains l) }
  ((List.range 128).filter (fun c => coreOwner s c == p)).foldl (fun s c =>
    updUnits (updCore s c (fun k => coreCleared k (mget s.pulses 0 (c / 8)))) c unitsCleared) s

/-- The queues of a partition after its reset: reset as R234, their freezes ended, nothing started left. -/
def clearQueues (s : State) (p : Nat) : State :=
  let h := partHp s p
  let s := updHp s h (fun x => { x with flights := [], queues := mmapIf x.queues {} (fun _ => true) (fun q => { q with state := 0 }) })
  resetPortRegs ((List.range 64).foldl (fun s q => resetQueue s h q) s) h

/-- What the step and proof state of a partition keeps: its settings, counters and the health strikes of the hour. -/
def proofCleared (x : Proof) : Proof :=
  { w := x.w, wNext := x.wNext, sampleK := x.sampleK, observe := x.observe, lastReason := x.lastReason, sampled := x.sampled
    sampleSkipped := x.sampleSkipped, sampleMismatch := x.sampleMismatch, stopsSent := x.stopsSent, stopsAccepted := x.stopsAccepted
    restarts := x.restarts, strikeTimes := x.strikeTimes, healthUnits := x.healthUnits }

/-- What the transport engine keeps: its imposition, epoch and counters. -/
def xportCleared (x : Xport) : Xport :=
  { x with planesSent := false, peers := [], active := 0, dropsSeen := [], held := [], collCount := [], colls := [], early := []
           rmas := [], needReset := false, readyCount := [] }

/-- What the mirror keeps: the shadow, the count of window pages, and what the environment says of the facing rank. -/
def mirrorCleared (x : Mirror) : Mirror :=
  { shadow := x.shadow, held := x.held, farPages := x.farPages, farGpages := x.farGpages, farOrdinals := x.farOrdinals }

/-- A snapshot slot at start-up (12 R368, R376): one that was not committed is lost, and its SEQ with it, and so is one whose
commit record or portion headers do not verify. -/
def slotCleared (x : Slot) : Slot := if x.state = 3 ∧ !x.spoiled.contains 0 then x else { x with state := 0, seq := 0 }

/-- A partition's own state after its reset (R398; 18 R520, R521). -/
def clearPart (x : Part) : Part :=
  { x with
    pstate := if x.pstate = 5 ∨ x.pstate = 0 then x.pstate else 1, barFail := if x.pstate = 3 then 4 else x.barFail, ec := []
    proof := proofCleared x.proof, xport := xportCleared x.xport, mirror := mirrorCleared x.mirror
    snap := { x.snap with a := slotCleared x.snap.a, b := slotCleared x.snap.b, held := none, drains := [], restoring := none }
    tt := none, ttStatus := 0, opReq := 7, opCap := 7, phased := false, grantHold := false, leftPoison := [], again := [] }

/-- A partition's domains reset, without STOP, dump or record. -/
def clearDomain (s : State) (p : Nat) : State :=
  let s := dumpMeetsReset s (allUnits.filter (fun u => unitPart s u == p))
  let s := clearQueues (clearCores s p) p
  let s := (partPorts s p).foldl relink s
  updPart s p clearPart

/-- A partition reset (R398): STOP, dump, reset. -/
def resetPart (s : State) (p src cause trigger : Nat) : State :=
  let s := takeDump (stopForReset (saveAcc s) p) (ucHost (partHp s p)) trigger 0x20 p
  recordReset (clearDomain s p) p src 7 cause

/-! ### Device-level recoveries (R405, R406) -/

/-- FAULT_N at the level of 18 R525: high while none of its conditions holds. -/
def driveFault (s : State) : State :=
  { s with pins := { s.pins with faultN := !(s.faults.oos || s.mgmt.bothDown || s.pins.stage == .recovery || s.pins.stage == .stopped) } }

/-- Recoveries of the last 3,600 s. -/
def recoveries (s : State) : List Nat := s.faults.recov.filter (fun t => decide (nowAll s < t + 3600000000000))

/-- A device-level recovery counted. -/
def countRecovery (s : State) : State := updFaults s (fun f => { f with recov := recoveries s ++ [nowAll s] })

/-- Every partition BLOCKED and every Jilan port DISABLED while OUT_OF_SERVICE (R405; 18 R521). -/
def blockAll (s : State) : State :=
  let s := (List.range 32).foldl (fun s j => if (port s j).state = 9 then s else toDisabled s j) s
  (List.range (nparts s)).foldl (fun s p => updPart s p (fun x => { x with pstate := 5 })) s

/-- OUT_OF_SERVICE decided (R405): on the fourth recovery within 3,600 s. It stays across resets until re-admission. -/
def decideOos (s : State) : State :=
  let n := (recoveries s).length
  let s := if 4 ≤ n ∧ !s.faults.oos then
      stickyDev (record (updFaults s (fun f => { f with oos := true })) 7 (ucSpeush 0) 0 0x0056 (leBytes 1 n)) 4
    else s
  driveFault (if s.faults.oos then blockAll s else s)

/-- Re-admission (R406; 18 R521). A partition that R511 blocks stays BLOCKED. -/
def readmitDevice (s : State) : State :=
  let was := s.faults.oos
  let s := updFaults s (fun f => { f with recov := [], oos := false })
  let s := if was then
      (List.range (nparts s)).foldl (fun s p =>
        updPart s p (fun x => { x with pstate := if x.pstate = 5 ∧ !x.modeBlocked then 1 else x.pstate })) s
    else s
  driveFault s

/-- A device-warm reset (R398): every partition; host-port freezes end (15 R467). -/
def resetWarm (s : State) (src cause trigger : Nat) (planned : Bool) : State :=
  let ps := List.range (nparts s)
  let s := takeDump (ps.foldl stopForReset (saveAcc s)) src trigger 0x20 7
  let s := ps.foldl clearDomain s
  let s := ((List.range 32).filter (fun j => (portPart s j).isNone)).foldl relink s
  let s := { s with hps := mmapIf s.hps {} (fun _ => true) (fun x => { x with frozen := false }) }
  let s := recordReset s 7 src 8 cause
  if planned then s else decideOos (countRecovery s)

/-! ### Device-cold reset (R398, R401) -/

/-- Register words kept in flash: HS_DECAY, DUMP_BASE and DUMP_REGIONS, MGMT_ETYPE, MGMT_VLAN, MGMT_DST and MGMT_KEY (R415;
15 R452, R468). -/
def flashRegs (s : State) : Map Nat :=
  let keep := [0x00C0800, 0x0010C40, 0x0010C44, 0x0010C48] ++ (List.range 8).map (fun i => 0x0010C50 + 4 * i)
  let m := keep.foldl (fun m o => mset m (regReset 1 o) o (regW s .dev o)) []
  mset m 65536 0x00C0880 (natFld (regW s .dev 0x00C0880) 0 14 + 65536)

/-- The recorder with every pending record flushed and any freeze ended, its GAP record first (16 R474, R477). -/
def endFreeze (s : State) : State :=
  if s.evr.frozen then
    let x := s.evr
    let s := updEvr s (fun x => { x with frozen := false, frozenCnt := 0, frozenSev := 0 })
    if x.frozenCnt = 0 then s
    else record s 7 (ucSpeush 0) 0 0x00F0 (leBytes 4 x.frozenCnt ++ leBytes 1 x.frozenSev ++ leBytes 4 ((uptimeNs s - x.frozenAt) / 1000000))
  else s

/-- The lanes and state of a port that flash keeps (09 R290): retired lanes, and RETIRED. -/
def portKept (x : Port) : Port :=
  { retired := x.retired, state := if x.state = 9 then 9 else 0
    lanes := (bitsSet x.retired.toNat 8).map (fun m => (m, { lstate := 2 })) }

/-- A dump after a device-cold reset: the registers describe no dump after a power-up (R401; 17 R483; 18 R509), but the
flash store stays. -/
def dumpCold (d : Dump) (powerUp : Bool) : Dump :=
  if powerUp then { seq := d.seq, store := d.store, flashTrunc := d.flashTrunc } else { d with skipped := 0, resetUnits := [] }

/-- What flash and the fuses keep, and the environment with it: the state after a device-cold reset. The dump region stays
but at a power-up (R401; 18 R509). DESIGN CHOICE: the whole CORE_MAP stays, entries that software has written among them
(log 88): 01 R25 has the map held before the reset observed and reapplies only retirements and substitutions from flash. -/
def resetCold (s : State) (powerUp : Bool) : State :=
  let keepMem := if powerUp then [] else s.ms.mem.filter (fun c => decide (dumpBase s ≤ c.1) && decide (c.1 < dumpBase s + dumpSize s))
  { pmode := s.pmode
    pins := { smbAddr := s.pins.smbAddr, powerUp := powerUp }
    fuses := s.fuses
    regs := flashRegs s
    units := mmapIf s.units {} (fun _ => true) (fun u => { resets := u.resets })
    coreMap := s.coreMap, retiredCores := s.retiredCores
    ms := {
      mem := keepMem, channelTable := s.ms.channelTable, stackTab := mmapIf s.ms.stackTab {} (fun _ => true) (fun k => { map := k.map })
      channels := mmapIf s.ms.channels {} (fun _ => true) (fun c => { c with inject := false }), meets := s.ms.meets }
    ports := mmapIf s.ports {} (fun _ => true) portKept
    faults := {
      acc := s.faults.saved, saved := s.faults.saved, rest := s.faults.rest, subst := s.faults.subst, base := nowAll s, recov := s.faults.recov, oos := s.faults.oos
      dump := dumpCold s.faults.dump powerUp }
    mgmt := { fw := s.mgmt.fw, ctr := s.mgmt.ctr, recordedMode := s.mgmt.recordedMode
              pmodeNext := s.mgmt.pmodeNext, ownerNext := s.mgmt.ownerNext, bootPref := s.mgmt.bootPref }
    evr := { flash := s.evr.flash, seqNext := s.evr.seqNext, dropped := s.evr.dropped, clearing := s.evr.clearing }
    errors := s.errors, hostMem := s.hostMem, hostFail := s.hostFail, out := s.out, freeCtr := s.freeCtr, pending := s.pending }

/-- A device-cold reset asked for by a register write, by Speush or by a command (18 R512): STOPs, a dump, the flush,
the record, the reset. -/
def askCold (s : State) (src cause trigger : Nat) (planned : Bool) : State :=
  let s := takeDump ((List.range (nparts s)).foldl stopForReset s) src trigger 0x20 7
  let s := recordReset (endFreeze s) 7 src 9 cause
  let s := flushEvents (if planned then s else countRecovery s)
  resetCold (saveAcc s) false

end Sys2Proof.Machine
end

