-- ==== Sys2Proof/Machine/FaultRows.lean ====
section
/-! DEFINITION. The events of faults and health (13_faults_and_resets.md): watchdogs, escalation, missed safe points, the
health tick and field tests; with them core substitution (01_organisation.md R27) and stack temperatures
(06_memory_system.md R182, R183). -/

namespace Sys2Proof.Machine

/-! ### Substitution and stack temperatures -/

/-- CORE_SUBSTITUTION: at a step boundary a health-driven substitution takes effect (01 R27). -/
def substituteCore (s : State) (l : Nat) : State :=
  match s.faults.subst.find? (fun x => x.1 == l && !x.2.2) with
  | some (_, c, _) => if !running s c ∧ (proof s (lcorePart s l)).openStep.isNone then substitute s l c false else s
  | none => s

/-- CORE_SUBSTITUTION. -/
def execCoreSubstitution (l : LogicalId) (s : State) : Ans := done s (substituteCore s l)

/-- A of 06 R182, in 0.25 °C with T2 380 and T3 400; none from T3. -/
def admission (t1 t : Nat) : Nat :=
  if t < t1 then 64 else if t < 380 then 64 - 48 * (t - t1) / (380 - t1) else if t < 400 then 16 else 0

/-- T3 (06 R183): recorded, STICKY, self-refresh, THERMAL, and the stack's reset. -/
def stackHot (s : State) (k t : Nat) : State :=
  let p := stackPart s k
  let s := stickyDev (record s p (ucStack k) 0 0x0060 (leBytes 1 k ++ leBytes 2 t)) 5
  let s := raise (updStack s k (fun x => { x with selfRefresh := true })) p 0x1C none (ucStack k)
  resetStack s k 8

/-- STACK_TEMPERATURE. -/
def stackTemp (s : State) (k t : Nat) : State :=
  let a := admission (regF s .dev 0x0800504 0 9) t
  let was := (stack s k).selfRefresh
  let s := updStack s k (fun x => { x with temp := t, admitA := a })
  let s := if 0 < (64 - a) / 4 then stickyPower s 6 else s
  if 400 ≤ t ∧ !was then stackHot s k t else s

/-- STACK_TEMPERATURE. -/
def execStackTemperature (k : StackId) (temp : BitVec 12) (s : State) : Ans := done s (stackTemp s k temp.toNat)

/-! ### Hardware errors (R387, R394; log 85) -/

/-- A parity or residue error (R387, R394; 14 R418): PARITY in the partition of the unit, or of the data on a path that no
partition owns, with the charge of a core or a stack engine. -/
def parityError (s : State) (u q : Nat) : State :=
  let p := if unitPart s u < 4 then unitPart s u else q
  let step := if u / 4096 = 1 then coreStep (core s (u % 4096)) else none
  let s := if p < nparts s then raise s p 0x04 step u else s
  if u / 4096 = 1 then charge s u 64 else if u / 4096 = 5 then charge s u 192 else s

/-- The record of a slot's journal segment that no longer verifies (07 R210). -/
def spoilRecord (g : JournalSeg) (i : Nat) : JournalSeg :=
  { g with records := g.records.zipIdx.map (fun r => if r.2 = i then { r.1 with intact := false } else r.1) }

/-- What an error does where it strikes. -/
def applyError (s : State) (e : HwError) : State :=
  match e with
  | .parity u q => parityError s u q
  | .coreCorrected c a => charge (record s (coreOwner s c) (ucCore c) 0 0x0020 (leBytes 8 a)) (ucCore c) 1
  | .scratchBad c line => updCore s c (fun k => { k with spadPoison := if line < spadSize / 64 then sins k.spadPoison line else k.spadPoison })
  | .programBad c w => updCore s c (fun k => { k with pmBad := if w < 65536 then sins k.pmBad w else k.pmBad })
  | .channelPath i permanent => if permanent then failChannel s i else charge s (ucChannel i) 128
  | .journalBad p k n i => updPart s p (fun x => { x with
      journal := x.journal.map (fun g => if g.stack = k ∧ g.step = n then spoilRecord g i else g) })
  | .slotBad p i a => updSlotN s p i (fun x => { x with spoiled := sins x.spoiled a })
  | .notFlit h => updHp s h (fun x => if x.linkUp then x else { x with noFlit := true })

/-- The error that is next, where there is one. -/
def takeError (s : State) : State :=
  match s.errors with
  | [] => s
  | e :: r => applyError { s with errors := r } e

/-! ### Watchdogs (R402) -/

/-- A watchdog's firing: its record with the period in µs, and a dump (R409). -/
def barked (s : State) (u code period : Nat) : State :=
  let p := unitPart s u
  let inj := code == 1 && stallBarks s (u - ucCore 0) 1
  takeDump (recordE s p u 0 0x0050 (leBytes 1 code ++ leBytes 4 period) inj) u 1 0x07 p

/-- CSQ_WATCHDOG: a core that runs a program is reset. -/
def csqBark (s : State) (c : Nat) : State :=
  if running s c then coreDomain (barked s (ucCore c) 1 (regF s .dev 0x00C080C 0 16 * 1000)) c 1 else s

/-- CSQ_WATCHDOG. -/
def execCsqWatchdog (c : CoreId) (s : State) : Ans := done s (csqBark s c)

/-- Whether a unit's queue has a head: MA0, MA1, SF, MV. -/
def hasHead (s : State) (c unit : Nat) : Bool :=
  let u := unitsOf s c
  !(match unit with
    | 0 => u.ma0.queue
    | 1 => u.ma1.queue
    | 2 => u.sf
    | _ => u.mv).isEmpty

/-- TILE_WATCHDOG: the core of a queue whose head does not complete is reset. -/
def tileBark (s : State) (c unit : Nat) : State :=
  if hasHead s c unit then coreDomain (barked s (ucCore c) 2 (regF s .dev 0x00C080C 16 16 * 1000)) c 1 else s

/-- TILE_WATCHDOG. -/
def execTileWatchdog (c : CoreId) (unit : Fin 4) (s : State) : Ans := done s (tileBark s c unit)

/-- HOST_QUEUE_WATCHDOG: the queue goes to STOPPED with STOPWHY 3, its WAITs and FENCEs complete with FENCED, and a
step-bound descriptor is a negative event. -/
def queueBark (s : State) (h q didx : Nat) : State :=
  match hpPart s h, (queueFlights s h q).find? (fun f => f.didx == didx) with
  | some p, some f =>
    if (proof s p).slice = 1 ∨ (proof s p).slice = 0 then
      let s := barked s (ucHost h) 3 (regF s (.hp h) 0x00C0810 0 12 * 1000000)
      let s := updQueue s h q (fun x => if x.state = 1 ∨ x.state = 2 then { x with state := 2, stopwhy := 3 } else x)
      let s := ((queueFlights s h q).filter (fun f => match f.waits with
        | .fence _ => true
        | .cond _ _ _ => true
        | _ => false)).foldl (fun s f => finishFlight s h f .fenced 0) s
      if f.step.isSome then raise s p 0x07 f.step (ucHost h) else s
    else s
  | _, _ => s

/-- HOST_QUEUE_WATCHDOG. -/
def execHostQueueWatchdog (hp : HostId) (q : QueueId) (didx : BitVec 16) (s : State) : Ans :=
  done s (queueBark s hp q didx.toNat)

/-- ENGINE_WATCHDOG: a stack reset. -/
def engineBark (s : State) (k : Nat) : State :=
  stackDomain (barked s (ucEngine k) 4 (regF s .dev 0x00C0814 0 14 * 1000)) k 1

/-- ENGINE_WATCHDOG. -/
def execEngineWatchdog (k : StackId) (s : State) : Ans := done s (engineBark s k)

/-- Whether one of the virtual channels has a flit waiting and no credit. -/
def starved (x : Port) (vcs : List Nat) : Bool :=
  vcs.any (fun v => x.link.txq.any (fun e => e.1 == v) && creditsOf x.link v == 0)

/-- A credit watchdog: a Jilan port reset. -/
def creditBark (s : State) (j code period : Nat) (vcs : List Nat) : State :=
  if starved (port s j) vcs then resetJilan (barked s (ucPort j) code period) j 1 else s

/-- CREDIT_HIGH_WATCHDOG. -/
def execCreditHighWatchdog (j : PortId) (s : State) : Ans :=
  done s (creditBark s j 5 (regF s .dev 0x00C081C 0 14) [0, 1])

/-- CREDIT_LOW_WATCHDOG. -/
def execCreditLowWatchdog (j : PortId) (s : State) : Ans :=
  done s (creditBark s j 6 (regF s .dev 0x00C081C 16 10 * 1000) [2, 3, 4, 5, 6, 7])

/-- TRANSPORT_WATCHDOG: a negative event; the engine is reset in the ensuing ROLLBACK. -/
def xportBark (s : State) (p : Nat) : State :=
  let x := xport s p
  if x.colls.isEmpty && x.rmas.isEmpty then s
  else
    let s := barked s (ucXport p) 7 (regF s .dev 0x00C0818 0 14 * 1000)
    raise (updXport s p (fun x => { x with needReset := true })) p 0x07 none (ucXport p)

/-- TRANSPORT_WATCHDOG. -/
def execTransportWatchdog (p : PartId) (s : State) : Ans := done s (xportBark s p)

/-- GALLEY_ESCALATION: a core reset that does not end within 100 µs (R398). -/
def execGalleyEscalation (g : Fin 16) (s : State) : Ans := done s (galleyDomain s g 7)

/-- SAFE_POINT_MISSED: a unit of a partition that has accepted a STOP is reset in its own domain, after a dump (R403). -/
def safePointMissed (s : State) (p u : Nat) : State :=
  if inRound s p ∧ unitPart s u = p then resetUnit (takeDump s u 2 0x07 p) u 2 else s

/-- SAFE_POINT_MISSED. -/
def execSafePointMissed (p : PartId) (unit : BitVec 16) (s : State) : Ans := done s (safePointMissed s p unit.toNat)

/-! ### Health and field tests (R389 to R397) -/

/-- HEALTH_TICK: every ACC decays (R394); OBSERVE ends once the units that asked for the strike score below 256 (R354). -/
def healthTick (s : State) : State :=
  let s := updFaults s (fun f =>
    let a := mmapIf f.acc 0 (fun _ => true) (fun a => a - a / 32)
    { f with acc := a, saved := if speushUp s then a else f.saved })
  let s := { s with ports := mmapIf s.ports {} (fun _ => true) (fun x =>
    { x with lanes := mmapIf x.lanes {} (fun _ => true) (fun l => { l with recent := l.recent - l.recent / 32 }) }) }
  (List.range (nparts s)).foldl (fun s p =>
    updProof s p (fun x =>
      let us := x.healthUnits.filter (fun u => observed s u)
      { x with healthUnits := us, observe := x.observe && !us.isEmpty })) s

/-- HEALTH_TICK. -/
def execHealthTick (s : State) : Ans := done s (healthTick s)

/-- Unit of a place of the rotation: P0 to P127, then S0 to S11 (R389). -/
def rotationUnit (i : Nat) : Nat := if i < 128 then ucCore i else ucEngine (i - 128)

/-- Whether the rotation tests a unit: not retired, not under observation (R389, R390). -/
def inRotation (s : State) (u : Nat) : Bool := !unitRetired s u && !underObservation s u

/-- A unit waits for its test, unless it does already. -/
def testDue (s : State) (u : Nat) : State :=
  updFaults s (fun f => { f with
    due := if f.due.contains u || f.test.any (fun t => t.unit == u) then f.due else f.due ++ [u] })

/-- FIELD_TEST_SLOT: the next unit of the rotation is tested. -/
def testSlot (s : State) : State :=
  match ((upto s.faults.rotation 140).map (· % 140)).find? (fun i => inRotation s (rotationUnit i)) with
  | some i => testDue (updFaults s (fun f => { f with rotation := (i + 1) % 140 })) (rotationUnit i)
  | none => s

/-- FIELD_TEST_SLOT. -/
def execFieldTestSlot (s : State) : Ans := done s (testSlot s)

/-- OBSERVATION_TEST_DUE: a core or stack engine under observation falls due. -/
def observationDue (s : State) (u : Nat) : State :=
  let core := decide (ucCore 0 ≤ u) && decide (u < ucCore 128)
  let engine := decide (ucEngine 0 ≤ u) && decide (u < ucEngine 12)
  if (core || engine) && underObservation s u && !unitRetired s u then testDue s u else s

/-- OBSERVATION_TEST_DUE. -/
def execObservationTestDue (unit : BitVec 16) (s : State) : Ans := done s (observationDue s unit.toNat)

/-- Whether a unit is idle for a test (R391). Engine work is whole in this model, so that an engine is idle between
commands (log 21). -/
def testIdle (s : State) (u : Nat) : Bool :=
  let c := u % 4096
  u / 4096 != 1 || (!running s c && (List.range 4).all (fun i => !hasHead s c i))

/-- The test that a block of a unit belongs to: the one in progress, or the unit's own when it waits and no other test
runs. -/
def testFor (s : State) (u : Nat) : Option Test :=
  if s.pins.stage = .booting then none
  else match s.faults.test with
  | some t => if t.unit = u then some t else none
  | none =>
    -- RUN asks for a unit by name; of the units that fell due, the one longest overdue whose unit is idle comes first (R390).
    if s.faults.asked.contains u || (s.faults.due.find? (testIdle s)) == some u then some { unit := u, blocks := 0, worst := 0 } else none

/-- A test ends with an outcome: its report, and the RUN descriptors that wait for it (R393). -/
def endTest (s : State) (u outcome : Nat) : State :=
  let s := updFaults s (fun f => { f with
    test := none, due := f.due.filter (· != u), asked := f.asked.filter (· != u), last := (u, outcome, uptimeNs s) })
  (activeHps s).foldl (fun s h =>
    ((hport s h).flights.filter (fun f => f.waits == .test u)).foldl (fun s f => finishFlight s h f .done 0) s) s

/-- A failed block: recorded, counted and charged (R392, R394). -/
def testFailed (s : State) (u block outcome : Nat) : State :=
  let s := record s (unitPart s u) u 0 0x0054 (leBytes 1 block ++ leBytes 1 outcome)
  if outcome = 1 then charge (updFaults s (fun f => { f with transient := f.transient + 1 })) u 128
  else setAcc (updFaults s (fun f => { f with confirmed := f.confirmed + 1 })) u (2 ^ 20 - 1)

/-- The code of a block's outcome. -/
def outcomeCode : BlockOutcome → Nat
  | .match_ => 0
  | .transient => 1
  | .confirmed => 2

/-- A block of the boot self-test, which tests every core and stack engine at once (18 R510). -/
def bootBlock (s : State) (u : Nat) (o : BlockOutcome) : State :=
  let n := mget s.faults.bootTests 0 u
  let unit := decide (ucCore 0 ≤ u ∧ u < ucCore 128) || decide (ucEngine 0 ≤ u ∧ u < ucEngine 12)
  if !unit || decide (16 ≤ n) then s
  else
    let s := updFaults s (fun f => { f with bootTests := mset f.bootTests 0 u (n + 1), completed := f.completed + n / 15 })
    if outcomeCode o = 0 then s else testFailed s u n (outcomeCode o)

/-- FIELD_TEST_BLOCK: one of the 16 blocks of a unit's test ends while the unit is idle. -/
def testBlock (s : State) (u : Nat) (o : BlockOutcome) : State :=
  match testFor s u with
  | none => s
  | some t =>
    if !testIdle s u then s
    else
      let code := outcomeCode o
      let t : Test := { t with blocks := t.blocks + 1, worst := max t.worst code }
      let s := updFaults s (fun f => { f with test := some t })
      let s := if code = 0 then s else testFailed s u (t.blocks - 1) code
      if t.blocks < 16 then s else endTest (updFaults s (fun f => { f with completed := f.completed + 1 })) u t.worst

/-- FIELD_TEST_BLOCK. -/
def execFieldTestBlock (unit : BitVec 16) (outcome : BlockOutcome) (s : State) : Ans :=
  done s (if s.pins.stage = .booting then bootBlock s unit.toNat outcome else testBlock s unit.toNat outcome)

/-- TEST_STARVED: a test is abandoned (R391). -/
def testAbandoned (s : State) (u : Nat) : State :=
  if (testFor s u).isSome || s.faults.due.contains u || s.faults.asked.contains u then
    let t := s.faults.test
    let s := endTest (updFaults s (fun f => { f with starved := min (f.starved + 1) (2 ^ 32 - 1) })) u 3
    if t.any (fun x => x.unit != u) then updFaults s (fun f => { f with test := t }) else s
  else s

/-- TEST_STARVED. -/
def execTestStarved (unit : BitVec 16) (s : State) : Ans := done s (testAbandoned s unit.toNat)

end Sys2Proof.Machine
end

