-- ==== Sys2Proof/Machine/Boot.lean ====
section
/-! DEFINITION. Secure boot (15_management_security.md R453 to R456), the boot stages and the reset and power pins
(18_startup_and_lands.md R505 to R517), partition start and the start-up barrier (R518 to R522). -/

namespace Sys2Proof.Machine

/-! ### Secure boot -/

/-- SVN_MIN: the set bits of the thermometer (15 R453). -/
def svnMin (s : State) : Nat := (bitsSet s.fuses.svnMin.toNat 64).length

/-- KEYHASHi (15 R453; log 9). -/
def keyHash (s : State) (i : Nat) : BitVec 256 := mget s.fuses.keyhash (Config.keyHash i) i

/-- SVN of a slot (15 R454). -/
def slotSvn (s : State) (i : Nat) : Nat :=
  if slotIntact s i then (Config.factorySvn i).toNat else leAt (fwBytesAt s i 4 4) 0 4

/-- Whether every byte of a list is 0. -/
def allZero (bs : Bytes) : Bool := bs.all (· == 0)

/-- Check 1 of R455: MAGIC, VERSION, NCOMP and the reserved bytes. -/
def colophonOk (bs : Bytes) : Bool :=
  leAt bs 0 2 == 0x4C43 && leAt bs 2 1 == 1 && decide (1 ≤ leAt bs 11 1) && decide (leAt bs 11 1 ≤ 16) &&
  zeroRange bs 3 4 && zeroRange bs 12 16 && zeroRange bs 0x26 0x40 && zeroRange bs 0x5C4 0x600 &&
  (List.range (leAt bs 11 1)).all (fun i => let o := 0x40 + 64 * i; zeroRange bs (o + 2) (o + 4) && zeroRange bs (o + 16) (o + 32))

/-- Whether a component's bytes match its SHA-256. -/
def compOk (s : State) (slot : Nat) (bs : Bytes) (i : Nat) : Bool :=
  let o := 0x40 + 64 * i
  sha256 (fwBytesAt s slot (leAt bs (o + 4) 4) (leAt bs (o + 8) 4)) == (bs.drop (o + 32)).take 32

/-- The first check of R455 that a slot fails, 0 for none. A component that Speush finds wrong counts as check 5. A slot
as manufactured passes every check but that of its SVN (log 9). The modulus and the exponent are little-endian by R9, the
signature is the octet string of its standard (DEDUCED, log 37). -/
def slotCheck (s : State) (i : Nat) : Nat :=
  let min_ := svnMin s
  if slotIntact s i then (if min_ = 0 then 0 else if slotSvn s i < min_ then 4 else 0)
  else
    let bs := fwBytesAt s i 0 0x780
    let key := leAt bs 8 1
    let comps := List.range (leAt bs 11 1)
    if !colophonOk bs then 1
    else if 3 < key || s.fuses.keyrevoke.testBit key ||
        BitVec.ofNat 256 (beNat (sha256 ((bs.drop 0x440).take 388))) != keyHash s key then 2
    else if !pssVerify (leAt bs 0x440 384) (leAt bs 0x5C0 4) (bs.take 0x600) ((bs.drop 0x600).take 384) then 3
    else if leAt bs 4 4 < min_ then 4
    else if comps.all (fun c => leAt bs (0x40 + 64 * c) 2 != 1) || comps.any (fun c => !compOk s i bs c) then 5
    else 0

/-- BOOT_SLOT_FAIL. -/
def slotFailed (s : State) (i check : Nat) : State := record s 7 (ucSpeush 0) 0 0x0071 (leBytes 1 i ++ leBytes 1 check)

/-- The bytes of the components of some types of a slot, in slot order. -/
def componentBytes (s : State) (i : Nat) (types : List Nat) : Bytes :=
  let bs := fwBytesAt s i 0 0x780
  ((List.range (leAt bs 11 1)).filter (fun c => types.contains (leAt bs (0x40 + 64 * c) 2))).flatMap (fun c =>
    fwBytesAt s i (leAt bs (0x40 + 64 * c + 4) 4) (leAt bs (0x40 + 64 * c + 8) 4))

/-- Measurements 1 to 7 (15 R459). Those of the configuration copy and of the fuses and the debug state hash bytes whose
layout the manual does not give: free values under a fresh key (log 42). -/
def measurements (s : State) (k : Nat) : List Bytes :=
  let i := s.mgmt.slot
  let comp (n : Nat) (types : List Nat) : Bytes :=
    if slotIntact s i then beBytes 32 (Config.factoryMeasure i n).toNat else sha256 (componentBytes s i types)
  let open_ (n : Nat) : Bytes := (upto (32 * n) 32).map (fun o => Config.protocolByte (4096 * k + o))
  [beBytes 32 Config.romMeasure.toNat, colophonHash s, comp 3 [1], comp 4 [2], comp 5 [3, 4], open_ 0, open_ 1]

/-- Speush runs from a slot, with its measurements taken. -/
def bootFrom (s : State) (i : Nat) (prefFailed : Bool) : State :=
  let (k, s) := fresh s
  let s := updMgmt s (fun m => { m with bothDown := false, slot := i, prefFailed := prefFailed, svn := slotSvn s i })
  updMgmt s (fun m => { m with measures := measurements s k })

/-- Boot stage 1 with the configuration it takes (18 R507; 15 R455, R456, R462): the mode, the owner and the slot, or
RECOVERY. -/
def startBoot (s : State) : State :=
  let s := { s with pmode := s.mgmt.pmodeNext }
  let shares := mofList 0 0 ((List.range 4).map (pshareDefault (nparts s)))
  let s := updPower s (fun x => { x with share := shares, staged := shares })
  let s := updMgmt s (fun m => { m with owner := if (hpPart s m.ownerNext).isSome then m.ownerNext else 0 })
  let a := s.mgmt.bootPref
  let b := 1 - a
  let ca := slotCheck s a
  let s :=
    if ca = 0 then bootFrom s a false
    else
      let s := slotFailed s a ca
      let cb := slotCheck s b
      if cb = 0 then bootFrom s b true
      else
        let s := slotFailed s b cb
        let s := { updMgmt s (fun m => { m with prefFailed := true, bothDown := false }) with pins := { s.pins with stage := .recovery } }
        (List.range (nparts s)).foldl (fun s p => updPart s p (fun x => { x with pstate := 5 })) s
  driveFault s

/-! ### Boot stages 2 to 6 -/

/-- A recorded or pending retirement of a core in service applied at boot (01 R25, R26). -/
def bootSubstitute (s : State) (l c : Nat) : State :=
  let p := lcorePart s l
  match replacement s p c with
  | some n =>
    let s := setPhys { s with retiredCores := sins s.retiredCores c } l n
    stickyDev (record s p (ucCore c) 0 0x0052 (leBytes 2 (ucCore n))) 0
  | none => strikeReq s p true (ucCore c)

/-- The records reapplied in an unchanged mode. -/
def applyRecords (s : State) : State :=
  let todo := sortBy (·.2.1) s.faults.subst
  todo.foldl (fun s x => bootSubstitute s x.1 x.2.1) (updFaults s (fun f => { f with subst := [] }))

/-- Retired pseudo-channels of a partition. -/
def retiredIn (s : State) (p : Nat) : List Nat := channelsIn s p 2

/-- Logical cores of a partition whose physical core is retired. -/
def coreless (s : State) (p : Nat) : List Nat :=
  (upto (p * lcores s) (lcores s)).filter (fun l => smem s.retiredCores (physOf s l))

/-- MODE_LIMIT with a cause (16 R472). -/
def recordLimit (s : State) (p cause : Nat) : State :=
  record s p (ucSpeush 0) 0 0x0058 (leBytes 1 p ++ leBytes 1 cause ++ leBytes 2 (retiredIn s p).length ++ leBytes 2 (coreless s p).length)

/-- Check 4 of R511 of a partition of the new mode; a partition that fails it will be BLOCKED. -/
def checkMode (s : State) (p : Nat) : State :=
  let rs := retiredIn s p
  let tooMany := decide (channelLimit s < rs.length) || rs.any (fun a => rs.any (fun b => a != b && a / 32 == b / 32))
  let noCore := !(coreless s p).isEmpty
  let s := if tooMany then recordLimit s p 1 else s
  let s := if noCore then recordLimit s p 2 else s
  updPart s p (fun x => { x with modeBlocked := tooMany || noCore })

/-- The records rebuilt for a changed mode (R511). DESIGN CHOICE: where no physical core is left for a logical core, its
CORE_MAP entry keeps naming the retired default core (log 88); its partition is BLOCKED. -/
def rebuildRecords (s : State) : State :=
  let pending := s.faults.subst.map (fun x => x.2.1)
  let s := updFaults s (fun f => { f with subst := [] })
  let s := { s with coreMap := [], retiredCores := pending.foldl sins s.retiredCores }
  let s := s.retiredCores.foldl (fun s c =>
    match logicalOf s c with
    | some l =>
      match replacement s (lcorePart s l) c with
      | some n => setPhys s l n
      | none => s
    | none => s) s
  let s := updMs s (fun m => { m with channelTable := [], stackTab := mmapIf m.stackTab {} (fun _ => true) (fun k => { k with map := [] }) })
  let s := (List.range 384).foldl (fun s i => if (channel s i).state = 2 then (moveEntries s (stackPart s (i / 32)) i).1 else s) s
  let s := (List.range (nparts s)).foldl checkMode s
  updMgmt s (fun m => { m with recordedMode := s.pmode })

/-- A CLEAR that a power loss cut off is completed (16 R478). -/
def storeCleared (s : State) (records dropped frozen clearer : Nat) : State :=
  flushEvents (record s 7 (if clearer = 0 then ucSpeush 0 else ucHost s.mgmt.owner) 0 0x00F1
    (leBytes 4 records ++ leBytes 4 dropped ++ leBytes 4 frozen ++ leBytes 1 clearer))

/-- The recorder cleared (16 R478); the CLEARED record waits for flash where no controller runs. -/
def clearRecorder (s : State) (clearer : Nat) : State :=
  let x := s.evr
  let s := updEvr s (fun x => { x with flash := [], pending := [], dropped := 0, frozen := false, frozenCnt := 0, frozenSev := 0 })
  let s := storeCleared s (x.flash.length + x.pending.length) x.dropped (if x.frozen then x.frozenCnt else 0) clearer
  updEvr s (fun x => { x with clearing := !x.pending.isEmpty })

/-- READY (R507, R511, R521). -/
def bootReady (s : State) : State :=
  if s.pins.stage = .booting ∧ speushUp s then
    let s := if s.pmode = s.mgmt.recordedMode then applyRecords s else rebuildRecords s
    let s := if s.evr.clearing then clearRecorder s 0 else s
    let s := { updMgmt s (fun m => { m with standbyOk := true }) with pins := { s.pins with stage := .ready, powerUp := false } }
    let s := (List.range (nparts s)).foldl (fun s p => updPart s p (fun x => { x with pstate := if x.modeBlocked then 5 else 1 })) s
    decideOos s
  else s

/-- READY. -/
def execReady (s : State) : Ans := done s (bootReady s)

/-! ### Reset and power pins (R512 to R517) -/

/-- A device-cold reset that ends at once: boot stage 1 begins (R512). -/
def coldNow (s : State) (src cause trigger : Nat) (planned : Bool) : State :=
  startBoot (askCold s src cause trigger planned)

/-- The reset by RESET_N takes effect; it ends at once where the pin has risen. -/
def resetEffect (s : State) : State :=
  let low := !s.pins.resetN
  let s := resetCold (saveAcc (countRecovery (flushEvents s))) false
  let s := { s with pins := { s.pins with stage := if low then .held else .booting, resetN := !low } }
  driveFault (if low then s else startBoot s)

/-- RESET_N falls for 1 µs or more: STOPs, a dump and the flush first while READY (R512). -/
def resetFalls (s : State) : State :=
  if !s.pins.resetN then s
  else
    let stage := s.pins.stage
    let s := { s with pins := { s.pins with resetN := false, pwrfail := false } }
    match stage with
    | .ready =>
      let s := takeDump ((List.range (nparts s)).foldl stopForReset s) (ucSpeush 0) 3 0x20 7
      let s := flushEvents (endFreeze (recordReset s 7 (ucSpeush 0) 9 9))
      let s := { s with pins := { s.pins with resetPending := true } }
      if s.faults.dump.state = 1 then s else resetEffect s
    | .held => s
    | _ => resetEffect s

/-- RESET_N. -/
def execResetN (longPulse : Bool) (s : State) : Ans := pinDone s (if longPulse then resetFalls s else s)

/-- RESET_FORCE: 60 ms after the falling edge (R512). -/
def execResetForce (s : State) : Ans := pinDone s (if s.pins.resetPending then resetEffect s else s)

/-- BOOT: the rising edge of RESET_N samples the straps (R506) and ends the reset, or will once it takes effect. -/
def boot (s : State) (a : Nat) : State :=
  if s.pins.resetPending then { s with pins := { s.pins with resetN := true, smbAddr := a } }
  else if (s.pins.stage = .held ∧ !s.pins.resetN) ∨ (s.pins.stage = .booting ∧ s.mgmt.bothDown) then
    startBoot { s with pins := { s.pins with stage := .booting, resetN := true, smbAddr := a }, ticks := 0 }
  else s

/-- BOOT. -/
def execBoot (smbAddr : BitVec 3) (s : State) : Ans := pinDone s (boot s smbAddr.toNat)

/-- DUMP_DONE; a RESET_N reset that waited for the dump takes effect. -/
def execDumpDone (unreadable : List (BitVec 16)) (s : State) : Ans :=
  let t := dumpDone s (unreadable.map (·.toNat))
  done s (if t.pins.resetPending then resetEffect t else t)

/-- DUMP_FLASH_COPY; no new flash write but event records follows PWRFAIL_N (R513). -/
def execDumpFlashCopy (s : State) : Ans := done s (if s.pins.pwrfail || s.mgmt.bothDown then s else flashCopy s)

/-- The flush of PWRFAIL_N (16 R474): pending records in descending severity and then ascending SEQ, 512 of them and as
many more as the flash takes, a free value. -/
def flushPower (s : State) : State :=
  if s.evr.pending.length ≤ 512 then flushEvents s
  else
    let (k, s) := fresh s
    let order := sortBy (fun e => 8 - e.sev) s.evr.pending
    let kept := order.take (512 + (Config.flashExtra k).toNat)
    if s.mgmt.bothDown then s
    else updEvr s (fun x => { x with
      flash := sortBy (·.seq) (x.flash ++ kept), pending := x.pending.filter (fun e => !kept.any (fun f => f.seq == e.seq)) })

/-- PWRFAIL_N for 1 µs or more (R513); ignored while RESET_N is low. -/
def powerFails (s : State) : State :=
  if !s.pins.resetN || !awake s || s.pins.pwrfail then s
  else
    let s := endFreeze s
    flushPower { s with pins := { s.pins with pwrfail := true } }

/-- PWRFAIL_N. -/
def execPwrfailN (longPulse : Bool) (s : State) : Ans := pinDone s (if longPulse then powerFails s else s)

/-- PWRFAIL_HOLD: the device holds itself in device-cold reset until a RESET_N pulse (R513). -/
def powerHold (s : State) : State :=
  if s.pins.pwrfail then
    let t := resetCold (countRecovery s) false
    driveFault { t with pins := { t.pins with stage := .held, pwrfail := true } }
  else s

/-- PWRFAIL_HOLD. -/
def execPwrfailHold (s : State) : Ans := pinDone s (powerHold s)

/-- POWER_LOSS: everything that is not in flash or a fuse is lost, the dump region too (R513); the next boot is a
power-up, behind a low RESET_N. -/
def powerLost (s : State) : State :=
  let t := resetCold (if s.pins.stage = .held then s else countRecovery s) true
  driveFault { t with pins := { t.pins with stage := .held, resetN := false } }

/-- POWER_LOSS. -/
def execPowerLoss (s : State) : Ans := pinDone s (powerLost s)

/-- REFCLK_LOSS while RESET_N is high: the clocks stop and FAULT_N is asserted (R517). -/
def refclkLost (s : State) : State :=
  if s.pins.resetN && s.pins.stage != .held then driveFault { s with pins := { s.pins with stage := .stopped } } else s

/-- REFCLK_LOSS. -/
def execRefclkLoss (s : State) : Ans := pinDone s (refclkLost s)

/-! ### Links of the host and management ports -/

/-- Lanes of a host port's link (01 R20). -/
def hostWidth (s : State) : Nat := 16 / nparts s

/-- HOST_LINK_UP: LINK_DEGRADED below 128 GT/s or the width of R20 (08 R218, R220). -/
def hostTrained (s : State) (h rate width : Nat) : State :=
  if (hpPart s h).isSome && !s.power.ioOff.contains (h / 2) && s.pins.stage != .recovery && speushUp s then
    let s := updHp s h (fun x => { x with linkUp := true, noFlit := false })
    if rate < 128 ∨ width < hostWidth s then stickyHost s h 0 else s
  else s

/-- HOST_LINK_UP. -/
def execHostLinkUp (hp : HostId) (rate width : Nat) (s : State) : Ans := done s (hostTrained s hp rate width)

/-- MGMT_LINK_UP (15 R444). -/
def execMgmtLinkUp (m : MgmtId) (s : State) : Ans := done s (updMgmt s (fun x => { x with mup := mset x.mup 0 m 1 }))

/-- MGMT_LINK_DOWN (15 R444). -/
def execMgmtLinkDown (m : MgmtId) (s : State) : Ans := done s (updMgmt s (fun x => { x with mup := mset x.mup 0 m 0 }))

/-- INTERNAL_HEARTBEAT (15 R439): counted while the primary runs. -/
def execInternalHeartbeat (s : State) : Ans :=
  done s (if speushUp s then updMgmt s (fun x => { x with beats := x.beats + 1 }) else s)

/-! ### Partition start and barrier (R518 to R522) -/

/-- Offset of PART_RUN. -/
def partRunOff : Nat := 0x0010010

/-- START written 1: INIT becomes STARTED, and the ports may leave DISABLED (R518). -/
def partStart (s : State) (h : Nat) : State :=
  match hpPart s h with
  | none => s
  | some p =>
    if (part s p).pstate = 1 then (partPorts s p).foldl tryEnable (updPart s p (fun x => { x with pstate := 2 }))
    else writeIgnored s h partRunOff 1 0

/-- Every step below START_STEP is PROVEN (R519, step 2). -/
def markProven (s : State) (p : Nat) : State :=
  let n := startStep s p
  updProof s p (fun x => { x with lastProven := n - 1, lastComputed := n - 1, nextStep := n, begun := false, steps := [], log := [] })

/-- BARRIER written 1 (R519). -/
def partBarrier (s : State) (h : Nat) : State :=
  match hpPart s h with
  | none => s
  | some p =>
    if (part s p).pstate = 2 ∧ (xport s p).arm then
      let s := updPart s p (fun x => { x with pstate := 3, barFail := 0 })
      let s := loadImage s p
      if (xport s p).result = 0x1 then beginJoin (markProven s p) p true else toHold s p 1
    else writeIgnored s h partRunOff 2 0

/-- START. -/
def execStart (hp : HostId) (s : State) : Ans := done s (hostWrite s hp partRunOff 1 (fun s => partStart s hp))

/-- START_UP_BARRIER. -/
def execStartUpBarrier (hp : HostId) (s : State) : Ans := done s (hostWrite s hp partRunOff 2 (fun s => partBarrier s hp))

end Sys2Proof.Machine
end

