-- ==== Sys2Proof/Machine/Power.lean ====
section
/-! DEFINITION. The power and thermal loops (14_power_clocks_thermal.md R421, R422, R425 to R437). Estimates, telemetry and
sensor readings are what their commands bring (log 39); grants and leading cycles are timing. -/

namespace Sys2Proof.Machine

/-! ### Estimates and allotments (R426, R427) -/

/-- The part of the I/O-die estimate that counts for a partition: all of it in P1, else a free share (log 8). -/
def ioPart (s : State) (p io : Nat) : Nat :=
  if nparts s = 1 then io else (Config.ioShare (4 * nparts s + p)).toNat * io / 65536

/-- The VCORE estimate of a partition, in W / 2^22. -/
def partEstimate (s : State) (watts : List Nat) (io p : Nat) : Nat :=
  s.power.gain * 256 * ((partGalleys s p).foldl (fun a g => a + watts.getD g 0) 0 + ioPart s p io)

/-- The VCORE cap in W: PWR_CAP, or 90% of it while a rail is silent, less the other rails (R422, R427). -/
def vcoreCap (s : State) : Nat :=
  let cap := regF s .dev 0x0080000 0 12
  (if s.power.silent then cap * 9 / 10 else cap) - (upto 1 3).foldl (fun a r => a + mget s.power.rails 0 r) 0

/-- A partition's share in force. -/
def shareOf (s : State) (p : Nat) : Nat := mget s.power.share 0 p

/-- Its allotment before any surplus, in W / 2^22. -/
def baseAllotment (s : State) (p : Nat) : Nat := shareOf s p * vcoreCap s * 2 ^ 14

/-- The allotment of a partition as numerator and denominator, in W / 2^22: its share, and its part of what others left
unused in the last period where it reached its own (R427). -/
def allotment (s : State) (p : Nat) : Nat × Nat :=
  let ps := List.range (nparts s)
  let last (q : Nat) : Nat := mget s.power.partEst 0 q
  let reached := ps.filter (fun q => decide (baseAllotment s q ≤ last q))
  let surplus := ps.foldl (fun a q => a + (baseAllotment s q - last q)) 0
  let r := reached.foldl (fun a q => a + shareOf s q) 0
  if reached.contains p ∧ r ≠ 0 then (baseAllotment s p * r + surplus * shareOf s p, r) else (baseAllotment s p, 1)

/-- A quotient rounded to the nearest integer, ties to even. -/
def roundHalfEven (n : Int) (d : Nat) : Int :=
  let q := n / (d : Int)
  let r := (n % (d : Int)).toNat
  if 2 * r < d then q else if d < 2 * r then q + 1 else if q % 2 = 0 then q else q + 1

/-- A number clamped from 0 to 48. -/
def clamp48 (x : Int) : Nat := min x.toNat 48

/-! ### POWER_PERIOD (R429, R432, R433, R435, R436) -/

/-- The power leading of a partition's galleys updated, with the hold of R433: `p` exceeds the allotment `n / d`. -/
def leadPart (s : State) (p est : Nat) : State :=
  let (n, d) := allotment s p
  let (f, s) := fresh s
  let old (g : Nat) : Nat := mget s.power.lead 0 g
  let was48 := (partGalleys s p).all (fun g => old g == 48)
  let isOver := decide (n < est * d)
  let new (g : Nat) : Nat :=
    if n = 0 then (if est = 0 then (Config.powerFree f).toNat % 49 else 48)
    else clamp48 ((old g : Int) + roundHalfEven (256 * ((est * d : Nat) - (n : Int))) n)
  let s := (partGalleys s p).foldl (fun s g => updPower s (fun x => { x with lead := mset x.lead 0 g (new g) })) s
  let s := if (partGalleys s p).any (fun g => mget s.power.lead 0 g == 48) then stickyPower s 0 else s
  let hold := if isOver then (part s p).grantHold || was48 else false
  updPart s p (fun x => { x with grantHold := hold })

/-- TJ_LIMIT in 0.25 °C. -/
def tjLimit (s : State) : Nat := 4 * regF s .dev 0x0080018 0 8

/-- The thermal leading of a compute die's galleys (R435). -/
def thermalDie (s : State) (d : Nat) : State :=
  let t := dieTemp s d
  (upto (4 * d) 4).foldl (fun s g =>
    updPower s (fun x =>
      let v := mget x.thermal 0 g
      { x with thermal := mset x.thermal 0 g (if tjLimit s ≤ t then min (v + 4) 48 else if t + 8 < tjLimit s then v - 1 else v) })) s

/-- The stack leading of a galley (R436). -/
def stackLead (s : State) (g : Nat) : Nat :=
  (64 - (upto (3 * (g / 4)) 3).foldl (fun a k => min a (stack s k).admitA) 64) / 4

/-- The leading in force of every galley: the largest of the three (R432), and 48 while R429 holds. -/
def setLeading (s : State) : State :=
  (List.range 16).foldl (fun s g =>
    let l := max (max (mget s.power.lead 0 g) (mget s.power.thermal 0 g)) (stackLead s g)
    updPower s (fun x => { x with total := mset x.total 0 g (if x.edcHold then 48 else l) })) s

/-- POWER_PERIOD, every 2 µs: the estimates of the 16 galleys and of the I/O dies arrive in W. -/
def powerPeriod (s : State) (watts : List Nat) (io : Nat) : State :=
  let ps := List.range (nparts s)
  let ests := ps.map (partEstimate s watts io)
  let all := s.power.gain * (watts.foldl (· + ·) 0 + io)
  let amps := if s.power.meas = 0 then 0 else all * 1000 / (s.power.meas * 2 ^ 14)
  let edc := decide (regF s .dev 0x0080004 0 12 < amps)
  let s := updPower s (fun x => { x with
    iEst := amps, pEst := all / 2 ^ 14 + (upto 1 3).foldl (fun a r => a + mget x.rails 0 r) 0, edcHold := edc })
  let s := if edc then stickyPower s 1 else s
  let s := ps.foldl (fun s p => leadPart s p (ests.getD p 0)) s
  let s := (List.range 4).foldl thermalDie s
  let s := updPower s (fun x => { x with partEst := mofList 0 0 ests })
  let s := if (List.range 16).any (fun g => decide (0 < stackLead s g)) then stickyPower s 6 else s
  setLeading s

/-- POWER_PERIOD. -/
def execPowerPeriod (galleyWatts : List Nat) (ioWatts : Nat) (s : State) : Ans := done s (powerPeriod s galleyWatts ioWatts)

/-- CALIBRATION, every 1 ms (R428): frozen while a rail is silent (R422). G keeps 14 fraction bits (DESIGN CHOICE, log
38). -/
def calibrate (s : State) (measured estimated : Nat) : State :=
  if s.power.silent then s
  else
    let (f, s) := fresh s
    updPower s (fun x =>
      let g : Int := if estimated = 0 then ((Config.powerFree f).toNat : Int)
        else x.gain + (16384 * ((measured : Int) - estimated)) / (8 * estimated : Nat)
      { x with gain := min (max g 0x3000).toNat 0x5000 })

/-- CALIBRATION. -/
def execCalibration (measured estimated : Nat) (s : State) : Ans := done s (calibrate s measured estimated)

/-! ### Operating points (R425, R433) -/

/-- The average power leading of a partition's galleys, times their number, and their number. -/
def leadSum (s : State) (p : Nat) : Nat × Nat :=
  ((partGalleys s p).foldl (fun a g => a + mget s.power.lead 0 g) 0, (partGalleys s p).length)

/-- OP_STEP_DOWN: one point down after 1 ms with an average power leading above 16 (R433). -/
def opDown (s : State) (p : Nat) : State :=
  let (a, n) := leadSum s p
  if 16 * n < a then updPart s p (fun x => { x with opCap := opInForce s p - 1 }) else s

/-- OP_STEP_DOWN. -/
def execOpStepDown (p : PartId) (s : State) : Ans := done s (if partExists s p then opDown s p else s)

/-- OP_STEP_UP: one point up after 10 ms with no power leading, never above the requested point (R433). -/
def opUp (s : State) (p : Nat) : State :=
  if (leadSum s p).1 = 0 ∧ (part s p).opCap < opRequested s p then updPart s p (fun x => { x with opCap := x.opCap + 1 }) else s

/-- OP_STEP_UP. -/
def execOpStepUp (p : PartId) (s : State) : Ans := done s (if partExists s p then opUp s p else s)

/-- VCORE_SETTLED: telemetry reads within 10 mV of the target, or AVS_SETTLE has passed, and ratios rise (R425). -/
def vcoreSettled (s : State) (mv : Option Nat) : State :=
  let s := match mv with
    | some v => updPower s (fun x => { x with meas := v })
    | none => s
  let near := match mv with
    | some v => decide (v ≤ s.power.target + 10) && decide (s.power.target ≤ v + 10)
    | none => true
  if s.power.raising && near && !s.power.avsPending then updPower s (fun x => { x with raising := false }) else s

/-- VCORE_SETTLED. -/
def execVcoreSettled (readMv : Option Nat) (s : State) : Ans := done s (vcoreSettled s readMv)

/-! ### Droop, sensors and telemetry (R421, R422, R434, R435, R437) -/

/-- DROOP of a galley (R434). -/
def drooped (s : State) (g : Nat) : State :=
  stickyPower (updPower s (fun x => { x with
    droopHold := mset x.droopHold 0 g (regF s .dev 0x0080020 8 8), droops := min (x.droops + 1) (2 ^ 32 - 1) })) 2

/-- DROOP. -/
def execDroop (g : Fin 16) (s : State) : Ans := done s (drooped s g)

/-- The first sensor of a list of sensors that reads at least `t`. -/
def hotSensor (s : State) (ss : List Nat) (t : Nat) : Option Nat := ss.find? (fun i => decide (t ≤ mget s.power.sensors 0 i))

/-- THERMTRIP (R437): the record, THERMTRIP_N, and the clocks stop; no STOP is sent. -/
def thermTrip (s : State) (i : Nat) : State :=
  let s := flushEvents (record s 7 (ucDie (i / 16)) 0 0x0061 (leBytes 1 i ++ leBytes 2 (mget s.power.sensors 0 i)))
  driveFault { s with pins := { s.pins with thermtripN := false, stage := .stopped } }

/-- An I/O die at 110.0 °C (R437): THERMAL for every partition, and the PHYs of the die are disabled. A host port's PHY is
on X0 for H0 and H1, on X1 for H2 and H3 (DEDUCED, log 13). -/
def ioHot (s : State) (x : Nat) : State :=
  if s.power.ioOff.contains x then s
  else
    let s := stickyDev (updPower s (fun y => { y with ioOff := sins y.ioOff x })) 5
    let s := (List.range (nparts s)).foldl (fun s p => raise s p 0x1C none (ucDie (4 + x))) s
    let s := (upto (16 * x) 16).foldl (fun s j => if (port s j).state = 9 ∨ (port s j).state = 0 then s else toDisabled s j) s
    (upto (2 * x) 2).foldl linkDown s

/-- SENSOR_READ, every 20 µs: the 72 junction sensors in 0.25 °C (R435). -/
def sensorsRead (s : State) (temps : List Nat) : State :=
  let was := (List.range 4).map (dieTemp s)
  let s := updPower s (fun x => { x with sensors := mofList 0 0 (temps.take 72) })
  let s := (List.range 4).foldl (fun s d =>
    if was.getD d 0 < tjLimit s ∧ tjLimit s ≤ dieTemp s d then
      let i := (hotSensor s (dieSensors d) (tjLimit s)).getD 0
      stickyPower (record s 7 (ucDie d) 0 0x0063 (leBytes 1 i ++ leBytes 2 (mget s.power.sensors 0 i))) 3
    else s) s
  let s := [0, 1].foldl (fun s x => if (hotSensor s (dieSensors (4 + x)) 440).isSome then ioHot s x else s) s
  match hotSensor s (List.range 64) 460 with
  | some i => thermTrip s i
  | none => s

/-- SENSOR_READ. -/
def execSensorRead (temps : List Nat) (s : State) : Ans := done s (sensorsRead s temps)

/-- AVS_FAIL (R421): every galley at the highest ratio that the last confirmed VCORE carries. -/
def avsFailed (s : State) (mv : Nat) : State :=
  let s := if s.power.avsPending then s else record s 7 (ucSpeush 0) 0 0x0062 (leBytes 1 1 ++ leBytes 1 0)
  let s := stickyPower (updPower s (fun x => { x with avsPending := true })) 4
  (List.range 16).foldl (fun s g => setRatio s g (safeRatio s mv)) s

/-- AVS_FAIL. -/
def execAvsFail (confirmedMv : Nat) (s : State) : Ans := done s (avsFailed s confirmedMv)

/-- AVS_RETRY, every 1 ms after a failure (R421): once acknowledged, ratios wait for VCORE as after any raise. -/
def avsRetried (s : State) (acked : Bool) : State :=
  if s.power.avsPending then
    let s := emit s (.avs s.power.target)
    if acked then updPower s (fun x => { x with avsPending := false, raising := true }) else s
  else s

/-- AVS_RETRY. -/
def execAvsRetry (acked : Bool) (s : State) : Ans := done s (avsRetried s acked)

/-- One rail's answer: VCORE 0 with its READ_VOUT, VMEM 1, VPHY 2, VAUX 3. -/
def railAnswer (s : State) (r : Nat) (a : RailAnswer) : State :=
  if a.ok then
    if r = 0 then updPower s (fun x => { x with meas := a.mv }) else updPower s (fun x => { x with rails := mset x.rails 0 r a.watts })
  else s

/-- PMBUS_POLL, every 1 ms: a rail silent for 100 ms freezes the gain and lowers the cap until it answers (R422). -/
def railsPolled (s : State) (rails : List RailAnswer) : State :=
  let rs := (rails.take 4).zipIdx
  let s := rs.foldl (fun s a => railAnswer s a.2 a.1) s
  match rs.find? (fun a => !a.1.ok && decide (100 ≤ a.1.silentMs)) with
  | some (_, r) =>
    let s := if s.power.silent then s else record s 7 (ucSpeush 0) 0 0x0062 (leBytes 1 2 ++ leBytes 1 r)
    stickyPower (updPower s (fun x => { x with silent := true })) 5
  | none => updPower s (fun x => { x with silent := false })

/-- PMBUS_POLL. -/
def execPmbusPoll (rails : List RailAnswer) (s : State) : Ans := done s (railsPolled s rails)

/-! ### Shares (R427) -/

/-- A staged share written: the staged shares of the mode's partitions come into force when they sum to 256. -/
def stageShare (s : State) (p v : Nat) : State :=
  let s := updPower s (fun x => { x with staged := mset x.staged 0 p v })
  let ps := List.range (nparts s)
  if ps.foldl (fun a q => a + mget s.power.staged 0 q) 0 = 256 then
    updPower s (fun x => { x with share := mofList 0 0 (ps.map (mget x.staged 0)) })
  else s

end Sys2Proof.Machine
end

