-- ==== Sys2Proof/Machine/Mgmt.lean ====
section
/-! DEFINITION. The event recorder's reading, freezing and flushing (16_event_recorder.md R474 to R479), Speush's two
controllers, management frames and commands (15_management_security.md R439 to R449), freezes lifted (R466), the mailbox
(R457, R458; 17 R491) and the answers of outside protocols (R450, R460). -/

namespace Sys2Proof.Machine

/-! ### The event recorder -/

/-- FLUSH: 256 records pending, or the oldest 1 s old (16 R474). -/
def execFlush (s : State) : Ans := done s (flushEvents s)

/-- Recording frozen (16 R477). -/
def freezeRecorder (s : State) : State :=
  if s.evr.frozen then s
  else updEvr s (fun x => { x with frozen := true, frozenCnt := 0, frozenSev := 0, frozenAt := uptimeNs s })

/-- FREEZE_MAX: the longest freeze has passed. -/
def execFreezeMax (s : State) : Ans := done s (endFreeze s)

/-- Stored records in SEQ order. -/
def recordsInOrder (s : State) : List Event := sortBy (·.seq) (storedEvents s)

/-- Whether a host port may see a record (R476). -/
def mayRead (s : State) (h : Nat) (e : Event) : Bool := isOwner s h || e.part == 7 || hpPart s h == some e.part

/-- Whether sequence numbers from `a` up to below `b` are no longer stored. -/
def seqGap (s : State) (a b : Nat) : Bool :=
  decide ((storedEvents s).countP (fun e => decide (a ≤ e.seq) && decide (e.seq < b)) < b - a)

/-- The lookup that the write of RD_SEQ's high word starts (R476). -/
def lookupRecord (s : State) (h high : Nat) : State :=
  let q := (hport s h).rdSeq % 2 ^ 32 + 2 ^ 32 * high
  let s := updHp s h (fun x => { x with rdSeq := q })
  match (recordsInOrder s).find? (fun e => decide (q ≤ e.seq) && mayRead s h e) with
  | some e => updHp s h (fun x => { x with rdRecord := e.bytes, rdStat := 1 + 4 * b2n (seqGap s q e.seq) })
  | none => updHp s h (fun x => { x with rdStat := 8 })

/-- EVR_RD_SEQ. -/
def execEvrRdSeq (hp : HostId) (high : Word) (s : State) : Ans :=
  done s (hostWrite s hp 0x0100034 high.toNat (fun s => lookupRecord s hp high.toNat))

/-! ### The controllers (15 R440, R441) -/

/-- STANDBY_TAKEOVER. Where no standby runs, none is left (DEDUCED from R441, log 40). -/
def takeOver (s : State) (micros : Nat) : State :=
  if s.mgmt.standbyOk then
    let lost := s.mgmt.primary
    let s := updMgmt s (fun m => { m with primary := 1 - lost, standbyOk := false, beats := 0 })
    record s 7 (ucSpeush 0) 0 0x0070 (leBytes 1 lost ++ leBytes 4 micros)
  else driveFault (updMgmt s (fun m => { m with bothDown := true }))

/-- STANDBY_TAKEOVER. -/
def execStandbyTakeover (micros : Nat) (s : State) : Ans := done s (if speushUp s then takeOver s micros else s)

/-- STANDBY_RETURN: the old primary is back as standby within 1 s, or SPEUSH_FAIL is set (R441). -/
def standbyBack (s : State) (booted : Bool) : State :=
  if s.mgmt.standbyOk || s.mgmt.bothDown then s
  else if booted then updMgmt s (fun m => { m with standbyOk := true })
  else stickySpeush s

/-- STANDBY_RETURN. -/
def execStandbyReturn (booted : Bool) (s : State) : Ans := done s (standbyBack s booted)

/-! ### Frames sent (15 R444) -/

/-- The body of a HEARTBEAT; all zero in RECOVERY (R456). -/
def heartbeatBody (s : State) : Bytes :=
  (List.range 4).flatMap (fun p =>
    if partExists s p && s.pins.stage != .recovery then leBytes 1 (proof s p).slice ++ zeros 1 ++ leBytes 6 (proof s p).lastProven
    else zeros 8)

/-- A frame about the whole device sent on both ports. -/
def sendBoth (s : State) (ftype : Nat) (body : Bytes) : State := [0, 1].foldl (fun s m => sendFrame s m ftype 0xFF body) s

/-- HEARTBEAT, every 1 ms. -/
def execHeartbeat (s : State) : Ans := done s (sendBoth s 0x01 (heartbeatBody s))

/-- The entries of HEALTH: every unit whose score is above 0. -/
def healthEntries (s : State) : List Bytes :=
  (s.faults.acc.filter (fun c => decide (1024 ≤ c.2))).map (fun c => leBytes 2 c.1 ++ leBytes 2 (c.2 / 1024))

/-- HEALTH frames of up to 367 entries. -/
def sendHealth (s : State) : State :=
  let es := healthEntries s
  (List.range (max 1 ((es.length + 366) / 367))).foldl (fun s i => sendBoth s 0x04 (((es.drop (367 * i)).take 367).flatMap id)) s

/-- HEALTH, every HEALTH_INT; not in RECOVERY (R456). -/
def execHealth (s : State) : Ans := done s (if s.pins.stage = .recovery then s else sendHealth s)

/-- The counters of a Jilan port in the order of 09 R292. -/
def portCounters (x : Port) : List Nat :=
  [x.crcErr, x.nakTx, x.nakRx, x.replayedCnt, x.recovers, x.retrains, x.linkLosses, x.txFlits, x.rxFlits]

/-- A TELEMETRY frame on a port whose link is up. -/
def sendTelemetry (s : State) (m : Nat) : State :=
  if mget s.mgmt.mup 0 m = 1 ∧ speushUp s ∧ s.pins.stage ≠ .recovery then
    emit (countFrame s m)
      (.telemetry m (mget s.mgmt.txSeq 0 m) s.power.pEst s.power.meas ((List.range 6).map (dieTemp s))
        ((List.range 12).map (fun k => (stack s k).temp)) s.power.stat ((List.range 32).map (fun j => portCounters (port s j))))
  else s

/-- TELEMETRY, every TELEM_INT. -/
def execTelemetry (s : State) : Ans := done s ([0, 1].foldl sendTelemetry s)

/-! ### Frames received (15 R442, R443) -/

/-- Frame types of R444. -/
def listedFrame (t : Nat) : Bool := (decide (1 ≤ t) && decide (t ≤ 7)) || t == 0x10 || t == 0x11

/-- FTYPE of a frame. -/
def frameType (f : Frame) : Nat := leAt f.header 1 1

/-- The body of a frame: padding beyond BLEN is ignored. -/
def frameBody (f : Frame) : Bytes := f.body.take (leAt f.header 2 2)

/-- Whether a port's MAC accepts a frame (R442). -/
def macAccepts (s : State) (m : Nat) (f : Frame) : Bool :=
  mget s.mgmt.mup 0 m == 1 && f.forUs && f.etype == regF s .dev 0x0010C40 0 16 && f.vlan == regF s .dev 0x0010C40 16 12

/-- A frame received for a row of type `t`: dropped and counted where its VERSION or FTYPE is wrong (R443). -/
def frameIn (s : State) (m : Nat) (f : Frame) (t : Nat) (k : State → State) : State :=
  if !macAccepts s m f then s
  else if f.version ≠ 1 ∨ !listedFrame (frameType f) then updMgmt s (fun x => { x with drop := min (x.drop + 1) (2 ^ 32 - 1) })
  else if frameType f = t then k s
  else s

/-- Whether Speush takes frames: a controller runs and the device has booted. -/
def speushTakes (s : State) : Bool := speushUp s && isReady s

/-- MGR_HB, counted and timestamped by the MAC (R445). -/
def managerBeat (s : State) (m : Nat) : State :=
  updMgmt s (fun x => { x with
    hbCount := mset x.hbCount 0 m (mget x.hbCount 0 m + 1), hbTime := mput x.hbTime m (uptimeNs s), lost := [] })

/-- MGR_HB. -/
def execMgrHb (m : MgmtId) (f : Frame) (s : State) : Ans := done s (frameIn s m f 0x02 (fun s => managerBeat s m))

/-- MGMT_LOST: 64 ms without MGR_HB on either port while a step is OPEN or COMPUTED; once per loss (11 R353). -/
def mgmtSilent (s : State) (p : Nat) : State :=
  let late := s.mgmt.hbTime.foldl (fun a c => max a c.2) 0
  if stepActive s p ∧ !s.mgmt.lost.contains p ∧ late + 64000000 ≤ uptimeNs s then
    raise (updMgmt s (fun x => { x with lost := sins x.lost p })) p 0x1D none (ucSpeush 0)
  else s

/-- MGMT_LOST. -/
def execMgmtLost (p : PartId) (s : State) : Ans := done s (if partExists s p then mgmtSilent s p else s)

/-- The transport packet of a STOPPRESS frame's body (R444; 10 R295). -/
def framePacket (bs : Bytes) : Packet :=
  { vc := 0, sub := leAt bs 1 1, src := leAt bs 2 3 % 2 ^ 20, dst := leAt bs 5 3 % 2 ^ 20, gen := leAt bs 8 3, group := leAt bs 14 2
    addr := leAt bs 16 6, msg := leAt bs 24 4, imptag := leAt bs 28 4, data := (bs.drop 32).take (leAt bs 12 2 % 2 ^ 13), poison := [] }

/-- A STOPPRESS packet from the management network injected where its DST says (R446), as if it had come on a fabric
port (11 R348). -/
def injectStop (s : State) (bs : Bytes) : State :=
  let pk := framePacket bs
  if leAt bs 0 1 ≠ 0x20 then s
  else
    (List.range (nparts s)).foldl (fun s p =>
      if (pk.dst = 0xFFFFF ∨ pk.dst = devId s p) ∧ (proof s p).slice ≠ 9 then ingress s p ((partPorts s p).headD 0) 0x20 pk else s) s

/-- STOPPRESS_FRAME. -/
def execStoppressFrame (m : MgmtId) (f : Frame) (s : State) : Ans :=
  done s (frameIn s m f 0x03 (fun s => if speushTakes s then injectStop s (frameBody f) else s))

/-- One EVENT_DATA frame: the records, whether it is the last, and the SEQ that it was asked from (16 R479). -/
def sendRecords (s : State) (m from_ : Nat) (rs : List Event) (last : Bool) : State :=
  let next := match rs.getLast? with
    | some e => e.seq + 1
    | none => from_
  let gap := match rs.getLast? with
    | some e => seqGap s from_ e.seq
    | none => false
  sendFrame s m 0x06 0xFF (leBytes 8 next ++ leBytes 1 rs.length ++ leBytes 1 (b2n last + 2 * b2n gap + 4 * b2n s.evr.frozen) ++
    zeros 6 ++ rs.flatMap Event.bytes)

/-- The frames of a request, 22 records each. -/
def sendFrames (m : Nat) : Nat → Nat → List Event → State → State
  | 0, _, _, s => s
  | n + 1, from_, rs, s =>
    let s := sendRecords s m from_ (rs.take 22) (decide (rs.length ≤ 22))
    if rs.length ≤ 22 then s else sendFrames m n (((rs.take 22).getLast?.map (fun e => e.seq + 1)).getD from_) (rs.drop 22) s

/-- An EVENT_REQ answered (16 R479). -/
def answerEvents (s : State) (m : Nat) (bs : Bytes) : State :=
  let from_ := leAt bs 0 8
  let mask := leAt bs 11 1
  let rs := (recordsInOrder s).filter (fun e =>
    decide (from_ ≤ e.seq) && decide (leAt bs 10 1 ≤ e.sev) && (mask == 0 || mask.testBit e.part))
  let rs := rs.take (leAt bs 8 2)
  sendFrames m (rs.length / 22 + 1) from_ rs s

/-- EVENT_REQ. -/
def execEventReq (m : MgmtId) (f : Frame) (s : State) : Ans :=
  done s (frameIn s m f 0x05 (fun s => if speushTakes s then answerEvents s m (frameBody f) else s))

/-! ### Freezes lifted (15 R466) -/

/-- Whether a KIND and INDEX name something frozen; queues are those of host port `h`. -/
def isFrozen (s : State) (kind idx h : Nat) : Bool :=
  match kind with
  | 1 => (hport s idx).frozen
  | 2 => (queue s h idx).state == 3
  | 3 => smem s.frozenCores idx
  | _ => false

/-- FREEZE_LIFTED. -/
def recordLift (s : State) (p src kind idx lifter : Nat) : State :=
  record s p src 0 0x0011 (leBytes 1 kind ++ leBytes 2 idx ++ leBytes 1 lifter)

/-- A freeze lifted: 0 Speush, 1 a command, 2 a keyed write. -/
def liftFreeze (s : State) (kind idx h lifter src : Nat) : State :=
  match kind with
  | 1 => recordLift (updHp s idx (fun x => { x with frozen := false })) ((hpPart s idx).getD 7) src 1 idx lifter
  | 2 => recordLift (updQueue s h idx (fun x => { x with state := 2 })) ((hpPart s h).getD 7) src 2 idx lifter
  | 3 =>
    let s := recordLift { s with frozenCores := sdel s.frozenCores idx } (lcorePart s idx) src 3 idx lifter
    coreDomain s (physOf s idx) 6
  | _ => s

/-! ### Commands (15 R447 to R449) -/

/-- MGMT_KEY as 32 bytes. -/
def mgmtKey (s : State) : Bytes := (List.range 8).flatMap (fun i => leBytes 4 (regW s .dev (0x0010C50 + 4 * i)))

/-- CTR of a command. -/
def cmdCtr (bs : Bytes) : Nat := leAt bs 4 8

/-- ARGS of a command. -/
def cmdArgs (bs : Bytes) : Bytes := (bs.drop 16).take (bs.length - 32)

/-- Whether TAG is right (R448). -/
def tagOk (s : State) (f : Frame) : Bool :=
  let bs := frameBody f
  decide (32 ≤ bs.length) &&
    (hmacSha256 (mgmtKey s) (f.header ++ bs.take (bs.length - 16))).take 16 == bs.drop (bs.length - 16)

/-- A RESPONSE. -/
def respond (s : State) (m cmd ctr status : Nat) : State :=
  let b := leBytes 2 cmd ++ zeros 2 ++ leBytes 8 ctr ++ leBytes 1 status
  emit (countFrame s m) (.response m (frameHeader s m 0x11 0xFF b.length ++ b))

/-- A wrong TAG: counted, recorded at most once per 60 s, not answered. -/
def authFailed (s : State) : State :=
  let s := updMgmt s (fun x => { x with authFail := min (x.authFail + 1) (2 ^ 32 - 1) })
  if s.mgmt.authTime.all (fun t => decide (t + 60000000000 ≤ uptimeNs s)) then
    record (updMgmt s (fun x => { x with authTime := some (uptimeNs s) })) 7 (ucSpeush 0) 0 0x0073 (leBytes 4 s.mgmt.authFail)
  else s

/-- A command of a row with code `cmd`: its argument and state checks, and its effect (R449). One with another listed code
is of another row. -/
def command (s : State) (m : Nat) (f : Frame) (cmd : Nat) (argsOk stateOk : State → Bytes → Bool)
    (effect : State → Bytes → State) : State :=
  frameIn s m f 0x10 (fun s =>
    let bs := frameBody f
    let c := leAt bs 0 2
    let listed_ := decide (1 ≤ c) && decide (c ≤ 8)
    if !speushTakes s || (listed_ && c != cmd) then s
    else if allZero (mgmtKey s) then respond s m c (cmdCtr bs) 2
    else if !tagOk s f then authFailed s
    else if cmdCtr bs ≤ s.mgmt.ctr then respond s m c (cmdCtr bs) 3
    else if !listed_ || !zeroRange bs 2 4 || !zeroRange bs 12 16 || !argsOk s (cmdArgs bs) then respond s m c (cmdCtr bs) 4
    else if !stateOk s (cmdArgs bs) then respond s m c (cmdCtr bs) 5
    else
      let s := updMgmt s (fun x => { x with ctr := cmdCtr bs })
      let s := record s 7 (ucSpeush 0) (operMgmt c) 0x0072 (leBytes 2 c ++ leBytes 8 (cmdCtr bs) ++ leBytes 1 0)
      effect (respond s m c (cmdCtr bs) 0) (cmdArgs bs))

/-- STRIKE. -/
def execStrike (m : MgmtId) (f : Frame) (s : State) : Ans :=
  let n (a : Bytes) : Nat := leAt a 2 2
  done s (command s m f 0x0001
    (fun s a => partExists s (leAt a 0 1) && zeroRange a 1 2 && decide (1 ≤ n a) && decide (n a ≤ 1018) && decide (4 + 2 * n a ≤ a.length))
    (fun s a => (proof s (leAt a 0 1)).slice != 0 && (proof s (leAt a 0 1)).slice != 9)
    (fun s a => raiseStrikes s (leAt a 0 1) 0x21 (ucSpeush 0)
      ((List.range (n a)).map (fun i => ⟨leAt a (4 + 2 * i) 2, false, false, false, 0x21⟩))))

/-- READMIT. -/
def execReadmit (m : MgmtId) (f : Frame) (s : State) : Ans :=
  done s (command s m f 0x0002 (fun _ _ => true) (fun _ _ => true) (fun s _ => readmitDevice s))

/-- FREEZE_LIFT. -/
def execFreezeLift (m : MgmtId) (f : Frame) (s : State) : Ans :=
  let kind (a : Bytes) : Nat := natFld (leAt a 0 2) 12 4
  let idx (a : Bytes) : Nat := natFld (leAt a 0 2) 0 12
  done s (command s m f 0x0003
    (fun s a => match kind a with
      | 1 => decide (idx a < 4)
      | 2 => decide (idx a < 64) && (hpPart s (leAt a 2 1)).isSome
      | 3 => decide (idx a < 120)
      | _ => false)
    (fun s a => isFrozen s (kind a) (idx a) (leAt a 2 1))
    (fun s a => liftFreeze s (kind a) (idx a) (leAt a 2 1) 1 (ucSpeush 0)))

/-- DUMP. -/
def execDump (m : MgmtId) (f : Frame) (s : State) : Ans :=
  done s (command s m f 0x0004 (fun _ _ => true) (fun _ _ => true) (fun s _ => takeDump s (ucSpeush 0) 5 0 7))

/-- The reset that a RESET command names. -/
def resetBy (s : State) (which : Nat) (planned : Bool) : State :=
  if which < 4 then resetPart s which (ucSpeush 0) 5 3
  else if which = 4 then resetWarm s (ucSpeush 0) 5 3 planned
  else coldNow s (ucSpeush 0) 5 3 planned

/-- RESET. -/
def execMgmtReset (m : MgmtId) (f : Frame) (s : State) : Ans :=
  done s (command s m f 0x0005
    (fun s a => (partExists s (leAt a 0 1) || leAt a 0 1 == 4 || leAt a 0 1 == 5) && decide (leAt a 1 1 < 2))
    (fun _ _ => true) (fun s a => resetBy s (leAt a 0 1) (leAt a 1 1 == 1)))

/-- TAKEOVER; how long it took is not the command's to say: a free value. -/
def execTakeover (m : MgmtId) (f : Frame) (s : State) : Ans :=
  done s (command s m f 0x0006 (fun _ _ => true) (fun s _ => s.mgmt.standbyOk) (fun s _ =>
    let (k, s) := fresh s
    takeOver s (Config.abandonedValue k).toNat))

/-- BOOT_PREF. -/
def execBootPref (m : MgmtId) (f : Frame) (s : State) : Ans :=
  done s (command s m f 0x0007 (fun _ a => decide (leAt a 0 1 < 2)) (fun _ _ => true)
    (fun s a => updMgmt s (fun x => { x with bootPref := leAt a 0 1 })))

/-- OWNER. -/
def execOwner (m : MgmtId) (f : Frame) (s : State) : Ans :=
  done s (command s m f 0x0008 (fun _ a => decide (leAt a 0 1 < 4)) (fun _ _ => true)
    (fun s a => updMgmt s (fun x => { x with ownerNext := leAt a 0 1 })))

/-! ### The mailbox (17 R491) -/

/-- A byte string of MB_REQ. -/
def mbReq (s : State) (h o n : Nat) : Bytes := (upto o n).map (fun a => mget (hport s h).mailbox.req 0 a)

/-- The result of a mailbox command. -/
def mbResult (s : State) (h r : Nat) (rsp : Bytes) : State :=
  updHp s h (fun x => { x with mailbox := { x.mailbox with result := r, rlen := rsp.length, rsp := if rsp = [] then x.mailbox.rsp else rsp } })

/-- The slot that did not boot. -/
def otherSlot (s : State) : Nat := 1 - s.mgmt.slot

/-- FW_CHUNK: firmware bytes into the slot that did not boot (15 R458). -/
def mbChunk (s : State) (h : Nat) : State :=
  let n := (hport s h).mailbox.len
  let off := leNat (mbReq s h 0 4)
  let data := mbReq s h 4 (n - 4)
  if n < 4 ∨ 80 * 2 ^ 20 < off + data.length then mbResult s h 3 []
  else if s.pins.pwrfail then mbResult s h 5 []
  else
    let i := otherSlot s
    let w (b : FwSlot) : FwSlot :=
      { b with factory := false, verified := false
               bytes := (data.zipIdx).foldl (fun m c => mput m (off + c.2) c.1) b.bytes }
    mbResult (updMgmt s (fun x => { x with fw := mset x.fw {} i (w (mget x.fw {} i)) })) h 0 []

/-- FW_VERIFY. -/
def mbVerify (s : State) (h : Nat) : State :=
  let i := otherSlot s
  if slotCheck s i = 0 then
    mbResult (updMgmt s (fun x => { x with fw := mset x.fw {} i { mget x.fw {} i with verified := true } })) h 0 []
  else mbResult s h 4 []

/-- FW_ACTIVATE. -/
def mbActivate (s : State) (h : Nat) : State :=
  let i := otherSlot s
  if (fwSlot s i).verified then mbResult (updMgmt s (fun x => { x with bootPref := i })) h 0 []
  else mbResult s h 5 []

/-- SVN_MIN raised to the SVN of the booted slot; it never decreases (15 R457). -/
def commitSvn (s : State) : State :=
  { s with fuses := { s.fuses with svnMin := s.fuses.svnMin ||| BitVec.ofNat 64 (2 ^ s.mgmt.svn - 1) } }

/-- DUMP_READ; a byte of the store that no dump has written reads 0 (DESIGN CHOICE, log 41). -/
def mbDumpRead (s : State) (h : Nat) : State :=
  let off := leNat (mbReq s h 0 8)
  let n := leNat (mbReq s h 8 4)
  if 4096 < n ∨ storeSize < off + n then mbResult s h 3 []
  else mbResult s h 0 (sub s.faults.dump.store off n)

/-- The command that MB_CMD names (17 R491). -/
def mbCommand (s : State) (h : Nat) : State :=
  let c := (hport s h).mailbox.cmd
  if c < 0x0101 ∨ 0x0105 < c then mbResult s h 3 []
  else if !isOwner s h then mbResult s h 2 []
  else match c with
    | 0x0101 => mbChunk s h
    | 0x0102 => mbVerify s h
    | 0x0103 => mbActivate s h
    | 0x0104 => mbResult (commitSvn s) h 0 []
    | _ => mbDumpRead s h

/-- MB_GO written: ignored and recorded while a command runs; BUSY while no controller answers (15 R440). -/
def mbGo (s : State) (h : Nat) : State :=
  if (hport s h).mailbox.busy then writeIgnored s h 0x0000108 1 4
  else if !speushUp s then mbResult s h 1 []
  else mbCommand s h

/-- A mailbox row: MB_GO while MB_CMD names the row's command, or none of the list. -/
def mbRow (s : State) (h c : Nat) : State :=
  let now := (hport s h).mailbox.cmd
  if now = c ∨ now < 0x0101 ∨ 0x0105 < now then hostWrite s h 0x0000108 1 (fun s => mbGo s h) else s

/-- FW_CHUNK. -/
def execFwChunk (hp : HostId) (s : State) : Ans := done s (mbRow s hp 0x0101)

/-- FW_VERIFY. -/
def execFwVerify (hp : HostId) (s : State) : Ans := done s (mbRow s hp 0x0102)

/-- FW_ACTIVATE. -/
def execFwActivate (hp : HostId) (s : State) : Ans := done s (mbRow s hp 0x0103)

/-- SVN_COMMIT by the mailbox. -/
def execMbSvnCommit (hp : HostId) (s : State) : Ans := done s (mbRow s hp 0x0104)

/-- DUMP_READ. -/
def execDumpRead (hp : HostId) (s : State) : Ans := done s (mbRow s hp 0x0105)

/-! ### Outside protocols (15 R450, R460) -/

/-- The bytes of an answer that an outside standard lays out: free values (log 8). -/
def protocolAnswer (k : Nat) : Bytes := (upto 0 (Config.protocolLength k).toNat).map (fun o => Config.protocolByte (4096 * k + o))

/-- MCTP_REQUEST: answered by Speush. What PLDM Type 5 writes into a slot has the encoding of an outside standard and is
left out (log 42). -/
def execMctpRequest (_req : Bytes) (s : State) : Ans :=
  let (k, t) := fresh s
  done s (if speushUp s then emit t (.mctp (protocolAnswer k)) else s)

/-- The data object type of a DOE request of vendor 0x0001 (PRESUMED, log 42): 0 Discovery, 1 CMA-SPDM, 2 Secured SPDM, in
which IDE_KM messages come too. -/
def doeType (req : Bytes) : Option Nat := if leAt req 0 2 = 1 ∧ leAt req 2 1 ≤ 2 then some (leAt req 2 1) else none

/-- The answer to a DOE Discovery request: the protocol of its index and the next index (PRESUMED, log 42). -/
def doeDiscovery (req : Bytes) : Bytes :=
  let i := leAt req 8 1
  leBytes 2 1 ++ zeros 2 ++ leBytes 4 3 ++
    (if i ≤ 2 then leBytes 2 1 ++ leBytes 1 i ++ leBytes 1 (if i < 2 then i + 1 else 0) else leBytes 2 0xFFFF ++ zeros 2)

/-- What a message in a secured session does (R226, R227, R460): it may end a session, and IDE_KM may key the stream and
choose what it covers, as its standard says: free values (log 42). -/
def securedMessage (x : HostPort) (k : Nat) : HostPort :=
  let f (i : Nat) : Nat := (Config.protocolByte (4096 * k + i)).toNat
  { x with
    sessions := x.sessions - f 4094 % 2
    ide := if f 4095 % 3 = 0 then .secure else if f 4095 % 3 = 1 then .off else x.ide
    ideAll := if f 4095 % 3 = 0 then (f 4093).testBit 0 else x.ideAll }

/-- DOE_REQUEST by its protocol (08 R226; 15 R460): Discovery is answered; an SPDM request has a free answer and may open a
session, at most four; Secured SPDM needs a session. A request of another type has no answer. -/
def doeRequest (s : State) (h : Nat) (req : Bytes) : State :=
  if (hpPart s h).isSome && hostUp s h then
    let (k, t) := fresh s
    let opens := (Config.protocolByte (4096 * k + 4094)).toNat % 2
    match doeType req with
    | some 0 => emit s (.doe h (doeDiscovery req))
    | some 1 => emit (updHp t h (fun x => { x with sessions := min 4 (x.sessions + opens) })) (.doe h (protocolAnswer k))
    | some _ => if (hport s h).sessions = 0 then s else emit (updHp t h (fun x => securedMessage x k)) (.doe h (protocolAnswer k))
    | none => s
  else s

/-- DOE_REQUEST. -/
def execDoeRequest (hp : HostId) (req : Bytes) (s : State) : Ans := done s (if speushUp s then doeRequest s hp req else s)

end Sys2Proof.Machine
end

