-- ==== Sys2Proof/Machine/RegRead.lean ====
section
/-! DEFINITION. What a 32-bit read of BAR0 returns (17_register_interface.md R481 to R504, and the register tables of the
other chapters). An entry of a unit or partition that is not the reader's reads 0 (15 R463), a reserved offset reads 0
(00 R12). -/

namespace Sys2Proof.Machine

/-- Word `i` of a 64-bit value: 0 low, 1 high. -/
def half (v i : Nat) : Nat := v / 2 ^ (32 * i) % 2 ^ 32

/-- The 32-bit little-endian word at byte offset `o` of a string. -/
def wordAt (bs : Bytes) (o : Nat) : Nat := leAt bs o 4

/-- RELEASE of the booted slot: major, minor and patch (15 R454). -/
def fwRelease (s : State) : Bytes := fwBytesAt s s.mgmt.slot 0x20 6

/-- The identity block (R486). -/
def identWord (s : State) (h p off : Nat) : Nat :=
  match off with
  | 0x00 => 0x1152 + s.fuses.stepping * 2 ^ 16
  | 0x04 => half s.fuses.serial 0
  | 0x08 => half s.fuses.serial 1
  | 0x0C => s.pmode + p * 4 + h * 16 + b2n (isOwner s h) * 64 + lcores s * 256 + nstacks s * 2 ^ 16 + (partPorts s p).length * 2 ^ 20
  | 0x10 => (jvRange s).1 + (jvRange s).2 * 256 + 2 ^ 16
  | 0x14 => wordAt (fwRelease s) 0
  | 0x18 => leAt (fwRelease s) 4 2
  | 0x20 => half (uptimeNs s) 0
  | 0x24 => half (uptimeNs s) 1
  | 0x28 => b2n (isReady s) + 2 * b2n (s.pins.stage == .recovery) + 4 * b2n (passed s p)
  | _ => 0

/-- UNLOCK and the indirect registers (R484, R487); IND_DATA has an effect and is read by its own row. -/
def indWord (s : State) (h off : Nat) : Nat :=
  let x := hport s h
  match off with
  | 0x040 => b2n x.armed
  | 0x100 => half x.indAddr 0
  | 0x104 => half x.indAddr 1
  | 0x10C => b2n x.autoInc + x.indErr * 16
  | _ => 0

/-- CORE_PSTATE (01 R30). -/
def corePState (s : State) (c : Nat) : Nat :=
  if smem s.retiredCores c then 2
  else match logicalOf s c with
    | some l => 1 + 4 * l
    | none => 0

/-- CORE_MAP (01 R29). -/
def coreMapWord (s : State) (l : Nat) : Nat := physOf s l + 256 * b2n (physOf s l / 32 != defaultPhys l / 32)

/-- SVN_MIN and the boot bits (15 R468). -/
def bootWord (s : State) : Nat :=
  s.mgmt.slot + 2 * b2n s.mgmt.prefFailed + 4 * s.mgmt.primary + 8 * b2n s.mgmt.standbyOk + 16 * b2n s.mgmt.fail +
  s.mgmt.svn * 256 + svnMin s * 2 ^ 16

/-- HB_AGE: ms since the later heartbeat, saturating (15 R468). -/
def hbAge (s : State) : Nat :=
  match s.mgmt.hbTime with
  | [] => 0xFFFF
  | ts => min ((uptimeNs s - ts.foldl (fun a t => max a t.2) 0) / 1000000) 0xFFFF

/-- The partition and host port block (R499; 01 R29, R30; 15 R468; 18 R522). -/
def partWord (s : State) (h p off : Nat) : Nat :=
  let i := (off - 0x0010000) / 4
  if 0x0010200 ≤ off ∧ off < 0x0010400 then half (ecOf s p ((off - 0x0010200) / 8)) (i % 2)
  else if 0x0010800 ≤ off ∧ off < 0x00109E0 then
    let l := (off - 0x0010800) / 4
    if lcorePart s l = p then coreMapWord s l else 0
  else if 0x0010A00 ≤ off ∧ off < 0x0010C00 then
    let c := (off - 0x0010A00) / 4
    if coreOwner s c = p then corePState s c else 0
  else if 0x0010C18 ≤ off ∧ off < 0x0010C28 then
    let w := (off - 0x0010C18) / 4
    ofBits ((s.frozenCores.filter (fun l => l / 32 == w && lcorePart s l == p)).map (· % 32))
  else if 0x0010C50 ≤ off ∧ off < 0x0010C70 then 0
  else match off with
    | 0x0010000 => s.mgmt.pmodeNext
    | 0x0010004 => regW s (.part p) off
    | 0x0010008 => regW s (.hp h) off
    | 0x001000C => regW s (.hp h) off
    | 0x0010010 => (part s p).pstate * 16 + (part s p).barFail * 256
    | 0x0010018 => regW s (.part p) off
    | 0x001001C => regW s (.part p) off
    | 0x0010C00 => s.mgmt.owner + s.mgmt.ownerNext * 16
    | 0x0010C04 => ofBits ((List.range 4).filter (fun x => (hport s x).frozen))
    | 0x0010C08 => bootWord s
    | 0x0010C0C => s.mgmt.bootPref
    | 0x0010C10 => ofBits ((List.range 32).filter (fun q => (queue s h q).state == 3))
    | 0x0010C14 => ofBits ((List.range 32).filter (fun q => (queue s h (32 + q)).state == 3))
    | 0x0010C74 => mget s.mgmt.mup 0 0 + 2 * mget s.mgmt.mup 0 1 + hbAge s * 2 ^ 16
    | 0x0010C78 => s.mgmt.authFail
    | 0x0010C7C => s.mgmt.drop
    | _ =>
      if (0x0010100 ≤ off ∧ off < 0x0010180) ∨ off = 0x0010C40 ∨ off = 0x0010C44 ∨ off = 0x0010C48 ∨ off = 0x0010C70 then
        regW s .dev off
      else 0

/-- The registers of a queue (08 R228). -/
def queueWord (s : State) (h q o : Nat) : Nat :=
  let x := queue s h q
  match o with
  | 0x00 => half x.sqBase 0
  | 0x04 => half x.sqBase 1
  | 0x08 => half x.cqBase 0
  | 0x0C => half x.cqBase 1
  | 0x10 => x.ringsz + x.iv * 2 ^ 20 + b2n x.ien * 2 ^ 31
  | 0x14 => x.coalCnt + x.coalTime * 2 ^ 16
  | 0x18 => b2n x.en + x.gen * 2 ^ 8 + x.state * 2 ^ 16 + x.stopwhy * 2 ^ 19 + x.estatus * 2 ^ 24
  | 0x1C => x.sqHead + inflight s h q * 2 ^ 16
  | 0x20 => x.cqNext + b2n x.phase * 2 ^ 16
  | _ => 0

/-- The interrupt block (R497). -/
def irqWord (s : State) (h off : Nat) : Nat :=
  match off with
  | 0x0049000 => regW s (.hp h) off
  | 0x0049004 => (hport s h).asyncCause
  | 0x0049008 => (hport s h).asyncMask
  | _ => if off < 0x0048000 ∨ (0x0048000 ≤ off ∧ off < 0x0048100) then msixW s h (off - 0x0040000) else 0

/-- Average leading in force of a partition's galleys (14 R438). -/
def partLead (s : State) (p : Nat) : Nat :=
  let gs := partGalleys s p
  gs.foldl (fun a g => a + mget s.power.total 0 g) 0 / gs.length

/-- The power and thermal block (14 R438), at its offset. GRANTED reads 0: grants are timing (log 39). -/
def powerWord (s : State) (p o : Nat) : Nat :=
  let x := s.power
  if 0x100 ≤ o ∧ o < 0x220 then mget x.sensors 0 ((o - 0x100) / 4)
  else if 0x240 ≤ o ∧ o < 0x280 then mget x.total 0 ((o - 0x240) / 4)
  else if 0x060 ≤ o ∧ o < 0x070 then
    let q := (o - 0x060) / 4
    if q = p then opRequested s p + opInForce s p * 16 + opDef s p * 256 + partLead s p * 2 ^ 16 else 0
  else if 0x008 ≤ o ∧ o < 0x018 then
    let q := (o - 0x008) / 4
    mget x.staged 0 q + mget x.share 0 q * 2 ^ 16
  else match o with
    | 0x080 => x.target + x.meas * 2 ^ 16
    | 0x084 => x.pEst % 2 ^ 12 + x.iEst % 2 ^ 12 * 2 ^ 16
    | 0x088 => x.gain
    | 0x08C => x.stat
    | 0x090 => x.droops
    | _ =>
      if o = 0x000 ∨ o = 0x004 ∨ (0x018 ≤ o ∧ o < 0x02C) ∨ (0x040 ≤ o ∧ o < 0x060) then regW s .dev (0x0080000 + o) else 0

/-- A health-score word (13 R415). -/
def healthWord (s : State) (u : Nat) : Nat := scoreOf s u + 1024 * b2n (observed s u) + 2048 * b2n (unitRetired s u)

/-- STICKY_SUM (R496). -/
def stickySum (s : State) (h p : Nat) : Nat :=
  b2n (regW s (.hp h) 0x00C0000 != 0) + 2 * b2n (regW s (.part p) 0x00C0004 != 0) + 4 * b2n (regW s .dev 0x00C0008 != 0) +
  8 * b2n ((partPorts s p).any (fun j => (port s j).err != 0)) + 16 * b2n (s.power.stat != 0) + 32 * b2n s.mgmt.fail

/-- The error and sticky status block (R496; 13 R415). -/
def faultWord (s : State) (h p off : Nat) : Nat :=
  let d := s.faults.dump
  if 0x00C1000 ≤ off ∧ off < 0x00C1200 then healthWord s (ucCore ((off - 0x00C1000) / 4))
  else if 0x00C1200 ≤ off ∧ off < 0x00C1800 then healthWord s (ucChannel ((off - 0x00C1200) / 4))
  else if 0x00C1800 ≤ off ∧ off < 0x00C1880 then healthWord s (ucPort ((off - 0x00C1800) / 4))
  else if 0x00C1880 ≤ off ∧ off < 0x00C18B0 then healthWord s (ucEngine ((off - 0x00C1880) / 4))
  else match off with
    | 0x00C0000 => regW s (.hp h) off
    | 0x00C0004 => regW s (.part p) off
    | 0x00C0008 => regW s .dev off
    | 0x00C000C => stickySum s h p
    | 0x00C0800 => regW s .dev off
    | 0x00C0804 => regW s .dev off
    | 0x00C0808 => s.faults.starved
    | 0x00C080C => regW s .dev off
    | 0x00C0810 => regW s (.hp h) off
    | 0x00C0814 => regW s .dev off
    | 0x00C0818 => regW s .dev off
    | 0x00C081C => regW s .dev off
    | 0x00C0840 => b2n s.faults.oos + 2 * min (recoveries s).length 4
    | 0x00C0880 => regW s .dev off
    | 0x00C0884 => d.state + (match d.causes with
        | c :: _ => c.2.1
        | [] => 0) * 256 + d.skipped * 2 ^ 16
    | 0x00C0888 => d.seq
    | _ => 0

/-- The event recorder (16 R480), at its offset. A flush or a lookup is whole, so FLUSHING and RD_BUSY read 0 (log 21). -/
def evrWord (s : State) (h o : Nat) : Nat :=
  let x := s.evr
  let oldest := match recordsInOrder s with
    | e :: _ => e.seq
    | [] => 0
  if 0x040 ≤ o ∧ o < 0x080 then wordAt (hport s h).rdRecord (o - 0x040)
  else match o with
    | 0x000 => b2n x.frozen + 4 * x.minSev
    | 0x004 => b2n x.frozen + 4 * b2n (x.flash.length == flashSlots) + x.pending.length * 2 ^ 16
    | 0x008 => half x.seqNext 0
    | 0x00C => half x.seqNext 1
    | 0x010 => half oldest 0
    | 0x014 => half oldest 1
    | 0x018 => x.dropped
    | 0x01C => x.frozenCnt
    | 0x020 => x.flash.length
    | 0x024 => regW s .dev 0x0100024
    | 0x030 => half (hport s h).rdSeq 0
    | 0x034 => half (hport s h).rdSeq 1
    | 0x038 => (hport s h).rdStat
    | _ => 0

/-- The step and proof registers of a partition (11 R360), at their offset. -/
def proofWord (s : State) (p o : Nat) : Nat :=
  let x := proof s p
  let i := o / 4 % 2
  match o / 8 * 8 with
  | 0x000 =>
    if i = 0 then x.w + 8 * x.wNext + 256 * x.sampleK + 4096 * b2n x.observe
    else x.slice + 16 * x.lastReason + 4096 * x.phase + 2 ^ 15 * b2n x.openStep.isSome + 2 ^ 16 * x.lastRound
  | 0x008 => half (x.openStep.getD 0) i
  | 0x010 => half x.lastComputed i
  | 0x018 => half x.lastProven i
  | 0x020 => half x.lastRetired i
  | 0x028 => regW s (.part p) (0x0200000 + o)
  | 0x030 => if i = 0 then (x.strikeTimes.filter (fun t => decide (uptimeNs s < t + 3600000000000))).length else 0
  | 0x040 => half x.sampled i
  | 0x048 => half x.sampleSkipped i
  | 0x050 => half x.sampleMismatch i
  | 0x058 => half x.stopsSent i
  | 0x060 => half x.stopsAccepted i
  | 0x068 => half x.restarts i
  | _ => 0

/-- HSFRZ of a partition (10 R327). -/
def hsFrozen (s : State) (p : Nat) : Nat :=
  ofBits ((List.range 4).filter (fun k => portPart s (28 + k) == some p && (port s (28 + k)).frozen))

/-- The transport registers of a partition (10 R327), at their offset from 0x020_4000. -/
def xportWord (s : State) (p o : Nat) : Nat :=
  let x := xport s p
  let i := o / 4 % 2
  let imp (f : Imposition → Nat) : Nat := match x.imp with
    | some m => f m
    | none => 0
  match o / 8 * 8 with
  | 0x000 => if i = 0 then half x.impVa 0 else half x.impVa 1 + 2 ^ 16 * b2n x.arm
  | 0x008 => if i = 0 then x.result else imp (·.slice)
  | 0x010 =>
    if i = 0 then x.epoch + x.reprint * 2 ^ 16
    else x.rank + 2 ^ 16 * imp (fun m => match m.ranks[x.rank]? with
      | some e => e.facing
      | none => 0)
  | 0x018 => if i = 0 then imp (fun m => m.ranks.length) else 0
  | 0x020 => half (imp (·.crc)) i
  | 0x028 => if i = 0 then x.active else 0
  | 0x030 => regW s (.part p) (0x0204000 + o)
  | 0x038 => if i = 0 then hsFrozen s p else regW s (.part p) 0x020403C
  | 0x040 => half x.dropType i
  | 0x048 => half x.dropAddr i
  | 0x050 => half x.dropTag i
  | 0x058 => half x.dropGen i
  | 0x060 => half x.heldGen i
  | 0x068 => half x.refused i
  | 0x070 => half x.xpNan i
  | 0x078 => half x.xpInf i
  | 0x080 => half x.xpSat i
  | _ => 0

/-- The snapshot registers of a partition (12 R385), at their offset. -/
def snapWord (s : State) (p o : Nat) : Nat :=
  let x := snap s p
  let off := 0x0300000 + o
  if 0x040 ≤ o ∧ o < 0x0A0 then
    let k := (o - 0x040) / 8
    if o % 8 = 0 ∧ stackPart s k = p then regW s (.part p) off else 0
  else if 0x100 ≤ o ∧ o < 0x300 then
    let r := mget x.rq (0, 0, 0) ((o - 0x100) / 8)
    if o % 8 = 0 then r.1 + r.2.1 * 2 ^ 16 else r.2.2
  else if 0x300 ≤ o ∧ o < 0x340 then (if x.a.state = 3 then wordAt (commitRecord s p 0 x.a) (o - 0x300) else 0)
  else if 0x340 ≤ o ∧ o < 0x380 then (if x.b.state = 3 then wordAt (commitRecord s p 1 x.b) (o - 0x340) else 0)
  else match o with
    | 0x000 => regW s (.part p) off
    | 0x004 =>
      x.a.state + 8 * x.b.state + 64 * (newestSlot s p).getD 0 + 128 * b2n (draining s p 0) + 256 * b2n (draining s p 1) +
      512 * b2n x.armed + x.drainStatus * 2 ^ 16
    | 0x008 => x.skipped
    | 0x018 => regW s (.part p) off
    | 0x01C => regW s (.part p) off
    | 0x020 => regW s (.part p) off
    | _ => 0

/-- The registers of a lane (09 R292), at their offset from the lane's. -/
def laneWord (l : Lane) (o : Nat) : Nat :=
  match o with
  | 0x00 => l.lstate + 4 * l.rtc + l.eye * 2 ^ 16
  | 0x08 => half l.cwCorr 0
  | 0x0C => half l.cwCorr 1
  | 0x10 => half l.cwUncorr 0
  | 0x14 => half l.cwUncorr 1
  | 0x18 => half l.symCorr 0
  | 0x1C => half l.symCorr 1
  | 0x20 => l.ber.toNat
  | _ => 0

/-- The registers of a port (09 R292), at their offset. -/
def jilanWord (s : State) (p j o : Nat) : Nat :=
  let x := port s j
  let peer (f : IdentMsg → Nat) : Nat := match x.peer with
    | some m => f m
    | none => 0
  let want : Option PeerEntry := match (xport s p).imp with
    | some m => m.ports[j]?
    | none => none
  let i := o / 4 % 2
  if 0x040 ≤ o ∧ o < 0x088 then half ((portCounters x).getD ((o - 0x040) / 8) 0) i
  else if 0x100 ≤ o ∧ o < 0x300 then laneWord (mget x.lanes {} ((o - 0x100) / 0x40)) ((o - 0x100) % 0x40)
  else if 0x300 ≤ o ∧ o < 0x380 then
    let v := (o - 0x300) / 0x10
    match o % 0x10 with
    | 0x0 => mget x.link.credit 0 v - heldByPeer x.link v
    | 0x8 => half (mget x.stall 0 v) 0
    | 0xC => half (mget x.stall 0 v) 1
    | _ => 0
  else match o with
    | 0x000 => jpCfg s j
    | 0x004 => x.state + x.qreason * 16 + x.width * 256 + x.version * 4096
    | 0x008 => x.activeLanes.toNat + x.standby.toNat * 256 + x.retired.toNat * 2 ^ 16
    | 0x00C => regW s .dev (unretireOff j)
    | 0x010 => peer (fun m => m.id + m.port * 2 ^ 24)
    | 0x014 => peer (fun m => m.kind + m.vmin * 2 ^ 8 + m.vmax * 2 ^ 16 + m.role % 4 * 2 ^ 24)
    | 0x018 => peer (·.slice)
    | 0x01C => peer (·.epoch)
    | 0x020 => peer (fun m => wordAt m.colophon 0)
    | 0x024 => peer (fun m => wordAt m.colophon 4)
    | 0x028 => peer (fun m => wordAt m.colophon 8)
    | 0x030 => match want with
      | some e => e.id + e.port * 2 ^ 24
      | none => 0
    | 0x034 => match want with
      | some e => e.kind
      | none => 0xFF
    | 0x038 => x.err
    | _ => 0

/-- The memory and translation block (R501), at its offset. -/
def memWord (s : State) (p o : Nat) : Nat :=
  let off := 0x0800000 + o
  let x := part s p
  if 0x040 ≤ o ∧ o < 0x060 then regW s .dev off
  else if 0x100 ≤ o ∧ o < 0x18C then
    let w := (o - 0x100) / 4
    ofBits ((List.range 32).filter (fun b => decide (32 * w + b < 1104) && regionRanged s (32 * w + b)))
  else if 0x200 ≤ o ∧ o < 0x220 then regW s .dev off
  else if 0x300 ≤ o ∧ o < 0x3D0 then wordAt x.sctData.bytes (o - 0x300)
  else if 0x400 ≤ o ∧ o < 0x460 then
    let k := (o - 0x400) / 8
    if o % 8 = 0 ∧ stackPart s k = p then regW s .dev off else 0
  else if 0x540 ≤ o ∧ o < 0x570 then
    let k := (o - 0x540) / 4
    if stackPart s k = p then (stack s k).temp + (stack s k).admitA * 2 ^ 16 + b2n (stack s k).selfRefresh * 2 ^ 24 else 0
  else if 0x2000 ≤ o ∧ o < 0x6000 then
    let e := (o - 0x2000) / 4
    if e / (4096 / nparts s) = p then channelTableE s e + 2 ^ 31 else 0
  else if 0x6000 ≤ o ∧ o < 0x6600 then
    let i := (o - 0x6000) / 4
    if stackPart s (i / 32) = p then (channel s i).state + (channel s i).remapped * 2 ^ 16 else 0
  else if 0x8000 ≤ o ∧ o < 0x10000 then
    match x.plog[(o - 0x8000) / 8]? with
    | some pa => half (pa + 2 ^ 63) (o / 4 % 2)
    | none => 0
  else if 0x10000 ≤ o ∧ o < 0x40000 then
    let k := (o - 0x10000) / 0x4000
    if stackPart s k = p then stackMapE s k ((o - 0x10000) % 0x4000 / 4) + 2 ^ 31 else 0
  else match o with
    | 0x014 => x.ttStatus + 256 * b2n x.tt.isSome
    | 0x028 => half (tte s p (regF s (.part p) 0x0800020 0 28)).toNat 0
    | 0x02C => half (tte s p (regF s (.part p) 0x0800020 0 28)).toNat 1
    | 0x250 => x.sctStatus
    | 0x500 => regW s .dev off
    | 0x504 => regW s .dev off
    | 0x600 => x.plog.length + b2n x.plogOvf * 2 ^ 16
    | _ =>
      if o < 0x010 ∨ o = 0x020 ∨ (0x240 ≤ o ∧ o < 0x24C) ∨ o = 0x480 ∨ (0x490 ≤ o ∧ o < 0x4A0) then regW s (.part p) off else 0

/-- A word of BAR0 below the bit-alias region, as host port `h` of partition `p` reads it. -/
def plainWord (s : State) (h p off : Nat) : Nat :=
  if off < 0x040 then identWord s h p off
  else if off < 0x110 then indWord s h off
  else if 0x0010000 ≤ off ∧ off < 0x0011000 then partWord s h p off
  else if 0x0020000 ≤ off ∧ off < 0x0024000 then queueWord s h ((off - 0x0020000) / 256) (off % 256)
  else if 0x0040000 ≤ off ∧ off < 0x0049010 then irqWord s h off
  else if 0x0080000 ≤ off ∧ off < 0x0080300 then powerWord s p (off - 0x0080000)
  else if 0x00C0000 ≤ off ∧ off < 0x00C2000 then faultWord s h p off
  else if 0x0100000 ≤ off ∧ off < 0x0100080 then evrWord s h (off - 0x0100000)
  else if 0x0200000 ≤ off ∧ off < 0x0200070 then proofWord s p (off - 0x0200000)
  else if 0x0204000 ≤ off ∧ off < 0x0204100 then xportWord s p (off - 0x0204000)
  else if 0x0300000 ≤ off ∧ off < 0x0300380 then snapWord s p (off - 0x0300000)
  else if 0x0400000 ≤ off ∧ off < 0x0420000 then
    let j := (off - 0x0400000) / 0x1000
    if portPart s j = some p then jilanWord s p j (off % 0x1000) else 0
  else if 0x0800000 ≤ off ∧ off < 0x0840000 then memWord s p (off - 0x0800000)
  else 0

/-! ### The bit-alias region (R492, R493) -/

/-- Whether an offset lies in a block that the region covers: "Aliased" of R481. -/
def aliased (o : Nat) : Bool :=
  decide (o < 0x40) || o == 0x10C || (decide (0x0010000 ≤ o) && decide (o < 0x0011000)) ||
  (decide (0x0020000 ≤ o) && decide (o < 0x0024000)) || (decide (0x0049000 ≤ o) && decide (o < 0x0049010)) ||
  (decide (0x0080000 ≤ o) && decide (o < 0x0080300)) || (decide (0x00C0000 ≤ o) && decide (o < 0x00C2000))

/-- The register offset and the bit of an alias address. -/
def aliasOf (a : Nat) : Nat × Nat :=
  let v := (a - 0x2000000) / 4
  (v / 32 * 4, v % 32)

/-- A word of BAR0. -/
def readWord (s : State) (h p off : Nat) : Nat :=
  if 0x2000000 ≤ off then
    let (o, b) := aliasOf off
    if aliased o then natFld (plainWord s h p o) b 1 else 0
  else plainWord s h p off

/-! ### 64-bit counters and UPTIME (09 R292; R486) -/

/-- Whether the read of a word latches the high word of a 64-bit value: UPTIME, the counters of a port and its lanes, the
64-bit fields of 11 R360, the counters of 10 R327. -/
def latches (off : Nat) : Bool :=
  off == 0x20 ||
  (off % 8 == 0 &&
    ((decide (0x0200008 ≤ off) && decide (off < 0x0200028)) || (decide (0x0200040 ≤ off) && decide (off < 0x0200070)) ||
     (decide (0x0204040 ≤ off) && decide (off < 0x0204088)) ||
     (decide (0x0400000 ≤ off) && decide (off < 0x0420000) &&
       (let o := off % 0x1000
        (decide (0x040 ≤ o) && decide (o < 0x088)) ||
        (decide (0x100 ≤ o) && decide (o < 0x300) && o % 0x40 != 0 && o % 0x40 != 0x20 && decide (o % 0x40 < 0x20)) ||
        (decide (0x300 ≤ o) && decide (o < 0x380) && o % 0x10 == 8)))))

/-- A 32-bit read with its latch: the word answered, and the state after it. -/
def latchRead (s : State) (h p off : Nat) : Nat × State :=
  if latches off then
    (readWord s h p off, updHp s h (fun x => { x with latch := readWord s h p (off + 4), latchOff := off }))
  else if 4 ≤ off ∧ latches (off - 4) ∧ (hport s h).latchOff = off - 4 ∧ (hport s h).latchOff ≠ 0 then ((hport s h).latch, s)
  else (readWord s h p off, s)

end Sys2Proof.Machine
end

