-- ==== Sys2Proof/Machine/Regs.lean ====
section
/-! DEFINITION. Writes of BAR0 (00 R11, R12, R14; 08 R223; 15 R463, R464; 17_register_interface.md R481 to R504): the
writable fields of every word, the gates of a write, and the bit-alias region. -/

namespace Sys2Proof.Machine

/-! ### Fields -/

/-- Access codes with a write effect (00 R11). A WO field "keyed" is keyed as an RWK field is (R485). -/
inductive Acc where
  /-- RW. -/
  | rw
  /-- RWK. -/
  | rwk
  /-- W1C. -/
  | w1c
  /-- WO. -/
  | wo
  /-- WO, keyed: written by a 1 alone (DEDUCED from R493: a 0 is ignored; log 43). -/
  | wok
  /-- WO, keyed, whose whole value is the command. -/
  | wov
  deriving DecidableEq, Repr

/-- Whether a code is keyed. -/
def Acc.keyed (a : Acc) : Bool := a == .rwk || a == .wok || a == .wov

/-- Whether the field is written by its value `x`: a trigger by a 1 alone. -/
def Acc.hit (a : Acc) (x : Nat) : Bool := match a with
  | .wo => x != 0
  | .wok => x != 0
  | _ => true

/-- A writable field of a word, or several that the spec accepts together. -/
structure RegFld where
  /-- Lowest bit. -/
  lo : Nat
  /-- Its bits, from `lo`. -/
  mask : Nat
  /-- Access. -/
  acc : Acc
  /-- Value that a bit-alias write changes one bit of. -/
  now : State → Nat
  /-- Whether a value lies in the field's range: else cause 2, or 3 for an overlap (16 R472); 0 where it does. -/
  range : State → Nat → Nat
  /-- Whether the state takes a write: else cause 0; 4 for busy, and 5 where it does. -/
  gate : State → Nat → Nat
  /-- The write's effect. -/
  put : State → Nat → State

/-- Who may write a word (15 R463). -/
inductive RegScope where
  /-- The port's own registers and those of its partition. -/
  | own
  /-- Device-global: the owner host port. -/
  | owner
  /-- A register of a unit or partition: the host port of partition `q`. -/
  | unit (q : Option Nat)
  deriving DecidableEq, Repr

/-- A word with writable fields. -/
structure RegWord where
  /-- Scope. -/
  scope : RegScope
  /-- Fields in ascending order. -/
  fields : List RegFld

/-- Any value. -/
def anyV : State → Nat → Nat := fun _ _ => 0
/-- A value from `lo` to `hi`. -/
def within (lo hi : Nat) : State → Nat → Nat := fun _ v => if lo ≤ v ∧ v ≤ hi then 0 else 2
/-- Always. -/
def open_ : State → Nat → Nat := fun _ _ => 5
/-- Before partition `p` passes its start-up barrier (R483). -/
def early (p : Nat) : State → Nat → Nat := fun s _ => if passed s p then 0 else 5
/-- Before any partition passes its start-up barrier (R483). -/
def earlyAll : State → Nat → Nat := fun s _ => if anyPassed s then 0 else 5

/-- A field held in `State.regs`. -/
def kept (i : RegInst) (off lo w : Nat) (acc : Acc) (range gate : State → Nat → Nat) : RegFld :=
  { lo := lo, mask := 2 ^ w - 1, acc := acc, now := fun s => regF s i off lo w, range := range, gate := gate
    put := fun s v => setRegF s i off lo w v }

/-- Fields of a word that the spec accepts together, held in `State.regs`. -/
def keptMask (i : RegInst) (off mask : Nat) (acc : Acc) (range gate : State → Nat → Nat) : RegFld :=
  { lo := 0, mask := mask, acc := acc, now := fun s => regW s i off &&& mask, range := range, gate := gate
    put := fun s v => setReg s i off v }

/-- A field with a home and an effect of its own. -/
def fieldAt (lo w : Nat) (acc : Acc) (now : State → Nat) (put : State → Nat → State) : RegFld :=
  { lo := lo, mask := 2 ^ w - 1, acc := acc, now := now, range := anyV, gate := open_, put := put }

/-- Sticky bits [w − 1 : 0]. -/
def sticky (w : Nat) (now : State → Nat) (set : State → Nat → State) : RegFld :=
  { lo := 0, mask := 2 ^ w - 1, acc := .w1c, now := now, range := anyV, gate := open_
    put := fun s v => set s (now s &&& (2 ^ w - 1 - v % 2 ^ w)) }

/-! ### Ranges of the spec -/

/-- Whether a range of regions may be an area of stack `k` of partition `p` (07 R207): RANGED regions of the stack that no
valid entry maps; cause 3 where it may not. -/
def areaOk (s : State) (p k base n : Nat) : Bool :=
  (upto base n).all (fun r =>
    decide (r < 1104) && r / 92 == k && regionPart s r == p && regionRanged s r &&
    !s.ms.tt.any (fun c => tteValid c.2 && ttePpn c.2 / 2048 == r))

/-- An area given as BASE in [10:0] and REGIONS from bit 16, of at most `most` regions; in stack `k`, or in the stack of
its first region (08 R256; 11 R336). -/
def areaRange (p : Nat) (k : Option Nat) (most : Nat) : State → Nat → Nat := fun s v =>
  let base := natFld v 0 11
  let n := v / 2 ^ 16
  if most < n then 2 else if areaOk s p (k.getD (base / 92)) base n then 0 else 3

/-- Whether base and size pairs stay below `limit` and do not overlap (06 R157; 07 R199). -/
def rangesOk (limit : Nat) (rs : List (Nat × Nat)) : Bool :=
  rs.all (fun r => decide (r.1 + r.2 ≤ limit) || r.2 == 0) &&
  rs.zipIdx.all (fun a => rs.zipIdx.all (fun b =>
    a.2 == b.2 || a.1.2 == 0 || b.1.2 == 0 || decide (a.1.1 + a.1.2 ≤ b.1.1) || decide (b.1.1 + b.1.2 ≤ a.1.1)))

/-- The contexts of the mode's partitions with partition `q`'s base or size replaced. -/
def ctxRange (q : Nat) (size : Bool) : State → Nat → Nat := fun s v =>
  let pair (p : Nat) : Nat × Nat :=
    if p = q then (if size then (ctxBase s p, v) else (v, ctxSize s p)) else (ctxBase s p, ctxSize s p)
  if rangesOk 2359296 ((List.range (nparts s)).map pair) then 0 else 3

/-- The scale-table ranges of the mode's partitions with one replaced; a size from 1 to 65,536. -/
def sctRange (q : Nat) (size : Bool) : State → Nat → Nat := fun s v =>
  let pair (p : Nat) : Nat × Nat :=
    if p = q then (if size then (sctBase s p, v) else (v, sctSize s p)) else (sctBase s p, sctSize s p)
  if size ∧ (v < 1 ∨ 65536 < v) then 2 else if rangesOk 65536 ((List.range (nparts s)).map pair) then 0 else 3

/-- The host-side window within the partition's context (10 R327). -/
def hsRange (p : Nat) (pages : Bool) : State → Nat → Nat := fun s v =>
  let base := if pages then regF s (.part p) 0x0204030 0 28 else v
  let n := if pages then v else regF s (.part p) 0x0204034 0 22
  if pages ∧ 2359296 < v then 2 else if n = 0 ∨ base + n ≤ ctxSize s p then 0 else 2

/-- START_STEP is not 0 (18 R522). -/
def startRange (p : Nat) (high : Bool) : State → Nat → Nat := fun s v =>
  let other := if high then regW s (.part p) 0x0010018 else regF s (.part p) 0x001001C 0 16
  if v = 0 ∧ other = 0 then 2 else 0

/-- An operating point: VCORE in [9:0], k in [20:16] (14 R423). -/
def opRange : State → Nat → Nat := fun s v =>
  let mv := natFld v 0 10
  let k := natFld v 16 5
  if 8 ≤ k ∧ k ≤ 16 ∧ 600 ≤ mv ∧ mv ≤ 850 ∧ vminOf s k ≤ mv then 0 else 2

/-- Whether a map with L`l` on P`c` keeps R24 (01). -/
def mapRange (p l : Nat) : State → Nat → Nat := fun s c =>
  let per := 128 / nparts s
  if (List.range 120).any (fun x => x != l && physOf s x == c) || smem s.retiredCores c || c / per != p then 2 else 0

/-- CORE_MAP is accepted while the partition has no step OPEN or COMPUTED and runs no program (01 R29). -/
def mapGate (p : Nat) : State → Nat → Nat := fun s _ =>
  if stepActive s p || s.launches.any (fun x => x.part == p && !x.running.isEmpty) then 0 else 5

/-- Queue settings are written while the queue is DISABLED with nothing in flight (08 R228). -/
def quiet (h q : Nat) : State → Nat → Nat := fun s _ => if (queue s h q).state = 0 ∧ inflight s h q = 0 then 5 else 0

/-- No update runs (R504). -/
def ttIdle (p : Nat) : State → Nat → Nat := fun s _ => if (part s p).tt.isSome then 4 else 5

/-! ### Effects -/

/-- JP_CFG.EN written (09 R292). -/
def putEn (s : State) (j v : Nat) : State :=
  let was := b2n (jpEn s j)
  let s := setRegF s .dev (0x0400000 + 0x1000 * j) 0 1 v
  if v = was then s else portEn s j (v == 1)

/-- PORT_ASSIGN written (R499, R500): a port that no started partition holds is DISABLED (09 R278). -/
def putAssign (s : State) (j v : Nat) : State :=
  let s := setReg s .dev (0x0010100 + 4 * j) v
  if mayEnable s j then tryEnable s j
  else if (port s j).state = 0 ∨ (port s j).state = 9 then s else toDisabled s j

/-- HSFRZ written: a 0 lifts the freeze of J(28 + k); a 1 leaves it (10 R325, R327). -/
def putHsfrz (s : State) (p v : Nat) : State :=
  (List.range 4).foldl (fun s k =>
    if portPart s (28 + k) == some p && !v.testBit k then updPort s (28 + k) (fun x => { x with frozen := false }) else s) s

/-- IMP_ARM written: in HOLD an armed image of a greater epoch loads (11 R355). -/
def putArm (s : State) (p v : Nat) : State :=
  let was := (xport s p).arm
  let s := updXport s p (fun x => { x with arm := v == 1 })
  if v = 1 ∧ !was then tryLeaveHold s p else s

/-- ASYNC_MASK written (R498): a bit from 0 to 1 while its cause is set sends ASYNC_IV once. -/
def putMask (s : State) (h v : Nat) : State :=
  let old := (hport s h).asyncMask
  let s := updHp s h (fun x => { x with asyncMask := v })
  if (bitsSet v 6).any (fun b => !old.testBit b && (hport s h).asyncCause.testBit b) then
    sendMsix s h (regF s (.hp h) 0x0049000 16 11)
  else s

/-- An MSI-X table word written: a vector whose mask bit is cleared sends its pending message (R498; PRESUMED, the PCI
Express specification; log 12). -/
def putMsix (s : State) (h o v : Nat) : State :=
  let v := if o % 16 = 12 then v % 2 else v
  let s := updHp s h (fun x => { x with msix := mset x.msix (msixReset o) o v })
  let n := o / 16
  let pba := 0x8000 + 4 * (n / 32)
  let w := msixW s h pba
  if o % 16 = 12 ∧ v = 0 ∧ w.testBit (n % 32) then
    sendMsix (updHp s h (fun x => { x with msix := mset x.msix 0 pba (w - 2 ^ (n % 32)) })) h n
  else s

/-- CORE_RESET (13 R398, R415). -/
def putCoreReset (s : State) (v : Nat) : State := coreDomain s (v % 128) 3

/-- DEV_RESET: WARM or COLD, COLD the wider (13 R398, R415). -/
def putDevReset (s : State) (h v : Nat) : State :=
  let planned := v.testBit 2
  if v.testBit 1 then coldNow s (ucHost h) 3 3 planned
  else if v.testBit 0 then resetWarm s (ucHost h) 3 3 planned
  else s

/-- What FRZ_LIFT names is in range (15 R468). -/
def liftRange : State → Nat → Nat := fun _ v =>
  let i := natFld v 0 12
  match natFld v 12 4 with
  | 1 => if i < 4 then 0 else 2
  | 2 => if i < 64 then 0 else 2
  | 3 => if i < 120 then 0 else 2
  | _ => 2

/-- Who may lift it (15 R466): the owner host port a host port's freeze; a queue's and a core's its partition's port. -/
def liftScope (s : State) (v : Nat) : RegScope :=
  let i := natFld v 0 12
  match natFld v 12 4 with
  | 1 => .owner
  | 3 => if i < 120 then .unit (some (lcorePart s i)) else .own
  | _ => .own

/-- Management configuration kept in flash (15 R452; log 84). -/
def putFlash (s : State) (f : Mgmt → Mgmt) : State := updMgmt s f

/-! ### The map -/

/-- Own words: UNLOCK and IND_DATA have rows of their own. -/
def indFields (h off : Nat) : List RegFld :=
  match off with
  | 0x100 => [{ fieldAt 0 32 .rw (fun s => half (hport s h).indAddr 0) (fun s v =>
      updHp s h (fun x => { x with indAddr := half x.indAddr 1 * 2 ^ 32 + v })) with mask := 0xFFFFFFFC }]
  | 0x104 => [fieldAt 0 8 .rw (fun s => half (hport s h).indAddr 1) (fun s v =>
      updHp s h (fun x => { x with indAddr := v * 2 ^ 32 + half x.indAddr 0 }))]
  | 0x10C => [fieldAt 0 1 .rw (fun s => b2n (hport s h).autoInc) (fun s v => updHp s h (fun x => { x with autoInc := v == 1 }))]
  | _ => []

/-- The queue block (08 R228). -/
def queueFields (h q o : Nat) : List RegFld :=
  let cfg (mask : Nat) (now : Queue → Nat) (put : Queue → Nat → Queue) : RegFld :=
    { lo := 0, mask := mask, acc := .rw, now := fun s => now (queue s h q), range := anyV, gate := quiet h q
      put := fun s v => updQueue s h q (fun x => put x v) }
  match o with
  | 0x00 => [cfg 0xFFFFF000 (fun x => half x.sqBase 0) (fun x v => { x with sqBase := half x.sqBase 1 * 2 ^ 32 + v })]
  | 0x04 => [cfg 0xFFFFFFFF (fun x => half x.sqBase 1) (fun x v => { x with sqBase := v * 2 ^ 32 + half x.sqBase 0 })]
  | 0x08 => [cfg 0xFFFFF000 (fun x => half x.cqBase 0) (fun x v => { x with cqBase := half x.cqBase 1 * 2 ^ 32 + v })]
  | 0x0C => [cfg 0xFFFFFFFF (fun x => half x.cqBase 1) (fun x v => { x with cqBase := v * 2 ^ 32 + half x.cqBase 0 })]
  | 0x10 => [cfg 0xFFF1FFFF (fun x => x.ringsz + x.iv * 2 ^ 20 + b2n x.ien * 2 ^ 31) (fun x v =>
      { x with ringsz := natFld v 0 17, iv := natFld v 20 11, ien := natFld v 31 1 == 1 })]
  | 0x14 => [cfg 0xFFFFFFFF (fun x => x.coalCnt + x.coalTime * 2 ^ 16) (fun x v =>
      { x with coalCnt := natFld v 0 16, coalTime := natFld v 16 16 })]
  | 0x18 => [{ fieldAt 0 1 .rw (fun s => b2n (queue s h q).en) (fun s v =>
        if v = 1 then enableQueue s h q else disableQueue s h q) with
        gate := fun s _ => if (queue s h q).state = 3 then 0 else 5 },
      fieldAt 1 1 .wo (fun _ => 0) (fun s _ => resetQueue s h q)]
  | _ => []

/-- The partition and host port block (R499, R500; 01 R29; 15 R468; 18 R522). -/
def partFields (h p off : Nat) : List RegFld :=
  if 0x0010100 ≤ off ∧ off < 0x0010180 then
    let j := (off - 0x0010100) / 4
    [{ keptMask .dev off 7 .rwk (fun s v => if natFld v 0 2 < nparts s then 0 else 2) earlyAll with put := fun s v => putAssign s j v }]
  else if 0x0010800 ≤ off ∧ off < 0x00109E0 then
    let l := (off - 0x0010800) / 4
    [{ lo := 0, mask := 127, acc := .rwk, now := fun s => physOf s l, range := mapRange p l, gate := mapGate p
       put := fun s v => setPhys s l v }]
  else if 0x0010C50 ≤ off ∧ off < 0x0010C70 then [kept .dev off 0 32 .rwk anyV open_]
  else match off with
    | 0x0010000 => [{ fieldAt 0 2 .rwk (fun s => s.mgmt.pmodeNext) (fun s v => putFlash s (fun m => { m with pmodeNext := v })) with
        range := within 0 2 }]
    | 0x0010004 => [kept (.part p) off 0 20 .rwk (fun _ v => if v = 0xFFFFF then 2 else 0) (early p)]
    | 0x0010008 => [kept (.hp h) off 0 6 .rw anyV (fun s _ => if (List.range 64).all (fun q => (queue s h q).state == 0) then 5 else 0)]
    | 0x001000C => [kept (.hp h) off 0 28 .rw anyV open_]
    | 0x0010010 => [{ fieldAt 0 1 .wo (fun _ => 0) (fun s _ => partStart s h) with
          gate := fun s _ => if (part s p).pstate = 1 then 5 else 0 },
        { fieldAt 1 1 .wo (fun _ => 0) (fun s _ => partBarrier s h) with
          gate := fun s _ => if (part s p).pstate = 2 ∧ (xport s p).arm then 5 else 0 }]
    | 0x0010018 => [kept (.part p) off 0 32 .rw (startRange p false) (early p)]
    | 0x001001C => [kept (.part p) off 0 16 .rw (startRange p true) (early p)]
    | 0x0010C00 => [fieldAt 4 2 .rwk (fun s => s.mgmt.ownerNext) (fun s v => putFlash s (fun m => { m with ownerNext := v }))]
    | 0x0010C08 => [fieldAt 4 1 .w1c (fun s => b2n s.mgmt.fail) (fun s v =>
        if v = 1 then updMgmt s (fun m => { m with fail := false }) else s)]
    | 0x0010C0C => [fieldAt 0 1 .rwk (fun s => s.mgmt.bootPref) (fun s v => putFlash s (fun m => { m with bootPref := v })),
        fieldAt 1 1 .wok (fun _ => 0) (fun s _ => commitSvn s)]
    | 0x0010C30 => [{ lo := 0, mask := 0xFFFF, acc := .wov, now := fun _ => 0, range := liftRange
                      gate := fun s v => if isFrozen s (natFld v 12 4) (natFld v 0 12) h then 5 else 0
                      put := fun s v => liftFreeze s (natFld v 12 4) (natFld v 0 12) h 2 (ucHost h) }]
    | 0x0010C40 => [kept .dev off 0 16 .rwk (within 0x600 0xFFFF) open_, kept .dev off 16 12 .rwk anyV open_]
    | 0x0010C44 => [kept .dev off 0 32 .rwk anyV open_]
    | 0x0010C48 => [kept .dev off 0 16 .rwk anyV open_]
    | 0x0010C70 => [kept .dev off 0 16 .rw (within 100 60000) open_, kept .dev off 16 16 .rw (within 10 60000) open_]
    | _ => []

/-- The interrupt block (R497) and the MSI-X table (08 R224). -/
def irqFields (h off : Nat) : List RegFld :=
  if off < 0x0048000 then
    [fieldAt 0 32 .rw (fun s => msixW s h (off - 0x0040000)) (fun s v => putMsix s h (off - 0x0040000) v)]
  else match off with
    | 0x0049000 => [kept (.hp h) off 0 11 .rw anyV open_, kept (.hp h) off 16 11 .rw anyV open_]
    | 0x0049004 => [sticky 6 (fun s => (hport s h).asyncCause) (fun s v => updHp s h (fun x => { x with asyncCause := v }))]
    | 0x0049008 => [fieldAt 0 6 .rw (fun s => (hport s h).asyncMask) (fun s v => putMask s h v)]
    | _ => []

/-- The power and thermal block (14 R438). -/
def powerFields (off : Nat) : List RegFld :=
  let o := off - 0x0080000
  if 0x008 ≤ o ∧ o < 0x018 then
    let q := (o - 0x008) / 4
    [{ fieldAt 0 9 .rwk (fun s => mget s.power.staged 0 q) (fun s v => stageShare s q v) with range := within 0 256 }]
  else if 0x040 ≤ o ∧ o < 0x060 then [keptMask .dev off 0x1F03FF .rwk opRange open_]
  else if 0x060 ≤ o ∧ o < 0x070 then [kept .dev off 8 3 .rw anyV open_]
  else match o with
    | 0x000 => [kept .dev off 0 12 .rwk (within 600 2400) open_]
    | 0x004 => [kept .dev off 0 12 .rwk (within 1000 3000) open_]
    | 0x018 => [kept .dev off 0 8 .rw (within 85 110) open_]
    | 0x01C => [kept .dev off 0 8 .rwk (within 7 96) open_]
    | 0x020 => [kept .dev off 0 7 .rwk (within 20 100) open_, kept .dev off 8 8 .rwk (within 8 255) open_]
    | 0x024 => [kept .dev off 0 8 .rwk (within 10 255) open_]
    | 0x028 => [kept .dev off 0 7 .rwk anyV open_, kept .dev off 8 7 .rwk anyV open_, kept .dev off 16 7 .rwk anyV open_,
        kept .dev off 24 7 .rwk anyV open_]
    | 0x08C => [sticky 7 (fun s => s.power.stat) (fun s v => updPower s (fun x => { x with stat := v }))]
    | _ => []

/-- The error and sticky status block (R496; 13 R415). -/
def faultFields (h p off : Nat) : List RegFld :=
  match off with
  | 0x00C0000 => [sticky 3 (fun s => regW s (.hp h) off) (fun s v => setReg s (.hp h) off v)]
  | 0x00C0004 => [sticky 9 (fun s => regW s (.part p) off) (fun s v => setReg s (.part p) off v)]
  | 0x00C0008 => [sticky 6 (fun s => regW s .dev off) (fun s v => setReg s .dev off v)]
  | 0x00C0800 => [kept .dev off 0 12 .rwk (within 1 3600) open_]
  | 0x00C0804 => [kept .dev off 0 12 .rwk (within 1 3600) open_, kept .dev off 12 1 .rwk anyV open_]
  | 0x00C080C => [kept .dev off 0 16 .rwk (within 1 60000) open_, kept .dev off 16 16 .rwk (within 1 60000) open_]
  | 0x00C0810 => [kept (.hp h) off 0 12 .rw (within 1 3600) open_]
  | 0x00C0814 => [kept .dev off 0 14 .rwk (within 1 10000) open_]
  | 0x00C0818 => [kept .dev off 0 14 .rwk (within 10 10000) open_]
  | 0x00C081C => [kept .dev off 0 14 .rwk (within 50 10000) open_, kept .dev off 16 10 .rwk (within 15 1000) open_]
  | 0x00C0820 => [{ fieldAt 0 8 .wov (fun _ => 0) putCoreReset with range := fun _ v => if 128 ≤ v then 0 else 2 }]
  | 0x00C0824 => [{ fieldAt 0 3 .wov (fun _ => 0) (fun s _ => resetPart s p (ucHost h) 3 3) with
      range := fun _ v => if v % 2 = 1 then 0 else 2 }]
  | 0x00C0828 => [fieldAt 0 3 .wok (fun _ => 0) (fun s v => putDevReset s h v)]
  | 0x00C0844 => [fieldAt 0 1 .wok (fun _ => 0) (fun s _ => readmitDevice s)]
  | 0x00C0880 => [kept .dev off 0 11 .rwk anyV open_, kept .dev off 12 2 .rwk (within 0 2) open_, kept .dev off 16 2 .rw (within 0 2) open_]
  | 0x00C088C => [fieldAt 0 1 .wok (fun _ => 0) (fun s _ => takeDump s (ucHost h) 4 0 7),
      fieldAt 1 1 .wo (fun _ => 0) (fun s _ => releaseDump s)]
  | _ => []

/-- The event recorder (16 R480). -/
def evrFields (h off : Nat) : List RegFld :=
  match off with
  | 0x0100000 =>
    [fieldAt 0 1 .rw (fun s => b2n s.evr.frozen) (fun s v => if v = 1 then freezeRecorder s else endFreeze s),
     fieldAt 1 1 .wok (fun _ => 0) (fun s _ => clearRecorder s 1),
     { fieldAt 2 2 .rw (fun s => s.evr.minSev) (fun s v => updEvr s (fun x => { x with minSev := v })) with range := within 0 2 }]
  | 0x0100024 => [kept .dev off 0 10 .rw (within 1 600) open_]
  | 0x0100030 => [fieldAt 0 32 .rw (fun s => half (hport s h).rdSeq 0) (fun s v =>
      updHp s h (fun x => { x with rdSeq := half x.rdSeq 1 * 2 ^ 32 + v }))]
  | 0x0100034 => [fieldAt 0 32 .rw (fun s => half (hport s h).rdSeq 1) (fun s v => lookupRecord s h v)]
  | _ => []

/-- The step, proof and transport blocks (11 R360; 10 R327). -/
def proofFields (p off : Nat) : List RegFld :=
  match off with
  | 0x0200000 =>
    [{ fieldAt 3 3 .rw (fun s => (proof s p).wNext) (fun s v => updProof s p (fun x => { x with wNext := v })) with range := within 1 4 },
     { fieldAt 8 4 .rw (fun s => (proof s p).sampleK) (fun s v => updProof s p (fun x => { x with sampleK := v })) with
       range := within 4 10 }]
  | 0x0200028 => [keptMask (.part p) off 0xF07FF .rw (areaRange p none 8) (early p)]
  | 0x020002C => [kept (.part p) off 0 28 .rw (fun s v => if v + 26 ≤ ctxSize s p then 0 else 2) (early p)]
  | 0x0204000 => [{ fieldAt 0 32 .rw (fun s => half (xport s p).impVa 0) (fun s v =>
      updXport s p (fun x => { x with impVa := half x.impVa 1 * 2 ^ 32 + v })) with mask := 0xFFFFFFC0 }]
  | 0x0204004 => [fieldAt 0 16 .rw (fun s => half (xport s p).impVa 1) (fun s v =>
      updXport s p (fun x => { x with impVa := v * 2 ^ 32 + half x.impVa 0 })),
      fieldAt 16 1 .rw (fun s => b2n (xport s p).arm) (fun s v => putArm s p v)]
  | 0x0204030 => [kept (.part p) off 0 28 .rwk (hsRange p false) (early p)]
  | 0x0204034 => [kept (.part p) off 0 22 .rwk (hsRange p true) (early p)]
  | 0x0204038 => [fieldAt 0 4 .rwk (fun s => hsFrozen s p) (fun s v => putHsfrz s p v)]
  | 0x020403C => [kept (.part p) off 0 8 .rw anyV open_]
  | _ => []

/-- The snapshot block (12 R385, R364). -/
def snapFields (p off : Nat) : List RegFld :=
  if 0x0300040 ≤ off ∧ off < 0x03000A0 then
    (if off % 8 = 0 then
      [keptMask (.part p) off 0x7F07FF .rw (fun s v =>
        if natFld v 16 1 = 1 then 2 else areaRange p (some ((off - 0x0300040) / 8)) 64 s v) (early p)]
    else [])
  else match off with
    | 0x0300000 => [keptMask (.part p) off 0x7FFFF .rw anyV open_]
    | 0x0300018 => [kept (.part p) off 0 32 .rw anyV open_]
    | 0x030001C => [kept (.part p) off 0 32 .rw anyV open_]
    | 0x0300020 => [kept (.part p) off 0 20 .rw anyV open_]
    | _ => []

/-- The registers of a Jilan port (09 R291 to R293). A write that leaves ROLE as it is asks nothing of R291. -/
def jilanFields (p j o : Nat) : List RegFld :=
  let off := 0x0400000 + 0x1000 * j + o
  match o with
  | 0x000 =>
    [fieldAt 0 1 .rwk (fun s => b2n (jpEn s j)) (fun s v => putEn s j v),
     kept .dev off 1 2 .rwk (fun s v => if v = jpRole s j ∨ (28 ≤ j ∧ (v = 1 ∨ v = 2)) then 0 else 2)
       (fun s v => if v = jpRole s j then 5 else early p s v),
     kept .dev off 3 2 .rwk (within 0 2) open_,
     fieldAt 5 1 .wo (fun _ => 0) (fun s _ => askRetrain s j 0),
     fieldAt 6 1 .wo (fun _ => 0) (fun s _ => clearCounters s j),
     kept .dev off 7 1 .rw anyV open_,
     kept .dev off 8 4 .rw (within 4 7) open_]
  | 0x00C => [{ kept .dev off 0 8 .rwk anyV open_ with put := fun s v => wakeRetired (setReg s .dev off v) j }]
  | 0x038 => [sticky 5 (fun s => (port s j).err) (fun s v => updPort s j (fun x => { x with err := v }))]
  | _ => []

/-- The memory and translation block (R501 to R504). -/
def memFields (h p off : Nat) : List RegFld :=
  let o := off - 0x0800000
  if o < 0x010 then [keptMask (.part p) off (if o = 0 then 0xFFFFFFF else if o = 4 then 0x3FFFFF else 0xFFFFFFFF) .rw anyV (ttIdle p)]
  else if 0x040 ≤ o ∧ o < 0x060 then
    let q := (o - 0x040) / 8
    if o % 8 = 0 then [kept .dev off 0 22 .rwk (ctxRange q false) earlyAll] else [kept .dev off 0 23 .rwk (ctxRange q true) earlyAll]
  else if 0x100 ≤ o ∧ o < 0x18C then
    [fieldAt 0 32 .rw (fun s => memWord s p o) (fun s v => writeRegionClass s h ((o - 0x100) / 4) v)]
  else if 0x200 ≤ o ∧ o < 0x220 then
    let q := (o - 0x200) / 8
    if o % 8 = 0 then [kept .dev off 0 16 .rwk (sctRange q false) earlyAll] else [kept .dev off 0 17 .rwk (sctRange q true) earlyAll]
  else if 0x400 ≤ o ∧ o < 0x460 then
    (if o % 8 = 0 then [keptMask .dev off 0x3F07FF .rw (areaRange p (some ((o - 0x400) / 8)) 32) (early p)] else [])
  else match o with
    | 0x010 => [{ fieldAt 0 1 .wo (fun _ => 0) (fun s _ => ttStart s h) with
          gate := fun s _ => if (part s p).tt.isSome then 4 else 5 }]
    | 0x020 => [kept (.part p) off 0 28 .rw anyV open_]
    | 0x240 => [fieldAt 0 16 .rw (fun s => regF s (.part p) off 0 16) (fun s v => sctSelect s h v)]
    | 0x244 => [kept (.part p) off 0 32 .rw anyV open_]
    | 0x248 => [keptMask (.part p) off 0x3FF0F .rw anyV open_]
    | 0x24C => [fieldAt 0 1 .wo (fun _ => 0) (fun s _ => sctWrite s h)]
    | 0x480 => [keptMask (.part p) off 0x1F07FF .rw (areaRange p none 16) (early p)]
    | 0x490 => [kept (.part p) off 0 28 .rw anyV (early p)]
    | 0x494 => [kept (.part p) off 0 22 .rw anyV (early p)]
    | 0x498 => [kept (.part p) off 0 28 .rw anyV (early p)]
    | 0x49C => [kept (.part p) off 0 22 .rw anyV (early p)]
    | 0x500 => [kept .dev off 0 8 .rwk (within 6 168) open_]
    | 0x504 => [kept .dev off 0 9 .rw (within 320 360) open_]
    | _ => []

/-- The writable fields of a word below the bit-alias region, as host port `h` of partition `p` writes it. -/
def fieldsAt (h p off : Nat) : List RegFld :=
  if off < 0x0000110 then indFields h off
  else if 0x0010000 ≤ off ∧ off < 0x0011000 then partFields h p off
  else if 0x0020000 ≤ off ∧ off < 0x0024000 then queueFields h ((off - 0x0020000) / 256) (off % 256)
  else if 0x0040000 ≤ off ∧ off < 0x0049010 then irqFields h off
  else if 0x0080000 ≤ off ∧ off < 0x0080300 then powerFields off
  else if 0x00C0000 ≤ off ∧ off < 0x00C2000 then faultFields h p off
  else if 0x0100000 ≤ off ∧ off < 0x0100080 then evrFields h off
  else if 0x0200000 ≤ off ∧ off < 0x0205000 then proofFields p off
  else if 0x0300000 ≤ off ∧ off < 0x0300380 then snapFields p off
  else if 0x0400000 ≤ off ∧ off < 0x0420000 then jilanFields p ((off - 0x0400000) / 0x1000) (off % 0x1000)
  else if 0x0800000 ≤ off ∧ off < 0x0840000 then memFields h p off
  else []

/-- The scope of a word (R481, R482; 15 R463). A core's reset belongs to the partition that the core works for (DEDUCED,
log 44). -/
def scopeAt (s : State) (off v : Nat) : RegScope :=
  if 0x0400000 ≤ off ∧ off < 0x0420000 then .unit (portPart s ((off - 0x0400000) / 0x1000))
  else if 0x0010800 ≤ off ∧ off < 0x00109E0 then .unit (some (lcorePart s ((off - 0x0010800) / 4)))
  else if 0x0010100 ≤ off ∧ off < 0x0010180 then .owner
  else if 0x0010C40 ≤ off ∧ off < 0x0010C74 then .owner
  else if 0x0080060 ≤ off ∧ off < 0x0080070 then .unit (some ((off - 0x0080060) / 4))
  else if 0x0080000 ≤ off ∧ off < 0x0080300 then .owner
  else if 0x0300040 ≤ off ∧ off < 0x03000A0 then .unit (some (stackPart s ((off - 0x0300040) / 8)))
  else if 0x0800040 ≤ off ∧ off < 0x0800060 then .owner
  else if 0x0800200 ≤ off ∧ off < 0x0800220 then .owner
  else if 0x0800400 ≤ off ∧ off < 0x0800460 then .unit (some (stackPart s ((off - 0x0800400) / 8)))
  else match off with
    | 0x0010C30 => liftScope s v
    | 0x00C0820 => .unit (some (coreOwner s (v % 128)))
    | 0x00C0824 => .unit (some (natFld v 1 2))
    | 0x00C0000 => .own
    | 0x00C0004 => .own
    | 0x00C0810 => .own
    | 0x0100030 => .own
    | 0x0100034 => .own
    | 0x0010000 => .owner
    | 0x0010C00 => .owner
    | 0x0010C08 => .owner
    | 0x0010C0C => .owner
    | 0x0800500 => .owner
    | 0x0800504 => .owner
    | _ => if (0x00C0000 ≤ off ∧ off < 0x00C2000) ∨ (0x0100000 ≤ off ∧ off < 0x0100080) then .owner else .own

/-- Whether a host port is inside a scope. -/
def inRegScope (s : State) (h p : Nat) : RegScope → Bool
  | .own => true
  | .owner => isOwner s h
  | .unit q => q == some p

/-! ### The gates of a write -/

/-- A field's value in a written word. -/
def RegFld.val (f : RegFld) (v : Nat) : Nat := v / 2 ^ f.lo &&& f.mask

/-- WRITE_IGNORED once for each cause that some field met. -/
def recordCauses (s : State) (h off v : Nat) (cs : List Nat) : State :=
  ([0, 1, 2, 3, 4].filter cs.contains).foldl (fun s c => writeIgnored s h off v c) s

/-- Fields of a word written with `v` by a host port in scope (00 R11, R14; R464): a keyed field consumes the arming, and
is written only while it is armed. KEYED_WRITE precedes the effects (DEDUCED, log 43); a keyed write that the state
refuses has outcome 0 and WRITE_IGNORED beside it. -/
def writeFields (s : State) (h off v : Nat) (fs : List RegFld) : State :=
  let hit := fs.filter (fun f => f.acc.hit (f.val v))
  let ks := hit.filter (fun f => f.acc.keyed)
  let armed := (hport s h).armed
  let live := hit.filter (fun f => !f.acc.keyed || armed)
  let good := live.filter (fun f => f.range s (f.val v) == 0)
  let take := good.filter (fun f => f.gate s (f.val v) == 5)
  let ranges := (live.filter (fun f => !f.acc.keyed)).map (fun f => f.range s (f.val v))
  let causes := ranges.filter (· != 0) ++ (good.map (fun f => f.gate s (f.val v))).filter (· != 5)
  let s := if ks.isEmpty then s
    else
      let bad := ks.any (fun f => f.range s (f.val v) != 0)
      keyedWrite (updHp s h (fun x => { x with armed := false })) h off v (if !armed then 1 else if bad then 3 else 0)
  take.foldl (fun s f => f.put s (f.val v)) (recordCauses s h off v causes)

/-- Selected fields written, or refused for scope (R463): a refused keyed write disarms. -/
def writeSel (s : State) (h p off v : Nat) (fs : List RegFld) : State :=
  if fs.isEmpty then s
  else if inRegScope s h p (scopeAt s off v) then writeFields s h off v fs
  else if fs.any (fun f => f.acc.keyed && f.acc.hit (f.val v)) then
    keyedWrite (updHp s h (fun x => { x with armed := false })) h off v 2
  else writeIgnored s h off v 1

/-! ### UNLOCK (R484, R485) -/

/-- The key. -/
def unlockKey : Nat := 0x7F1C0D5E

/-- A write of UNLOCK. -/
def writeUnlock (s : State) (h v : Nat) : State :=
  if v = unlockKey then updHp s h (fun x => { x with armed := true })
  else keyedWrite (updHp s h (fun x => { x with armed := false })) h 0x40 v 1

/-! ### The indirect space (R487 to R491) -/

/-- ACCESS_BAD (16 R472). -/
def accessBad (s : State) (h off size : Nat) : State :=
  record s ((hpPart s h).getD 7) (ucHost h) operReg 0x0003 (leBytes 4 off ++ leBytes 1 size)

/-- The fuse shadow (R490). -/
def fuseWord (s : State) (a : Nat) : Nat :=
  if 0x040 ≤ a ∧ a < 0x0C0 then wordAt (leBytes 32 (keyHash s ((a - 0x040) / 32)).toNat) (a % 32)
  else if 0x100 ≤ a ∧ a < 0x124 then vminOf s (8 + (a - 0x100) / 4)
  else match a with
    | 0x000 => half s.fuses.serial 0
    | 0x004 => half s.fuses.serial 1
    | 0x010 => s.fuses.lifecycle
    | 0x014 => s.fuses.keyrevoke
    | 0x018 => half s.fuses.svnMin.toNat 0
    | 0x01C => half s.fuses.svnMin.toNat 1
    | _ => 0

/-- A word of the mailbox (R491), at its offset. -/
def mailboxWord (s : State) (h o : Nat) : Nat :=
  let x := (hport s h).mailbox
  if 0x1000 ≤ o ∧ o < 0x2000 then leNat (mbReq s h (o - 0x1000) 4)
  else if 0x2000 ≤ o ∧ o < 0x3000 then wordAt x.rsp (o - 0x2000)
  else match o with
    | 0x0000 => x.cmd
    | 0x0004 => x.len
    | 0x000C => b2n x.busy + x.result * 256 + x.rlen * 2 ^ 16
    | _ => 0

/-- A mailbox word written; MB_LEN above 4,096 leaves the field (00 R14) and is recorded. -/
def writeMailbox (s : State) (h o v : Nat) : State :=
  let upd (f : Mailbox → Mailbox) : State := updHp s h (fun x => { x with mailbox := f x.mailbox })
  if 0x1000 ≤ o ∧ o < 0x2000 then
    upd (fun m => { m with req := ((leBytes 4 v).zipIdx).foldl (fun r c => mset r 0 (o - 0x1000 + c.2) c.1) m.req })
  else match o with
    | 0x0000 => upd (fun m => { m with cmd := v % 2 ^ 16 })
    | 0x0004 => if v % 2 ^ 13 ≤ 4096 then upd (fun m => { m with len := v % 2 ^ 13 }) else writeIgnored s h 0x108 v 2
    | 0x0008 => if v % 2 = 1 then mbGo s h else s
    | _ => s

/-- Where an indirect address leads (R489). -/
inductive Window where
  /-- Fuse shadow. -/
  | fuses (o : Nat)
  /-- The port's own mailbox. -/
  | mailbox (o : Nat)
  /-- A stack's base die. -/
  | stack (k : Nat)
  /-- A Jilan port's SerDes. -/
  | serdes (j : Nat)
  /-- The dump region. -/
  | dump (o : Nat)
  /-- Nothing. -/
  | none
  deriving DecidableEq, Repr

/-- The window of an indirect address. -/
def windowAt (a : Nat) : Window :=
  if a < 0x1000 then .fuses a
  else if 0x10000000 ≤ a ∧ a < 0x10003000 then .mailbox (a - 0x10000000)
  else if 0x0100000000 ≤ a ∧ a < 0x0100000000 + 12 * 0x10000000 then .stack ((a - 0x0100000000) / 0x10000000)
  else if 0x0200000000 ≤ a ∧ a < 0x0200000000 + 32 * 0x1000000 then .serdes ((a - 0x0200000000) / 0x1000000)
  else if 0x1000000000 ≤ a ∧ a < 0x1080000000 then .dump (a - 0x1000000000)
  else .none

/-- ERR of an access (R488, R489): 0 none, 1 scope, 2 unmapped, 3 timeout, 4 read-only. -/
def windowErr (s : State) (h p : Nat) (wr : Bool) (w : Window) : Nat :=
  match w with
  | .fuses _ => if wr then 4 else 0
  | .mailbox o => if wr ∧ (0x2000 ≤ o ∨ o = 0x000C) then 4 else 0
  | .stack k => if stackPart s k ≠ p then 1 else if wr then 4 else 0
  | .serdes j => if portPart s j ≠ some p then 1 else if wr then 4 else 0
  | .dump o => if !isOwner s h then 1 else if dumpSize s ≤ o then 2 else if wr then 4 else 0
  | .none => 2

/-- The word that a window holds; the layout of stack and SerDes windows is the firmware's, so their words are free
(log 8). The region's memory is read as it stands. -/
def windowRead (s : State) (h : Nat) (w : Window) (k : Nat) : Nat :=
  match w with
  | .fuses o => fuseWord s o
  | .mailbox o => mailboxWord s h o
  | .stack _ => (Config.windowWord k).toNat
  | .serdes _ => (Config.windowWord k).toNat
  | .dump o => leNat (rdBytes s.ms.mem (dumpBase s + o) 4)
  | .none => 0

/-- The end of an IND_DATA access: ERR, and AUTOINC (R488). A failure is recorded as ACCESS_BAD. -/
def indirectDone (s : State) (h err : Nat) : State :=
  let s := if err = 0 then s else accessBad s h 0x108 4
  updHp s h (fun x => { x with indErr := err, indAddr := if x.autoInc then (x.indAddr + 4) % 2 ^ 40 else x.indAddr })

/-- A read of IND_DATA: the word, and the state after it. -/
def indirectRead (s : State) (h p : Nat) : Nat × State :=
  let w := windowAt (hport s h).indAddr
  let err := windowErr s h p false w
  let (k, t) := fresh s
  (if err = 0 then windowRead s h w k else 0, indirectDone t h err)

/-- A write of IND_DATA. -/
def indirectWrite (s : State) (h p v : Nat) : State :=
  let w := windowAt (hport s h).indAddr
  let err := windowErr s h p true w
  let t := match w with
    | .mailbox o => if err = 0 then writeMailbox s h o v else s
    | _ => s
  indirectDone t h err

/-! ### Whole words and aliases -/

/-- A 32-bit write below the bit-alias region. A write of QCTRL that sets RESET acts as a reset alone (08 R234). -/
def writePlain (s : State) (h p off v : Nat) : State :=
  let fs := fieldsAt h p off
  if off = 0x40 then writeUnlock s h v
  else if off = 0x108 then indirectWrite s h p v
  else if 0x0020000 ≤ off ∧ off < 0x0024000 ∧ off % 256 = 0x18 ∧ v.testBit 1 then writeSel s h p off v (fs.filter (·.lo == 1))
  else writeSel s h p off v fs

/-- Whether a field holds a bit of its word. -/
def RegFld.has (f : RegFld) (b : Nat) : Bool := decide (f.lo ≤ b) && f.mask.testBit (b - f.lo)

/-- Whether a block lists the word: every one that reads or takes something. -/
def listedWord (off : Nat) : Bool :=
  if off < 0x40 then off != 0x1C && decide (off < 0x2C)
  else if off = 0x10C then true
  else if off < 0x0011000 then
    decide (0x0010000 ≤ off) &&
    (decide (off < 0x0010014) || off == 0x0010018 || off == 0x001001C || (decide (0x0010100 ≤ off) && decide (off < 0x0010180)) ||
     (decide (0x0010200 ≤ off) && decide (off < 0x0010400)) || (decide (0x0010800 ≤ off) && decide (off < 0x00109E0)) ||
     (decide (0x0010A00 ≤ off) && decide (off < 0x0010C28)) || off == 0x0010C30 ||
     (decide (0x0010C40 ≤ off) && decide (off < 0x0010C4C)) || (decide (0x0010C50 ≤ off) && decide (off < 0x0010C80)))
  else if off < 0x0024000 then decide (0x0020000 ≤ off) && decide (off % 256 < 0x24)
  else if off < 0x0049010 then decide (0x0049000 ≤ off) && decide (off < 0x004900C)
  else if off < 0x0080300 then
    let o := off - 0x0080000
    decide (0x0080000 ≤ off) &&
    (decide (o < 0x02C) || (decide (0x040 ≤ o) && decide (o < 0x070)) || (decide (0x080 ≤ o) && decide (o < 0x094)) ||
     (decide (0x100 ≤ o) && decide (o < 0x220)) || (decide (0x240 ≤ o) && decide (o < 0x280)))
  else
    decide (0x00C0000 ≤ off) &&
    (decide (off < 0x00C0010) || (decide (0x00C0800 ≤ off) && decide (off < 0x00C082C)) || off == 0x00C0840 || off == 0x00C0844 ||
     (decide (0x00C0880 ≤ off) && decide (off < 0x00C0890)) || (decide (0x00C1000 ≤ off) && decide (off < 0x00C18B0)))

/-- A bit-alias write (R492 to R494): one bit of one field; a reserved or excluded word is ACCESS_BAD. The records name
the register and its new word. -/
def writeAlias (s : State) (h p a v : Nat) : State :=
  let (o, b) := aliasOf a
  if !(aliased o && listedWord o) then accessBad s h a 4
  else match (fieldsAt h p o).find? (·.has b) with
    | none => s
    | some f =>
      let one := v % 2 == 1
      let bit := 2 ^ b
      let now := f.now s * 2 ^ f.lo
      match f.acc with
      | .rw => writeSel s h p o (if one then now ||| bit else now - (now &&& bit)) [f]
      | .rwk => writeSel s h p o (if one then now ||| bit else now - (now &&& bit)) [f]
      | .w1c => if one then s else writeSel s h p o bit [f]
      | _ => if one then writeSel s h p o bit [f] else s

/-- A 32-bit write of BAR0. -/
def writeWord (s : State) (h off v : Nat) : State :=
  match hpPart s h with
  | none => s
  | some p =>
    hostWrite s h off v (fun s => if 0x2000000 ≤ off then writeAlias s h p off v else writePlain s h p off v)

end Sys2Proof.Machine
end

