-- ==== Sys2Proof/Machine/RegRows.lean ====
section
/-! DEFINITION. The commands that are register accesses (17_register_interface.md). Each is the write, or the read, of its
register; a command that names one field of a word leaves the word's other fields at their values. -/

namespace Sys2Proof.Machine

/-! ### The access itself (08 R223) -/

/-- The address at which BAR2 follows the 64 MiB of BAR0 in the offsets of the register commands (log 6). -/
def bar2At : Nat := 0x4000000

/-- A 32-bit write of BAR0 or BAR2. In BAR2 a write at 4,096 n is the doorbell of Qn, and any other offset is reserved
(08 R230). -/
def writeBar (s : State) (h off v : Nat) : State :=
  if off < bar2At then writeWord s h off v
  else
    let o := off - bar2At
    if o % 4096 = 0 ∧ o < 64 * 4096 then ringDoorbell s h (o / 4096) v
    else hostWrite s h off v (fun s => s)

/-- A write of any size: aligned 32-bit and 64-bit accesses are performed as one or two words in ascending order; any
other performs no write and is recorded. -/
def busWrite (s : State) (h off size v : Nat) : State :=
  if size = 4 ∧ off % 4 = 0 then writeBar s h off (v % 2 ^ 32)
  else if size = 8 ∧ off % 8 = 0 then writeBar (writeBar s h off (half v 0)) h (off + 4) (half v 1)
  else if hostCan s h then accessBad s h off size else s

/-- A 32-bit read of a ready device's BAR0 or BAR2: a doorbell reads as the last value accepted (08 R230), and before
READY only the identity block answers (18 R508). -/
def readBar (s : State) (h p off : Nat) : Nat × State :=
  if bar2At ≤ off then
    let o := off - bar2At
    (if isReady s ∧ o % 4096 = 0 ∧ o < 64 * 4096 then (queue s h (o / 4096)).doorbell else 0, s)
  else if !isReady s ∧ 0x40 ≤ off then (0, s)
  else if off = 0x108 then indirectRead s h p
  else latchRead s h p off

/-- A read (R223, R486, R488, R508; 15 R465): the value answered stands in `rdata` (log 6). A 64-bit read is two 32-bit
reads in ascending order; one of another size or alignment reads 0 and is recorded. A port that is frozen answers all
ones. -/
def busRead (s : State) (h off size : Nat) : State :=
  let answer (x : Nat × State) : State := updHp x.2 h (fun y => { y with rdata := x.1 })
  match hpPart s h with
  | none => s
  | some p =>
    if !hostUp s h then s
    else if (hport s h).frozen then answer (2 ^ (8 * size) - 1, s)
    else if size = 4 ∧ off % 4 = 0 then answer (readBar s h p off)
    else if size = 8 ∧ off % 8 = 0 then
      let a := readBar s h p off
      let b := readBar a.2 h p (off + 4)
      answer (a.1 + 2 ^ 32 * b.1, b.2)
    else answer (0, accessBad s h off size)

/-! ### Jilan ports (09 R285, R292) -/

/-- A write of JP_CFG with some bits changed and the other fields at their values; it reaches the word's keyed fields. -/
def writeJpCfg (s : State) (h j : Nat) (f : Nat → Nat) : State := writeWord s h (0x0400000 + 0x1000 * j) (f (jpCfg s j))

/-- RETRAIN. -/
def execRetrain (hp : HostId) (j : PortId) (s : State) : Ans := done s (writeJpCfg s hp j (· + 32))

/-- CNTCLR. -/
def execCntclr (hp : HostId) (j : PortId) (s : State) : Ans := done s (writeJpCfg s hp j (· + 64))

/-- PORT_EN_WRITE. -/
def execPortEnWrite (hp : HostId) (j : PortId) (en : Bool) (s : State) : Ans :=
  done s (writeJpCfg s hp j (fun w => setFld w 0 1 (b2n en)))

/-! ### Faults (13 R398, R406, R409, R413, R415) -/

/-- CORE_RESET. -/
def execCoreReset (hp : HostId) (v : Word) (s : State) : Ans := done s (writeWord s hp 0x00C0820 v.toNat)

/-- PART_RESET. -/
def execPartReset (hp : HostId) (v : Word) (s : State) : Ans := done s (writeWord s hp 0x00C0824 v.toNat)

/-- WARM. -/
def execWarm (hp : HostId) (planned : Bool) (s : State) : Ans := done s (writeWord s hp 0x00C0828 (1 + 4 * b2n planned))

/-- COLD. -/
def execCold (hp : HostId) (planned : Bool) (s : State) : Ans := done s (writeWord s hp 0x00C0828 (2 + 4 * b2n planned))

/-- FLT_READMIT. -/
def execFltReadmit (hp : HostId) (s : State) : Ans := done s (writeWord s hp 0x00C0844 1)

/-- TRIGGER. -/
def execTrigger (hp : HostId) (s : State) : Ans := done s (writeWord s hp 0x00C088C 1)

/-- RELEASE. -/
def execRelease (hp : HostId) (s : State) : Ans := done s (writeWord s hp 0x00C088C 2)

/-! ### Power and management (14 R427; 15 R457, R466; 10 R325) -/

/-- PSHARE. -/
def execPshare (hp : HostId) (p : PartId) (v : Word) (s : State) : Ans := done s (writeWord s hp (0x0080008 + 4 * p) v.toNat)

/-- SVN_COMMIT; BOOT_PREF, in the same word, is written with its value. -/
def execSvnCommit (hp : HostId) (s : State) : Ans := done s (writeWord s hp 0x0010C0C (s.mgmt.bootPref + 2))

/-- FRZ_LIFT. -/
def execFrzLift (hp : HostId) (v : Word) (s : State) : Ans := done s (writeWord s hp 0x0010C30 v.toNat)

/-- HSFRZ. -/
def execHsfrz (hp : HostId) (v : Word) (s : State) : Ans := done s (writeWord s hp 0x0204038 v.toNat)

/-! ### The event recorder (16 R477, R478) -/

/-- EVR_FREEZE. -/
def execEvrFreeze (hp : HostId) (s : State) : Ans := done s (writeWord s hp 0x0100000 (1 + 4 * s.evr.minSev))

/-- EVR_UNFREEZE. -/
def execEvrUnfreeze (hp : HostId) (s : State) : Ans := done s (writeWord s hp 0x0100000 (4 * s.evr.minSev))

/-- CLEAR. -/
def execClear (hp : HostId) (s : State) : Ans := done s (writeWord s hp 0x0100000 (b2n s.evr.frozen + 2 + 4 * s.evr.minSev))

/-! ### The register interface (R484 to R498; 01 R29) -/

/-- UNLOCK. -/
def execUnlock (hp : HostId) (v : Word) (s : State) : Ans := done s (writeWord s hp 0x0000040 v.toNat)

/-- UNLOCK_LAPSE: 1 s after the key write (R485). -/
def execUnlockLapse (hp : HostId) (s : State) : Ans := done s (updHp s hp (fun x => { x with armed := false }))

/-- IND_DATA_READ. -/
def execIndDataRead (hp : HostId) (s : State) : Ans := done s (busRead s hp 0x0000108 4)

/-- IND_DATA_WRITE. -/
def execIndDataWrite (hp : HostId) (v : Word) (s : State) : Ans := done s (writeWord s hp 0x0000108 v.toNat)

/-- LATCHED_READ: a read of any size. -/
def execLatchedRead (hp : HostId) (at_ : Access) (s : State) : Ans := done s (busRead s hp at_.off at_.size)

/-- BIT_ALIAS_WRITE: a 32-bit write at an address of the region. -/
def execBitAliasWrite (hp : HostId) (off : Nat) (v : Word) (s : State) : Ans := done s (busWrite s hp off 4 v.toNat)

/-- ASYNC_MASK. -/
def execAsyncMask (hp : HostId) (v : Word) (s : State) : Ans := done s (writeWord s hp 0x0049008 v.toNat)

/-- CORE_MAP. -/
def execCoreMap (hp : HostId) (l : LogicalId) (v : Word) (s : State) : Ans := done s (writeWord s hp (0x0010800 + 4 * l) v.toNat)

/-- REGISTER_WRITE. -/
def execRegisterWrite (hp : HostId) (off size : Nat) (v : DWord) (s : State) : Ans := done s (busWrite s hp off size v.toNat)

end Sys2Proof.Machine
end

