-- ==== Sys2Proof/Machine/Dispatch.lean ====
section
/-! DEFINITION. One arm per command: the meaning it calls. -/

namespace Sys2Proof.Machine

/-- The effect of a command on everything but the queue. -/
def exec (i : Instr) (s : State) : Host.Outcome State Fault Refusal :=
  match i with
  | .nop hp q d => Sys2Proof.Machine.execNop hp q d s
  | .copy hp q d => Sys2Proof.Machine.execCopy hp q d s
  | .fill hp q d => Sys2Proof.Machine.execFill hp q d s
  | .launch hp q d => Sys2Proof.Machine.execLaunch hp q d s
  | .allReduce hp q d => Sys2Proof.Machine.execAllReduce hp q d s
  | .reduceScatter hp q d => Sys2Proof.Machine.execReduceScatter hp q d s
  | .allGather hp q d => Sys2Proof.Machine.execAllGather hp q d s
  | .broadcast hp q d => Sys2Proof.Machine.execBroadcast hp q d s
  | .allToAll hp q d => Sys2Proof.Machine.execAllToAll hp q d s
  | .collBarrier hp q d => Sys2Proof.Machine.execCollBarrier hp q d s
  | .put hp q d => Sys2Proof.Machine.execPut hp q d s
  | .get hp q d => Sys2Proof.Machine.execGet hp q d s
  | .stepBegin hp q d => Sys2Proof.Machine.execStepBegin hp q d s
  | .stepOpen p => Sys2Proof.Machine.execStepOpen p s
  | .phase hp q d => Sys2Proof.Machine.execPhase hp q d s
  | .stepEnd hp q d => Sys2Proof.Machine.execStepEnd hp q d s
  | .stepComputed p => Sys2Proof.Machine.execStepComputed p s
  | .adamw hp q d => Sys2Proof.Machine.execAdamw hp q d s
  | .sgdMomentum hp q d => Sys2Proof.Machine.execSgdMomentum hp q d s
  | .lion hp q d => Sys2Proof.Machine.execLion hp q d s
  | .prog hp q d => Sys2Proof.Machine.execProg hp q d s
  | .ssq hp q d => Sys2Proof.Machine.execSsq hp q d s
  | .amax hp q d => Sys2Proof.Machine.execAmax hp q d s
  | .scaleCommit hp q d => Sys2Proof.Machine.execScaleCommit hp q d s
  | .snapshotEager hp q d => Sys2Proof.Machine.execSnapshotEager hp q d s
  | .snapshotCow hp q d => Sys2Proof.Machine.execSnapshotCow hp q d s
  | .snapshotQuiesce hp q d => Sys2Proof.Machine.execSnapshotQuiesce hp q d s
  | .capturePoint p => Sys2Proof.Machine.execCapturePoint p s
  | .restore hp q d => Sys2Proof.Machine.execRestore hp q d s
  | .restoreFromStorage hp q d => Sys2Proof.Machine.execRestoreFromStorage hp q d s
  | .drain hp q d => Sys2Proof.Machine.execDrain hp q d s
  | .fence hp q d => Sys2Proof.Machine.execFence hp q d s
  | .wait hp q d => Sys2Proof.Machine.execWait hp q d s
  | .signalAdd hp q d => Sys2Proof.Machine.execSignalAdd hp q d s
  | .signalSet hp q d => Sys2Proof.Machine.execSignalSet hp q d s
  | .setW hp q d => Sys2Proof.Machine.execSetW hp q d s
  | .setSample hp q d => Sys2Proof.Machine.execSetSample hp q d s
  | .query hp q d => Sys2Proof.Machine.execQuery hp q d s
  | .failStep hp q d => Sys2Proof.Machine.execFailStep hp q d s
  | .run hp q d => Sys2Proof.Machine.execRun hp q d s
  | .interval hp q d => Sys2Proof.Machine.execInterval hp q d s
  | .testReport hp q d => Sys2Proof.Machine.execTestReport hp q d s
  | .inject hp q d => Sys2Proof.Machine.execInject hp q d s
  | .descriptorFetchFail hp q => Sys2Proof.Machine.execDescriptorFetchFail hp q s
  | .coalTime hp q => Sys2Proof.Machine.execCoalTime hp q s
  | .doorbell hp q v => Sys2Proof.Machine.execDoorbell hp q v s
  | .queueEnable hp q => Sys2Proof.Machine.execQueueEnable hp q s
  | .queueDisable hp q => Sys2Proof.Machine.execQueueDisable hp q s
  | .queueReset hp q => Sys2Proof.Machine.execQueueReset hp q s
  | .hostLinkDown hp => Sys2Proof.Machine.execHostLinkDown hp s
  | .hostPortReset hp => Sys2Proof.Machine.execHostPortReset hp s
  | .perstN hp => Sys2Proof.Machine.execPerstN hp s
  | .ideFail hp => Sys2Proof.Machine.execIdeFail hp s
  | .doeRequest hp req => Sys2Proof.Machine.execDoeRequest hp req s
  | .bar4Access hp off write len data => Sys2Proof.Machine.execBar4Access hp off write len data s
  | .csqAdd c rd ra rb => Sys2Proof.Machine.execCsqAdd c rd ra rb s
  | .csqSub c rd ra rb => Sys2Proof.Machine.execCsqSub c rd ra rb s
  | .csqAnd c rd ra rb => Sys2Proof.Machine.execCsqAnd c rd ra rb s
  | .csqOr c rd ra rb => Sys2Proof.Machine.execCsqOr c rd ra rb s
  | .csqXor c rd ra rb => Sys2Proof.Machine.execCsqXor c rd ra rb s
  | .csqSll c rd ra rb => Sys2Proof.Machine.execCsqSll c rd ra rb s
  | .csqSrl c rd ra rb => Sys2Proof.Machine.execCsqSrl c rd ra rb s
  | .csqSra c rd ra rb => Sys2Proof.Machine.execCsqSra c rd ra rb s
  | .csqMul c rd ra rb => Sys2Proof.Machine.execCsqMul c rd ra rb s
  | .csqMulhu c rd ra rb => Sys2Proof.Machine.execCsqMulhu c rd ra rb s
  | .csqDiv c rd ra rb => Sys2Proof.Machine.execCsqDiv c rd ra rb s
  | .csqRem c rd ra rb => Sys2Proof.Machine.execCsqRem c rd ra rb s
  | .csqSlt c rd ra rb => Sys2Proof.Machine.execCsqSlt c rd ra rb s
  | .csqSltu c rd ra rb => Sys2Proof.Machine.execCsqSltu c rd ra rb s
  | .csqMin c rd ra rb => Sys2Proof.Machine.execCsqMin c rd ra rb s
  | .csqMax c rd ra rb => Sys2Proof.Machine.execCsqMax c rd ra rb s
  | .csqMinu c rd ra rb => Sys2Proof.Machine.execCsqMinu c rd ra rb s
  | .csqMaxu c rd ra rb => Sys2Proof.Machine.execCsqMaxu c rd ra rb s
  | .csqAddi c rd ra imm => Sys2Proof.Machine.execCsqAddi c rd ra imm s
  | .csqAndi c rd ra imm => Sys2Proof.Machine.execCsqAndi c rd ra imm s
  | .csqOri c rd ra imm => Sys2Proof.Machine.execCsqOri c rd ra imm s
  | .csqXori c rd ra imm => Sys2Proof.Machine.execCsqXori c rd ra imm s
  | .csqSlli c rd ra imm => Sys2Proof.Machine.execCsqSlli c rd ra imm s
  | .csqSrli c rd ra imm => Sys2Proof.Machine.execCsqSrli c rd ra imm s
  | .csqSrai c rd ra imm => Sys2Proof.Machine.execCsqSrai c rd ra imm s
  | .csqSlti c rd ra imm => Sys2Proof.Machine.execCsqSlti c rd ra imm s
  | .csqSltiu c rd ra imm => Sys2Proof.Machine.execCsqSltiu c rd ra imm s
  | .csqLui c rd imm => Sys2Proof.Machine.execCsqLui c rd imm s
  | .csqLd8 c rd ra imm => Sys2Proof.Machine.execCsqLd8 c rd ra imm s
  | .csqLd16 c rd ra imm => Sys2Proof.Machine.execCsqLd16 c rd ra imm s
  | .csqLd32 c rd ra imm => Sys2Proof.Machine.execCsqLd32 c rd ra imm s
  | .csqLd64 c rd ra imm => Sys2Proof.Machine.execCsqLd64 c rd ra imm s
  | .csqLdu8 c rd ra imm => Sys2Proof.Machine.execCsqLdu8 c rd ra imm s
  | .csqLdu16 c rd ra imm => Sys2Proof.Machine.execCsqLdu16 c rd ra imm s
  | .csqLdu32 c rd ra imm => Sys2Proof.Machine.execCsqLdu32 c rd ra imm s
  | .csqSt8 c rs ra imm => Sys2Proof.Machine.execCsqSt8 c rs ra imm s
  | .csqSt16 c rs ra imm => Sys2Proof.Machine.execCsqSt16 c rs ra imm s
  | .csqSt32 c rs ra imm => Sys2Proof.Machine.execCsqSt32 c rs ra imm s
  | .csqSt64 c rs ra imm => Sys2Proof.Machine.execCsqSt64 c rs ra imm s
  | .csqBeq c rs ra imm => Sys2Proof.Machine.execCsqBeq c rs ra imm s
  | .csqBne c rs ra imm => Sys2Proof.Machine.execCsqBne c rs ra imm s
  | .csqBlt c rs ra imm => Sys2Proof.Machine.execCsqBlt c rs ra imm s
  | .csqBge c rs ra imm => Sys2Proof.Machine.execCsqBge c rs ra imm s
  | .csqBltu c rs ra imm => Sys2Proof.Machine.execCsqBltu c rs ra imm s
  | .csqBgeu c rs ra imm => Sys2Proof.Machine.execCsqBgeu c rs ra imm s
  | .csqJal c rd imm => Sys2Proof.Machine.execCsqJal c rd imm s
  | .csqJalr c rd ra imm => Sys2Proof.Machine.execCsqJalr c rd ra imm s
  | .csqCsrr c rd ra imm => Sys2Proof.Machine.execCsqCsrr c rd ra imm s
  | .csqCsrw c rs ra imm => Sys2Proof.Machine.execCsqCsrw c rs ra imm s
  | .csqSemsig c rs ra imm => Sys2Proof.Machine.execCsqSemsig c rs ra imm s
  | .csqSemwait c rs ra imm => Sys2Proof.Machine.execCsqSemwait c rs ra imm s
  | .csqSemtake c rs ra imm => Sys2Proof.Machine.execCsqSemtake c rs ra imm s
  | .csqSemtest c rd ra imm => Sys2Proof.Machine.execCsqSemtest c rd ra imm s
  | .csqBar c rd ra imm => Sys2Proof.Machine.execCsqBar c rd ra imm s
  | .barrierRelease launch scope group => Sys2Proof.Machine.execBarrierRelease launch scope group s
  | .csqTissue c rd ra rb fn => Sys2Proof.Machine.execCsqTissue c rd ra rb fn s
  | .csqHalt c rd ra imm => Sys2Proof.Machine.execCsqHalt c rd ra imm s
  | .programStart launch l => Sys2Proof.Machine.execProgramStart launch l s
  | .matrixInstruction c array => Sys2Proof.Machine.execMatrixInstruction c array s
  | .streamInstruction c => Sys2Proof.Machine.execStreamInstruction c s
  | .load c => Sys2Proof.Machine.execLoad c s
  | .store c => Sys2Proof.Machine.execStore c s
  | .xcore c => Sys2Proof.Machine.execXcore c s
  | .forme c => Sys2Proof.Machine.execForme c s
  | .coreSubstitution l => Sys2Proof.Machine.execCoreSubstitution l s
  | .ttGo hp => Sys2Proof.Machine.execTtGo hp s
  | .ttUpdateDone p => Sys2Proof.Machine.execTtUpdateDone p s
  | .regionClass hp w v => Sys2Proof.Machine.execRegionClass hp w v s
  | .sctIdx hp v => Sys2Proof.Machine.execSctIdx hp v s
  | .sctWr hp => Sys2Proof.Machine.execSctWr hp s
  | .patrolScrub k line seen => Sys2Proof.Machine.execPatrolScrub k line seen s
  | .rowRemap ch line => Sys2Proof.Machine.execRowRemap ch line s
  | .stackTemperature k temp => Sys2Proof.Machine.execStackTemperature k temp s
  | .cowCopy p => Sys2Proof.Machine.execCowCopy p s
  | .rmaOpen j pk => Sys2Proof.Machine.execRmaOpen j pk s
  | .rmaGrant j pk => Sys2Proof.Machine.execRmaGrant j pk s
  | .rmaRefuse j pk => Sys2Proof.Machine.execRmaRefuse j pk s
  | .rmaData j pk => Sys2Proof.Machine.execRmaData j pk s
  | .rmaAck j pk => Sys2Proof.Machine.execRmaAck j pk s
  | .collReady j pk => Sys2Proof.Machine.execCollReady j pk s
  | .collData j pk => Sys2Proof.Machine.execCollData j pk s
  | .planes j pk => Sys2Proof.Machine.execPlanes j pk s
  | .heldPacketTimeout j vc => Sys2Proof.Machine.execHeldPacketTimeout j vc s
  | .hsWrite j pk => Sys2Proof.Machine.execHsWrite j pk s
  | .hsRead j pk => Sys2Proof.Machine.execHsRead j pk s
  | .drReady j pk => Sys2Proof.Machine.execDrReady j pk s
  | .drDurable j pk => Sys2Proof.Machine.execDrDurable j pk s
  | .drCommitted j pk => Sys2Proof.Machine.execDrCommitted j pk s
  | .drError j pk => Sys2Proof.Machine.execDrError j pk s
  | .chunkResend p chunk => Sys2Proof.Machine.execChunkResend p chunk s
  | .drCommittedTimeout p => Sys2Proof.Machine.execDrCommittedTimeout p s
  | .rdData j pk => Sys2Proof.Machine.execRdData j pk s
  | .rdEnd j pk => Sys2Proof.Machine.execRdEnd j pk s
  | .stop j pk => Sys2Proof.Machine.execStop j pk s
  | .safePointMissed p unit => Sys2Proof.Machine.execSafePointMissed p unit s
  | .report j pk => Sys2Proof.Machine.execReport j pk s
  | .rootCollectTimeout p => Sys2Proof.Machine.execRootCollectTimeout p s
  | .decision j pk => Sys2Proof.Machine.execDecision j pk s
  | .decisionTimeout p => Sys2Proof.Machine.execDecisionTimeout p s
  | .poll j pk => Sys2Proof.Machine.execPoll j pk s
  | .rollbackDone p => Sys2Proof.Machine.execRollbackDone p s
  | .joinDone p => Sys2Proof.Machine.execJoinDone p s
  | .replayEnd p => Sys2Proof.Machine.execReplayEnd p s
  | .up j pk => Sys2Proof.Machine.execUp j pk s
  | .proven j pk => Sys2Proof.Machine.execProven j pk s
  | .stepRetire p step => Sys2Proof.Machine.execStepRetire p step s
  | .pulse j pk => Sys2Proof.Machine.execPulse j pk s
  | .pulseSend p => Sys2Proof.Machine.execPulseSend p s
  | .neighbourLost p rank => Sys2Proof.Machine.execNeighbourLost p rank s
  | .digest j pk => Sys2Proof.Machine.execDigest j pk s
  | .sampleRecompute p second third => Sys2Proof.Machine.execSampleRecompute p second third s
  | .mirrorOpen j pk => Sys2Proof.Machine.execMirrorOpen j pk s
  | .grad j pk => Sys2Proof.Machine.execGrad j pk s
  | .mirrorDone j pk => Sys2Proof.Machine.execMirrorDone j pk s
  | .seal j pk => Sys2Proof.Machine.execSeal j pk s
  | .scale j pk => Sys2Proof.Machine.execScale j pk s
  | .ownRestore j pk => Sys2Proof.Machine.execOwnRestore j pk s
  | .scaleRestore j pk => Sys2Proof.Machine.execScaleRestore j pk s
  | .mirrorFill j pk => Sys2Proof.Machine.execMirrorFill j pk s
  | .shadowFill j pk => Sys2Proof.Machine.execShadowFill j pk s
  | .stateXferEnd j pk => Sys2Proof.Machine.execStateXferEnd j pk s
  | .dataFlit j f => Sys2Proof.Machine.execDataFlit j f s
  | .idleFlit j f => Sys2Proof.Machine.execIdleFlit j f s
  | .invalidFlit j => Sys2Proof.Machine.execInvalidFlit j s
  | .nak j f => Sys2Proof.Machine.execNak j f s
  | .nakRepeat j => Sys2Proof.Machine.execNakRepeat j s
  | .replayStart j f => Sys2Proof.Machine.execReplayStart j f s
  | .recover j => Sys2Proof.Machine.execRecover j s
  | .ident j f => Sys2Proof.Machine.execIdent j f s
  | .identSend j => Sys2Proof.Machine.execIdentSend j s
  | .laneMap j f => Sys2Proof.Machine.execLaneMap j f s
  | .retrainReq j f => Sys2Proof.Machine.execRetrainReq j f s
  | .retrainAck j f => Sys2Proof.Machine.execRetrainAck j f s
  | .creditInit j f => Sys2Proof.Machine.execCreditInit j f s
  | .signalDetect j lanes => Sys2Proof.Machine.execSignalDetect j lanes s
  | .fecAlignment j lanes => Sys2Proof.Machine.execFecAlignment j lanes s
  | .fecAlignmentLoss j lane => Sys2Proof.Machine.execFecAlignmentLoss j lane s
  | .signalLoss j lanes => Sys2Proof.Machine.execSignalLoss j lanes s
  | .equaliseTimeout j => Sys2Proof.Machine.execEqualiseTimeout j s
  | .identTimeout j => Sys2Proof.Machine.execIdentTimeout j s
  | .recoverTimeout j => Sys2Proof.Machine.execRecoverTimeout j s
  | .retrainComplete j eyes => Sys2Proof.Machine.execRetrainComplete j eyes s
  | .retrainTimeout j => Sys2Proof.Machine.execRetrainTimeout j s
  | .epochWaitTimeout j => Sys2Proof.Machine.execEpochWaitTimeout j s
  | .berWindow j seen => Sys2Proof.Machine.execBerWindow j seen s
  | .uncorrectableBurst j lane => Sys2Proof.Machine.execUncorrectableBurst j lane s
  | .retrainCountReset j lane => Sys2Proof.Machine.execRetrainCountReset j lane s
  | .retrain hp j => Sys2Proof.Machine.execRetrain hp j s
  | .cntclr hp j => Sys2Proof.Machine.execCntclr hp j s
  | .portEnWrite hp j en => Sys2Proof.Machine.execPortEnWrite hp j en s
  | .healthTick => Sys2Proof.Machine.execHealthTick s
  | .fieldTestSlot => Sys2Proof.Machine.execFieldTestSlot s
  | .observationTestDue unit => Sys2Proof.Machine.execObservationTestDue unit s
  | .fieldTestBlock unit outcome => Sys2Proof.Machine.execFieldTestBlock unit outcome s
  | .testStarved unit => Sys2Proof.Machine.execTestStarved unit s
  | .csqWatchdog c => Sys2Proof.Machine.execCsqWatchdog c s
  | .tileWatchdog c unit => Sys2Proof.Machine.execTileWatchdog c unit s
  | .hostQueueWatchdog hp q didx => Sys2Proof.Machine.execHostQueueWatchdog hp q didx s
  | .engineWatchdog k => Sys2Proof.Machine.execEngineWatchdog k s
  | .creditHighWatchdog j => Sys2Proof.Machine.execCreditHighWatchdog j s
  | .creditLowWatchdog j => Sys2Proof.Machine.execCreditLowWatchdog j s
  | .transportWatchdog p => Sys2Proof.Machine.execTransportWatchdog p s
  | .galleyEscalation g => Sys2Proof.Machine.execGalleyEscalation g s
  | .coreReset hp v => Sys2Proof.Machine.execCoreReset hp v s
  | .partReset hp v => Sys2Proof.Machine.execPartReset hp v s
  | .warm hp planned => Sys2Proof.Machine.execWarm hp planned s
  | .cold hp planned => Sys2Proof.Machine.execCold hp planned s
  | .fltReadmit hp => Sys2Proof.Machine.execFltReadmit hp s
  | .trigger hp => Sys2Proof.Machine.execTrigger hp s
  | .dumpDone unreadable => Sys2Proof.Machine.execDumpDone unreadable s
  | .dumpFlashCopy => Sys2Proof.Machine.execDumpFlashCopy s
  | .release hp => Sys2Proof.Machine.execRelease hp s
  | .powerPeriod galleyWatts ioWatts => Sys2Proof.Machine.execPowerPeriod galleyWatts ioWatts s
  | .calibration measured estimated => Sys2Proof.Machine.execCalibration measured estimated s
  | .opStepDown p => Sys2Proof.Machine.execOpStepDown p s
  | .opStepUp p => Sys2Proof.Machine.execOpStepUp p s
  | .vcoreSettled readMv => Sys2Proof.Machine.execVcoreSettled readMv s
  | .droop g => Sys2Proof.Machine.execDroop g s
  | .sensorRead temps => Sys2Proof.Machine.execSensorRead temps s
  | .avsFail confirmedMv => Sys2Proof.Machine.execAvsFail confirmedMv s
  | .avsRetry acked => Sys2Proof.Machine.execAvsRetry acked s
  | .pmbusPoll rails => Sys2Proof.Machine.execPmbusPoll rails s
  | .pshare hp p v => Sys2Proof.Machine.execPshare hp p v s
  | .standbyTakeover micros => Sys2Proof.Machine.execStandbyTakeover micros s
  | .standbyReturn booted => Sys2Proof.Machine.execStandbyReturn booted s
  | .heartbeat => Sys2Proof.Machine.execHeartbeat s
  | .health => Sys2Proof.Machine.execHealth s
  | .telemetry => Sys2Proof.Machine.execTelemetry s
  | .mgrHb m f => Sys2Proof.Machine.execMgrHb m f s
  | .mgmtLost p => Sys2Proof.Machine.execMgmtLost p s
  | .stoppressFrame m f => Sys2Proof.Machine.execStoppressFrame m f s
  | .eventReq m f => Sys2Proof.Machine.execEventReq m f s
  | .strike m f => Sys2Proof.Machine.execStrike m f s
  | .readmit m f => Sys2Proof.Machine.execReadmit m f s
  | .freezeLift m f => Sys2Proof.Machine.execFreezeLift m f s
  | .dump m f => Sys2Proof.Machine.execDump m f s
  | .mgmtReset m f => Sys2Proof.Machine.execMgmtReset m f s
  | .takeover m f => Sys2Proof.Machine.execTakeover m f s
  | .bootPref m f => Sys2Proof.Machine.execBootPref m f s
  | .owner m f => Sys2Proof.Machine.execOwner m f s
  | .mctpRequest req => Sys2Proof.Machine.execMctpRequest req s
  | .fwChunk hp => Sys2Proof.Machine.execFwChunk hp s
  | .fwVerify hp => Sys2Proof.Machine.execFwVerify hp s
  | .fwActivate hp => Sys2Proof.Machine.execFwActivate hp s
  | .mbSvnCommit hp => Sys2Proof.Machine.execMbSvnCommit hp s
  | .dumpRead hp => Sys2Proof.Machine.execDumpRead hp s
  | .svnCommit hp => Sys2Proof.Machine.execSvnCommit hp s
  | .frzLift hp v => Sys2Proof.Machine.execFrzLift hp v s
  | .hsfrz hp v => Sys2Proof.Machine.execHsfrz hp v s
  | .flush => Sys2Proof.Machine.execFlush s
  | .evrRdSeq hp high => Sys2Proof.Machine.execEvrRdSeq hp high s
  | .evrFreeze hp => Sys2Proof.Machine.execEvrFreeze hp s
  | .evrUnfreeze hp => Sys2Proof.Machine.execEvrUnfreeze hp s
  | .freezeMax => Sys2Proof.Machine.execFreezeMax s
  | .clear hp => Sys2Proof.Machine.execClear hp s
  | .unlock hp v => Sys2Proof.Machine.execUnlock hp v s
  | .unlockLapse hp => Sys2Proof.Machine.execUnlockLapse hp s
  | .indDataRead hp => Sys2Proof.Machine.execIndDataRead hp s
  | .indDataWrite hp v => Sys2Proof.Machine.execIndDataWrite hp v s
  | .latchedRead hp at_ => Sys2Proof.Machine.execLatchedRead hp at_ s
  | .bitAliasWrite hp off v => Sys2Proof.Machine.execBitAliasWrite hp off v s
  | .asyncMask hp v => Sys2Proof.Machine.execAsyncMask hp v s
  | .coreMap hp l v => Sys2Proof.Machine.execCoreMap hp l v s
  | .registerWrite hp off size v => Sys2Proof.Machine.execRegisterWrite hp off size v s
  | .start hp => Sys2Proof.Machine.execStart hp s
  | .startUpBarrier hp => Sys2Proof.Machine.execStartUpBarrier hp s
  | .boot smbAddr => Sys2Proof.Machine.execBoot smbAddr s
  | .ready => Sys2Proof.Machine.execReady s
  | .resetN longPulse => Sys2Proof.Machine.execResetN longPulse s
  | .resetForce => Sys2Proof.Machine.execResetForce s
  | .pwrfailN longPulse => Sys2Proof.Machine.execPwrfailN longPulse s
  | .pwrfailHold => Sys2Proof.Machine.execPwrfailHold s
  | .powerLoss => Sys2Proof.Machine.execPowerLoss s
  | .refclkLoss => Sys2Proof.Machine.execRefclkLoss s
  | .hostLinkUp hp rate width => Sys2Proof.Machine.execHostLinkUp hp rate width s
  | .mgmtLinkUp m => Sys2Proof.Machine.execMgmtLinkUp m s
  | .mgmtLinkDown m => Sys2Proof.Machine.execMgmtLinkDown m s
  | .internalHeartbeat => Sys2Proof.Machine.execInternalHeartbeat s
  | .restorePartnerTimeout p => Sys2Proof.Machine.execRestorePartnerTimeout p s

end Sys2Proof.Machine
end

