-- ==== Sys2Proof/Machine/Sequencer.lean ====
section
/-! DEFINITION. What the block does by itself while no command waits (log 1): the encodings of the sequencer's
instructions (05_core_sequencer.md R125, R126), the fetch of the word at a core's PC (R129), the heads of the unit
queues (R134), descriptors fetched from the submission rings (08_host_queues.md R231), the replay (R256), and the time
that passes (14_power_clocks_thermal.md R417, R419). -/

namespace Sys2Proof.Machine

/-! ### Instruction words (R125, R126) -/

/-- A word of the REG form. -/
def regWord (op : BitVec 8) (rd ra rb : SReg) (fn : BitVec 9) : BitVec 32 := fn ++ rb ++ ra ++ rd ++ op

/-- A word of the IMM or STO form. -/
def immWord (op : BitVec 8) (rd ra : SReg) (imm : BitVec 14) : BitVec 32 := imm ++ ra ++ rd ++ op

/-- A word of the UPP form. -/
def uppWord (op : BitVec 8) (rd : SReg) (imm : BitVec 19) : BitVec 32 := imm ++ rd ++ op

/-- OP. -/
def wOp (w : BitVec 32) : BitVec 8 := w.extractLsb' 0 8
/-- rd or rs. -/
def wRd (w : BitVec 32) : SReg := w.extractLsb' 8 5
/-- ra. -/
def wRa (w : BitVec 32) : SReg := w.extractLsb' 13 5
/-- rb. -/
def wRb (w : BitVec 32) : SReg := w.extractLsb' 18 5
/-- FN. -/
def wFn (w : BitVec 32) : BitVec 9 := w.extractLsb' 23 9
/-- IMM14. -/
def wImm14 (w : BitVec 32) : BitVec 14 := w.extractLsb' 18 14
/-- IMM19. -/
def wImm19 (w : BitVec 32) : BitVec 19 := w.extractLsb' 13 19

/-- The word of a sequencer instruction; none for a command that is not one. -/
def encodeCsq (i : Instr) : Option (BitVec 32) :=
  match i with
  | .csqAdd _ rd ra rb => some (regWord 0x01 rd ra rb 0x000)
  | .csqSub _ rd ra rb => some (regWord 0x01 rd ra rb 0x001)
  | .csqAnd _ rd ra rb => some (regWord 0x01 rd ra rb 0x002)
  | .csqOr _ rd ra rb => some (regWord 0x01 rd ra rb 0x003)
  | .csqXor _ rd ra rb => some (regWord 0x01 rd ra rb 0x004)
  | .csqSll _ rd ra rb => some (regWord 0x01 rd ra rb 0x005)
  | .csqSrl _ rd ra rb => some (regWord 0x01 rd ra rb 0x006)
  | .csqSra _ rd ra rb => some (regWord 0x01 rd ra rb 0x007)
  | .csqMul _ rd ra rb => some (regWord 0x01 rd ra rb 0x008)
  | .csqMulhu _ rd ra rb => some (regWord 0x01 rd ra rb 0x009)
  | .csqDiv _ rd ra rb => some (regWord 0x01 rd ra rb 0x00A)
  | .csqRem _ rd ra rb => some (regWord 0x01 rd ra rb 0x00B)
  | .csqSlt _ rd ra rb => some (regWord 0x01 rd ra rb 0x00C)
  | .csqSltu _ rd ra rb => some (regWord 0x01 rd ra rb 0x00D)
  | .csqMin _ rd ra rb => some (regWord 0x01 rd ra rb 0x00E)
  | .csqMax _ rd ra rb => some (regWord 0x01 rd ra rb 0x00F)
  | .csqMinu _ rd ra rb => some (regWord 0x01 rd ra rb 0x010)
  | .csqMaxu _ rd ra rb => some (regWord 0x01 rd ra rb 0x011)
  | .csqAddi _ rd ra imm => some (immWord 0x02 rd ra imm)
  | .csqAndi _ rd ra imm => some (immWord 0x03 rd ra imm)
  | .csqOri _ rd ra imm => some (immWord 0x04 rd ra imm)
  | .csqXori _ rd ra imm => some (immWord 0x05 rd ra imm)
  | .csqSlli _ rd ra imm => some (immWord 0x06 rd ra imm)
  | .csqSrli _ rd ra imm => some (immWord 0x07 rd ra imm)
  | .csqSrai _ rd ra imm => some (immWord 0x08 rd ra imm)
  | .csqSlti _ rd ra imm => some (immWord 0x09 rd ra imm)
  | .csqSltiu _ rd ra imm => some (immWord 0x0A rd ra imm)
  | .csqLui _ rd imm => some (uppWord 0x0B rd imm)
  | .csqLd8 _ rd ra imm => some (immWord 0x10 rd ra imm)
  | .csqLd16 _ rd ra imm => some (immWord 0x11 rd ra imm)
  | .csqLd32 _ rd ra imm => some (immWord 0x12 rd ra imm)
  | .csqLd64 _ rd ra imm => some (immWord 0x13 rd ra imm)
  | .csqLdu8 _ rd ra imm => some (immWord 0x14 rd ra imm)
  | .csqLdu16 _ rd ra imm => some (immWord 0x15 rd ra imm)
  | .csqLdu32 _ rd ra imm => some (immWord 0x16 rd ra imm)
  | .csqSt8 _ rd ra imm => some (immWord 0x18 rd ra imm)
  | .csqSt16 _ rd ra imm => some (immWord 0x19 rd ra imm)
  | .csqSt32 _ rd ra imm => some (immWord 0x1A rd ra imm)
  | .csqSt64 _ rd ra imm => some (immWord 0x1B rd ra imm)
  | .csqBeq _ rd ra imm => some (immWord 0x20 rd ra imm)
  | .csqBne _ rd ra imm => some (immWord 0x21 rd ra imm)
  | .csqBlt _ rd ra imm => some (immWord 0x22 rd ra imm)
  | .csqBge _ rd ra imm => some (immWord 0x23 rd ra imm)
  | .csqBltu _ rd ra imm => some (immWord 0x24 rd ra imm)
  | .csqBgeu _ rd ra imm => some (immWord 0x25 rd ra imm)
  | .csqJal _ rd imm => some (uppWord 0x28 rd imm)
  | .csqJalr _ rd ra imm => some (immWord 0x29 rd ra imm)
  | .csqCsrr _ rd ra imm => some (immWord 0x30 rd ra imm)
  | .csqCsrw _ rd ra imm => some (immWord 0x31 rd ra imm)
  | .csqSemsig _ rd ra imm => some (immWord 0x38 rd ra imm)
  | .csqSemwait _ rd ra imm => some (immWord 0x39 rd ra imm)
  | .csqSemtake _ rd ra imm => some (immWord 0x3A rd ra imm)
  | .csqSemtest _ rd ra imm => some (immWord 0x3B rd ra imm)
  | .csqBar _ rd ra imm => some (immWord 0x3C rd ra imm)
  | .csqTissue _ rd ra rb fn => some (regWord 0x3D rd ra rb fn)
  | .csqHalt _ rd ra imm => some (immWord 0x3E rd ra imm)
  | _ => none

/-- The ALU instruction of an FN; none where R126 lists none. -/
def aluInstr (c : CoreId) (rd ra rb : SReg) (fn : BitVec 9) : Option Instr :=
  match fn.toNat with
  | 0x000 => some (.csqAdd c rd ra rb)
  | 0x001 => some (.csqSub c rd ra rb)
  | 0x002 => some (.csqAnd c rd ra rb)
  | 0x003 => some (.csqOr c rd ra rb)
  | 0x004 => some (.csqXor c rd ra rb)
  | 0x005 => some (.csqSll c rd ra rb)
  | 0x006 => some (.csqSrl c rd ra rb)
  | 0x007 => some (.csqSra c rd ra rb)
  | 0x008 => some (.csqMul c rd ra rb)
  | 0x009 => some (.csqMulhu c rd ra rb)
  | 0x00A => some (.csqDiv c rd ra rb)
  | 0x00B => some (.csqRem c rd ra rb)
  | 0x00C => some (.csqSlt c rd ra rb)
  | 0x00D => some (.csqSltu c rd ra rb)
  | 0x00E => some (.csqMin c rd ra rb)
  | 0x00F => some (.csqMax c rd ra rb)
  | 0x010 => some (.csqMinu c rd ra rb)
  | 0x011 => some (.csqMaxu c rd ra rb)
  | _ => none

/-- The instruction that a word spells on a core; none for an OP or FN that R126 does not list. -/
def decodeCsq (c : CoreId) (w : BitVec 32) : Option Instr :=
  match (wOp w).toNat with
  | 0x01 => aluInstr c (wRd w) (wRa w) (wRb w) (wFn w)
  | 0x02 => some (.csqAddi c (wRd w) (wRa w) (wImm14 w))
  | 0x03 => some (.csqAndi c (wRd w) (wRa w) (wImm14 w))
  | 0x04 => some (.csqOri c (wRd w) (wRa w) (wImm14 w))
  | 0x05 => some (.csqXori c (wRd w) (wRa w) (wImm14 w))
  | 0x06 => some (.csqSlli c (wRd w) (wRa w) (wImm14 w))
  | 0x07 => some (.csqSrli c (wRd w) (wRa w) (wImm14 w))
  | 0x08 => some (.csqSrai c (wRd w) (wRa w) (wImm14 w))
  | 0x09 => some (.csqSlti c (wRd w) (wRa w) (wImm14 w))
  | 0x0A => some (.csqSltiu c (wRd w) (wRa w) (wImm14 w))
  | 0x0B => some (.csqLui c (wRd w) (wImm19 w))
  | 0x10 => some (.csqLd8 c (wRd w) (wRa w) (wImm14 w))
  | 0x11 => some (.csqLd16 c (wRd w) (wRa w) (wImm14 w))
  | 0x12 => some (.csqLd32 c (wRd w) (wRa w) (wImm14 w))
  | 0x13 => some (.csqLd64 c (wRd w) (wRa w) (wImm14 w))
  | 0x14 => some (.csqLdu8 c (wRd w) (wRa w) (wImm14 w))
  | 0x15 => some (.csqLdu16 c (wRd w) (wRa w) (wImm14 w))
  | 0x16 => some (.csqLdu32 c (wRd w) (wRa w) (wImm14 w))
  | 0x18 => some (.csqSt8 c (wRd w) (wRa w) (wImm14 w))
  | 0x19 => some (.csqSt16 c (wRd w) (wRa w) (wImm14 w))
  | 0x1A => some (.csqSt32 c (wRd w) (wRa w) (wImm14 w))
  | 0x1B => some (.csqSt64 c (wRd w) (wRa w) (wImm14 w))
  | 0x20 => some (.csqBeq c (wRd w) (wRa w) (wImm14 w))
  | 0x21 => some (.csqBne c (wRd w) (wRa w) (wImm14 w))
  | 0x22 => some (.csqBlt c (wRd w) (wRa w) (wImm14 w))
  | 0x23 => some (.csqBge c (wRd w) (wRa w) (wImm14 w))
  | 0x24 => some (.csqBltu c (wRd w) (wRa w) (wImm14 w))
  | 0x25 => some (.csqBgeu c (wRd w) (wRa w) (wImm14 w))
  | 0x28 => some (.csqJal c (wRd w) (wImm19 w))
  | 0x29 => some (.csqJalr c (wRd w) (wRa w) (wImm14 w))
  | 0x30 => some (.csqCsrr c (wRd w) (wRa w) (wImm14 w))
  | 0x31 => some (.csqCsrw c (wRd w) (wRa w) (wImm14 w))
  | 0x38 => some (.csqSemsig c (wRd w) (wRa w) (wImm14 w))
  | 0x39 => some (.csqSemwait c (wRd w) (wRa w) (wImm14 w))
  | 0x3A => some (.csqSemtake c (wRd w) (wRa w) (wImm14 w))
  | 0x3B => some (.csqSemtest c (wRd w) (wRa w) (wImm14 w))
  | 0x3C => some (.csqBar c (wRd w) (wRa w) (wImm14 w))
  | 0x3D => some (.csqTissue c (wRd w) (wRa w) (wRb w) (wFn w))
  | 0x3E => some (.csqHalt c (wRd w) (wRa w) (wImm14 w))
  | _ => none

/-! ### Turns -/

/-- The sequencer of a core fetches the word at its PC and executes it; a word that R126 does not list is an illegal
instruction (R129). -/
def csqTurn (s : State) (c : CoreId) : Ans :=
  if csqReady s c then
    let k := core s c
    if badWord k then done s (eccFault s c)
    else match decodeCsq c (mget k.pm 0 (k.pc / 4)) with
      | some i => exec i s
      | none => done s (csqFault s c .illegal)
  else .next s

/-- A unit of a core starts the head of its queue: MA0, MA1, SF, mover (R134). -/
def unitTurn (s : State) (c : CoreId) (u : Nat) : Ans :=
  match u with
  | 0 => exec (.matrixInstruction c false) s
  | 1 => exec (.matrixInstruction c true) s
  | 2 => exec (.streamInstruction c) s
  | _ => done s (moverTurn s c)

/-- A queue fetches the descriptor at SQ_HEAD and starts it (08 R231). -/
def queueTurn (s : State) (h q : Nat) : Ans :=
  let x := queue s h q
  if x.state = 1 ∧ x.sqHead ≠ x.tail then
    let b := hread s h (x.sqBase + 64 * x.sqHead) 64
    done s (if b.bad then fetchFails s h q else startDesc s h q (BitVec.ofNat 512 (leNat b.data)))
  else .next s

/-- One SLOW period passes: 32 ARITH periods, of which a galley at pulse ratio k/16 delivers 2 k (14 R417, R419). -/
def slowPeriod (s : State) : State :=
  let k (g : Nat) : Nat := mget s.power.k 16 g
  { s with
    ticks := s.ticks + 1
    pulses := (List.range 16).foldl (fun m g => mset m 0 g (mget m 0 g + 2 * k g)) s.pulses
    power := { s.power with
      droopHold := (List.range 16).foldl (fun m g => mset m 0 g (mget m 0 g - 2 * k g)) s.power.droopHold } }

/-- Turns in one round: 128 sequencers, their 512 units, 256 queues, 4 replays, 32 ports, the environment's errors. -/
def turns : Nat := 933

/-- What the block does while no command waits: time passes, and the one whose turn it is acts (log 1). -/
def idleTick (s : State) : Ans :=
  if awake s then
    let n := s.ticks % turns
    let t := slowPeriod s
    if n < 128 then csqTurn t (Fin.ofNat 128 n)
    else if n < 640 then unitTurn t (Fin.ofNat 128 ((n - 128) / 4)) ((n - 128) % 4)
    else if n < 896 then queueTurn t ((n - 640) / 64) ((n - 640) % 64)
    else if n < 900 then done t (replayOne t (n - 896))
    else if n < 932 then done t (flitSlot t (n - 900))
    else done t (takeError t)
  else .next s

end Sys2Proof.Machine
end

