-- ==== Sys2Proof/Safety.lean ====
section
/-! DEFINITION. The terms that statements use: when the engines of the block have nothing left to do, when a sequencer
executes, and what its instructions leave. -/

namespace Sys2Proof.Machine

/-! ### The end of a command -/

/-- Nothing that the engines do by themselves is left to do: no negative event is unhandled, no packet is held, no drain
runs, no slot can commit, no restart exchanges PLANES or state, no mirror traffic and no vote can move, no IDENT is out of
date, no FENCE or WAIT can complete, and the operating points are followed. -/
def Calm (s : State) : Prop :=
  s.raised = [] ∧
  (∀ p, p < nparts s →
    (xport s p).held = [] ∧ (snap s p).drains = [] ∧ joining s p = false ∧
    (∀ i < 2, (slotOf s p i).state = 2 → (∀ g ∈ (slotOf s p i).pages, g.copied = true) →
      stepProven s p (slotOf s p i).step = false) ∧
    (hasFacing s p = false ∨ ((proof s p).slice ≠ 1 ∧ (proof s p).slice ≠ 7)) ∧
    (∀ j ∈ partPorts s p, (port s j).state ∈ [3, 4, 5, 8] → (port s j).sentId = identBody s p j) ∧
    ((xport s p).imp = none ∨ verdict s p ((proof s p).lastProven + 1) = false)) ∧
  (∀ h ∈ activeHps s, ∀ f ∈ (hport s h).flights, settled s h f = false) ∧
  (s.pins.stage = .ready → followPoints s = s)

/-- The command `i` answers a next state: its own effect on `s` is `u`, and the engines settle (08 to 12). -/
def Ends (i : Instr) (s u : State) : Prop := exec i s = .next (finish s u)

/-! ### Descriptors -/

/-- The descriptor `d`, of opcode `op`, at SQ_HEAD of queue `q` of host port `h` of partition `p` can start, the device is
in service, and the descriptor passes check 1 of R239. -/
def Starts (s : State) (h p q : Nat) (d : Desc) (op : Nat) : Prop :=
  awake s = true ∧ hpPart s h = some p ∧ canStartDesc s h p q d = true ∧ s.faults.oos = false ∧
  encodingOk s h q d = true ∧ dOpcode d = op

/-- The descriptor at SQ_HEAD starts and completes at once with a status and RESULT, its effect being `e`. -/
def Completes (i : Instr) (s : State) (h p q : Nat) (d : Desc) (st : St) (result : Nat) (e : State → State) : Prop :=
  Ends i s (completeDesc (e (takeDesc s h p q d).1) h (takeDesc s h p q d).2 st result true 0 none)

/-- After `b`, the descriptor at SQ_HEAD joins the started descriptors of its port as `f` says; then `e` happens. -/
def Joins (i : Instr) (s : State) (h p q : Nat) (d : Desc) (b : State → State) (f : Flight → Flight) (e : State → State) :
    Prop :=
  Ends i s (e (updHp (b (takeDesc s h p q d).1) h (fun x => { x with flights := x.flights ++ [f (takeDesc s h p q d).2] })))

/-- The descriptor rows, each with its opcode and the sub-operation that tells the rows of one opcode apart. -/
def descriptorRows : List ((HostId → QueueId → Desc → Instr) × Nat × Nat) :=
  [(.nop, 0x00, 0), (.copy, 0x01, 0), (.fill, 0x02, 0), (.launch, 0x03, 0), (.allReduce, 0x04, 0),
   (.reduceScatter, 0x04, 1), (.allGather, 0x04, 2), (.broadcast, 0x04, 3), (.allToAll, 0x04, 4), (.collBarrier, 0x04, 5),
   (.put, 0x04, 6), (.get, 0x04, 7), (.stepBegin, 0x08, 0), (.phase, 0x09, 0), (.stepEnd, 0x0A, 0)] ++
  [(.adamw, 0x0B, 0), (.sgdMomentum, 0x0B, 1), (.lion, 0x0B, 2), (.prog, 0x0B, 3), (.ssq, 0x0B, 4), (.amax, 0x0B, 5),
   (.scaleCommit, 0x0C, 0), (.snapshotEager, 0x10, 0), (.snapshotCow, 0x10, 1), (.snapshotQuiesce, 0x10, 2),
   (.restore, 0x11, 0), (.restoreFromStorage, 0x11, 1), (.drain, 0x12, 0), (.fence, 0x18, 0), (.wait, 0x19, 0)] ++
  [(.signalAdd, 0x1A, 0), (.signalSet, 0x1A, 1), (.setW, 0x1C, 0), (.setSample, 0x1C, 1), (.query, 0x1C, 2),
   (.failStep, 0x1C, 3), (.run, 0x1D, 0), (.interval, 0x1D, 1), (.testReport, 0x1D, 2), (.inject, 0x1D, 3)]

/-- A read meets no ECC error: no pseudo-channel holds an injected granule (13 R393), and the environment holds none (log 85). -/
def NoneInjected (s : State) : Prop := s.ms.channels.any (fun c => c.2.inject) = false ∧ s.ms.meets = []

/-- Writes of ranges find room in the undo journal, or need none: they do not stall (07 R211). -/
def HasRoom (s : State) (p : Nat) (ranges : List (Nat × Nat)) : Prop :=
  journalStalls s p (proof s p).openStep ranges = false

/-- A range of virtual addresses carries no poison. -/
def CleanRange (s : State) (p va n : Nat) : Prop := (vread s p va n).bad = false ∧ poisonedPa s p va n = []

/-! ### Units of a core -/

/-- The tile instruction `e` stands at the head of queue `n` of core `c` and can start: the galley arbiter grants leave where
it needs leave, no forme load stands in its way, and the semaphore it waits for covers its count (05 R134, R142; 14 R429). -/
def HeadStarts (s : State) (c n : Nat) (e : TileEntry) : Prop :=
  (unitQ (unitsOf s c) n).head? = some e ∧ (needsLeave (unitsOf s c) e = true → granted s c = true) ∧
  formeWaits (unitsOf s c) e = false ∧ e.wcnt ≤ semOf (core s c) e.wsem

/-- It has started: its count is taken from its semaphore. -/
def headTaken (s : State) (c : Nat) (e : TileEntry) : State :=
  if e.wcnt = 0 then s else setCore s c (setSem (core s c) e.wsem (semOf (core s c) e.wsem - e.wcnt))

/-! ### Registers -/

/-- A host port that can write a register: the mode uses it for partition `p`, its link is up, it is not frozen, and the device is
READY and in service of commands (15 R465; 18 R508). -/
def CanWrite (s : State) (h p : Nat) : Prop :=
  awake s = true ∧ hpPart s h = some p ∧ hostUp s h = true ∧ (hport s h).frozen = false ∧ s.pins.stage = .ready

/-- A write taken by a keyed field: the arming is consumed and KEYED_WRITE recorded (17 R485; 15 R464). -/
def keyTaken (s : State) (h off v : Nat) : State := keyedWrite (updHp s h (fun x => { x with armed := false })) h off v 0

/-! ### Packets -/

/-- A packet reaches the ingress of an ACTIVE fabric port of partition `p`, which is not STRUCK, with no packet held ahead of it. -/
def AtIngress (s : State) (j p : Nat) (pk : Packet) : Prop :=
  awake s = true ∧ portPart s j = some p ∧ (port s j).state = 5 ∧ (proof s p).slice ≠ 9 ∧ isFabric j = true ∧
  vcHeld s p j pk.vc = false

/-- It passes checks 1 to 3 of 10 R304 as a packet of a type from a rank: type and channel, addresses, slice tag. -/
def Arrives (s : State) (j p rank ptype : Nat) (pk : Packet) : Prop :=
  AtIngress s j p pk ∧ vcOk ptype pk.vc = true ∧ rankOfDev s p pk.src = some rank ∧
  (pk.dst = devId s p ∨ (ptype = 0x20 ∧ pk.dst = 0xFFFFF)) ∧ pk.imptag = sliceCrc s p % 2 ^ 32

/-- A message of a type reaches an ACTIVE port of the role that carries it, from its peer (10 R319). -/
def ArrivesReserved (s : State) (j p ptype role : Nat) (pk : Packet) : Prop :=
  awake s = true ∧ portPart s j = some p ∧ (port s j).state = 5 ∧ (proof s p).slice ≠ 9 ∧ isFabric j = false ∧
  jpRole s j = role ∧ pk.vc = 7 ∧ (port s j).peer.map (·.id) = some pk.src ∧ pk.dst = devId s p ∧
  ((role = 1 ∧ 0x40 ≤ ptype ∧ ptype ≤ 0x4A) ∨ (role = 2 ∧ 0x50 ≤ ptype ∧ ptype ≤ 0x54))

/-- The fabric packet rows, each with its type and, where the row names one, its sub-code. -/
def fabricRows : List ((PortId → Packet → Instr) × Nat × Option Nat) :=
  [(.rmaOpen, 0x01, none), (.rmaGrant, 0x02, none), (.rmaRefuse, 0x03, none), (.rmaData, 0x04, none),
   (.rmaAck, 0x06, none), (.collReady, 0x10, none), (.collData, 0x11, none), (.stop, 0x20, some 0),
   (.report, 0x20, some 1), (.decision, 0x20, some 2), (.poll, 0x20, some 3), (.up, 0x22, some 0),
   (.proven, 0x22, some 1), (.pulse, 0x22, some 2)] ++
  [(.planes, 0x23, none), (.digest, 0x24, none), (.mirrorOpen, 0x30, some 0), (.grad, 0x30, some 1),
   (.mirrorDone, 0x30, some 2), (.seal, 0x30, some 3), (.scale, 0x30, some 4), (.ownRestore, 0x32, some 0),
   (.mirrorFill, 0x32, some 1), (.shadowFill, 0x32, some 2), (.scaleRestore, 0x32, some 3), (.stateXferEnd, 0x32, some 4)]

/-! ### The core sequencer -/

/-- A core's sequencer executes the instruction at its PC: it runs, is not stalled, and the word has no ECC error. -/
def CsqRuns (s : State) (c : Nat) : Prop := csqReady s c = true ∧ badWord (core s c) = false

/-- The instruction of core `c` completes with core state `k` and the sequencer goes on at `pc`. -/
def retireAt (s : State) (c : Nat) (k : Core) (pc : Nat) : State :=
  setCore s c { k with pc := pc, lastPcs := traced (core s c) }

/-- The same at PC + 4. -/
def retire (s : State) (c : Nat) (k : Core) : State := retireAt s c k ((core s c).pc + 4)

end Sys2Proof.Machine
end

