-- ==== Sys2Proof/Certificates/Slice0/Obligations.lean ====
section
/-! DEFINITION. The statements for the provers. `finish s u` is the end of a command whose own effect on `s` is `u`. -/

open Sys2Proof Sys2Proof.Machine

/-! ### The block and its queue of commands -/

/-- One step takes the command at the front of the queue and runs it on the state with the queue's rest. -/
def Obligations.StepRunsTheFrontCommand : Prop :=
  ∀ (s : State) (c : Instr) (r : List Instr), s.pending = c :: r → step s = exec c { s with pending := r }

/-- Every step takes exactly the front command off the queue, whatever it does, and leaves no negative event unhandled
(`raised`, log 11). On an empty queue the idle tick (log 1) leaves the queue empty. -/
def Obligations.EveryStepTakesOneCommandAndLeavesNoEventUnhandled : Prop :=
  ∀ s t : State, s.raised = [] → step s = .next t → t.raised = [] ∧ t.pending = s.pending.tail

/-- No command can put a command into the queue or take one out. -/
def Obligations.NoCommandTouchesTheQueue : Prop :=
  ∀ (c : Instr) (s t : State), exec c s = .next t → t.pending = s.pending

/-- After reset no command waits, no negative event is unhandled, no memory byte is listed, the memory has its canonical
form, and Speush boots: no partition is RUNNING or past its start-up barrier. -/
def Obligations.ResetIsEmptyAndCanonical : Prop :=
  State.reset.raised = [] ∧ State.reset.pending = [] ∧ State.reset.ms.mem = [] ∧ Memory.wf State.reset.ms.mem = true ∧
  State.reset.pins.stage = .booting ∧ (∀ p < 4, (part State.reset p).pstate = 0 ∧ (proof State.reset p).slice = 0)

/-- The end of a command: where the engines have nothing left to do, the command's own effect is the next state; a device in
reset or without clocks settles nothing. Nothing but the queue and the list of unhandled events is touched. -/
def Obligations.EnginesWithNothingToDoChangeNothing : Prop :=
  ∀ s u : State,
    (awake u = true → Calm u → finish s u = { u with pending := s.pending, raised := [] }) ∧
    (awake u = false → finish s u = { u with pending := s.pending, raised := [] })

/-! ### The core sequencer (05_core_sequencer.md) -/

/-- ADD to MAXU (R126, R127): s[rd] is the result, PC advances by 4, and nothing else changes.

DIV and REM (R126, R127): truncated division and the remainder with the sign of the dividend; by zero both give 0,
-2^63 by -1 gives 2^63 - 1 and 0, and no result raises a fault.

ADDI to SLTIU, the immediate shifts and LUI (R125, R126). -/
def Obligations.CsqArithmetic : Prop :=
  (∀ (s : State) (c : CoreId) (rd ra rb : SReg), CsqRuns s c → (core s c).pc + 4 < 2 ^ 18 →
     let k := core s c
     let a := sget k ra
     let b := sget k rb
     let n := b.toNat % 64
     exec (.csqAdd c rd ra rb) s = .next (retire s c (sset k rd (BitVec.ofNat 64 (a.toNat + b.toNat)))) ∧
     exec (.csqSub c rd ra rb) s = .next (retire s c (sset k rd (BitVec.ofInt 64 ((a.toNat : Int) - b.toNat)))) ∧
     exec (.csqAnd c rd ra rb) s = .next (retire s c (sset k rd (a &&& b))) ∧
     exec (.csqOr c rd ra rb) s = .next (retire s c (sset k rd (a ||| b))) ∧
     exec (.csqXor c rd ra rb) s = .next (retire s c (sset k rd (a ^^^ b))) ∧
     exec (.csqSll c rd ra rb) s = .next (retire s c (sset k rd (BitVec.ofNat 64 (a.toNat * 2 ^ n)))) ∧
     exec (.csqSrl c rd ra rb) s = .next (retire s c (sset k rd (BitVec.ofNat 64 (a.toNat / 2 ^ n)))) ∧
     exec (.csqSra c rd ra rb) s = .next (retire s c (sset k rd (BitVec.ofInt 64 (a.toInt / 2 ^ n)))) ∧
     exec (.csqMul c rd ra rb) s = .next (retire s c (sset k rd (BitVec.ofNat 64 (a.toNat * b.toNat)))) ∧
     exec (.csqMulhu c rd ra rb) s = .next (retire s c (sset k rd (BitVec.ofNat 64 (a.toNat * b.toNat / 2 ^ 64)))) ∧
     exec (.csqSlt c rd ra rb) s = .next (retire s c (sset k rd (if a.toInt < b.toInt then 1 else 0))) ∧
     exec (.csqSltu c rd ra rb) s = .next (retire s c (sset k rd (if a.toNat < b.toNat then 1 else 0))) ∧
     exec (.csqMin c rd ra rb) s = .next (retire s c (sset k rd (BitVec.ofInt 64 (min a.toInt b.toInt)))) ∧
     exec (.csqMax c rd ra rb) s = .next (retire s c (sset k rd (BitVec.ofInt 64 (max a.toInt b.toInt)))) ∧
     exec (.csqMinu c rd ra rb) s = .next (retire s c (sset k rd (BitVec.ofNat 64 (min a.toNat b.toNat)))) ∧
     exec (.csqMaxu c rd ra rb) s = .next (retire s c (sset k rd (BitVec.ofNat 64 (max a.toNat b.toNat))))) ∧
  (∀ (s : State) (c : CoreId) (rd ra rb : SReg), CsqRuns s c → (core s c).pc + 4 < 2 ^ 18 →
     let k := core s c
     let a := sget k ra
     let b := sget k rb
     exec (.csqDiv c rd ra rb) s = .next (retire s c (sset k rd
       (if b = 0 then 0
        else if a.toInt = -2 ^ 63 ∧ b.toInt = -1 then BitVec.ofInt 64 (2 ^ 63 - 1)
        else BitVec.ofInt 64 (Int.tdiv a.toInt b.toInt)))) ∧
     exec (.csqRem c rd ra rb) s = .next (retire s c (sset k rd
       (if b = 0 then 0 else if a.toInt = -2 ^ 63 ∧ b.toInt = -1 then 0 else BitVec.ofInt 64 (Int.tmod a.toInt b.toInt))))) ∧
  (∀ (s : State) (c : CoreId) (rd ra : SReg) (imm : BitVec 14) (up : BitVec 19), CsqRuns s c → (core s c).pc + 4 < 2 ^ 18 →
     let k := core s c
     let a := sget k ra
     let x : BitVec 64 := BitVec.ofInt 64 imm.toInt
     let n := imm.toNat
     exec (.csqAddi c rd ra imm) s = .next (retire s c (sset k rd (BitVec.ofInt 64 (a.toInt + imm.toInt)))) ∧
     exec (.csqAndi c rd ra imm) s = .next (retire s c (sset k rd (a &&& x))) ∧
     exec (.csqOri c rd ra imm) s = .next (retire s c (sset k rd (a ||| x))) ∧
     exec (.csqXori c rd ra imm) s = .next (retire s c (sset k rd (a ^^^ x))) ∧
     exec (.csqSlti c rd ra imm) s = .next (retire s c (sset k rd (if a.toInt < imm.toInt then 1 else 0))) ∧
     exec (.csqSltiu c rd ra imm) s = .next (retire s c (sset k rd (if a.toNat < x.toNat then 1 else 0))) ∧
     exec (.csqLui c rd up) s = .next (retire s c (sset k rd (BitVec.ofInt 64 (up.toInt * 2 ^ 14)))) ∧
     (n < 64 →
       exec (.csqSlli c rd ra imm) s = .next (retire s c (sset k rd (BitVec.ofNat 64 (a.toNat * 2 ^ n)))) ∧
       exec (.csqSrli c rd ra imm) s = .next (retire s c (sset k rd (BitVec.ofNat 64 (a.toNat / 2 ^ n)))) ∧
       exec (.csqSrai c rd ra imm) s = .next (retire s c (sset k rd (BitVec.ofInt 64 (a.toInt / 2 ^ n))))))

/-- Loads (R126, R128): an aligned access below 0xC0_0000 of lines without poison gives the little-endian bytes,
sign-extended (LD) or zero-extended (LDU).

Stores (R126, R128) and their frame: the low bytes of s[rs] stand at the address, every other byte of the scratchpad and
its poison are as before, and nothing else of the core but PC changes. -/
def Obligations.CsqLoadsAndStores : Prop :=
  (∀ (s : State) (c : CoreId) (rd ra : SReg) (imm : BitVec 14), CsqRuns s c → (core s c).pc + 4 < 2 ^ 18 →
     let k := core s c
     let a := (sget k ra + BitVec.ofInt 64 imm.toInt).toNat
     let u (n : Nat) : Nat := leNat (rdBytes k.spad a n)
     let ok (n : Nat) : Prop := a % n = 0 ∧ a + n ≤ 0xC00000 ∧ (spadRead k a n).bad = false
     (ok 1 → exec (.csqLd8 c rd ra imm) s = .next (retire s c (sset k rd ((BitVec.ofNat 8 (u 1)).signExtend 64)))) ∧
     (ok 2 → exec (.csqLd16 c rd ra imm) s = .next (retire s c (sset k rd ((BitVec.ofNat 16 (u 2)).signExtend 64)))) ∧
     (ok 4 → exec (.csqLd32 c rd ra imm) s = .next (retire s c (sset k rd ((BitVec.ofNat 32 (u 4)).signExtend 64)))) ∧
     (ok 8 → exec (.csqLd64 c rd ra imm) s = .next (retire s c (sset k rd (BitVec.ofNat 64 (u 8))))) ∧
     (ok 1 → exec (.csqLdu8 c rd ra imm) s = .next (retire s c (sset k rd (BitVec.ofNat 64 (u 1))))) ∧
     (ok 2 → exec (.csqLdu16 c rd ra imm) s = .next (retire s c (sset k rd (BitVec.ofNat 64 (u 2))))) ∧
     (ok 4 → exec (.csqLdu32 c rd ra imm) s = .next (retire s c (sset k rd (BitVec.ofNat 64 (u 4)))))) ∧
  (∀ (s : State) (c : CoreId) (rs ra : SReg) (imm : BitVec 14), CsqRuns s c → (core s c).pc + 4 < 2 ^ 18 →
     let k := core s c
     let a := (sget k ra + BitVec.ofInt 64 imm.toInt).toNat
     let stored (n : Nat) (m : List Host.Cell) : Prop :=
       rdBytes m a n = leBytes n (sget k rs).toNat ∧ ∀ x, x < a ∨ a + n ≤ x → rdByte m x = rdByte k.spad x
     let ok (n : Nat) : Prop := a % n = 0 ∧ a + n ≤ 0xC00000
     (ok 1 → ∃ m, stored 1 m ∧ exec (.csqSt8 c rs ra imm) s = .next (retire s c { k with spad := m })) ∧
     (ok 2 → ∃ m, stored 2 m ∧ exec (.csqSt16 c rs ra imm) s = .next (retire s c { k with spad := m })) ∧
     (ok 4 → ∃ m, stored 4 m ∧ exec (.csqSt32 c rs ra imm) s = .next (retire s c { k with spad := m })) ∧
     (ok 8 → ∃ m, stored 8 m ∧ exec (.csqSt64 c rs ra imm) s = .next (retire s c { k with spad := m })))

/-- Branches and jumps (R126): a branch that is taken goes to PC + 4 x IMM14, any other to PC + 4; JAL goes to PC + 4 x IMM19
and JALR to s[ra] + IMM14, both with PC + 4 in s[rd]. Targets outside program memory are another statement's. -/
def Obligations.CsqBranchesAndJumps : Prop :=
  ∀ (s : State) (c : CoreId) (rs ra rd : SReg) (imm : BitVec 14) (up : BitVec 19), CsqRuns s c →
    let k := core s c
    let a := sget k ra
    let b := sget k rs
    let rel (x : Int) : Nat := (BitVec.ofInt 64 ((k.pc : Int) + 4 * x)).toNat
    let goes (t : Bool) : Nat   := rel (if t then imm.toInt else 1)
    let jalr := (a + BitVec.ofInt 64 imm.toInt).toNat
    (∀ t, goes t < 2 ^ 18) → rel up.toInt < 2 ^ 18 → jalr < 2 ^ 18 → jalr % 4 = 0 →
    exec (.csqBeq c rs ra imm) s = .next (retireAt s c k (goes (decide (a = b)))) ∧
    exec (.csqBne c rs ra imm) s = .next (retireAt s c k (goes (decide (a ≠ b)))) ∧
    exec (.csqBlt c rs ra imm) s = .next (retireAt s c k (goes (decide (a.toInt < b.toInt)))) ∧
    exec (.csqBge c rs ra imm) s = .next (retireAt s c k (goes (decide (b.toInt ≤ a.toInt)))) ∧
    exec (.csqBltu c rs ra imm) s = .next (retireAt s c k (goes (decide (a.toNat < b.toNat)))) ∧
    exec (.csqBgeu c rs ra imm) s = .next (retireAt s c k (goes (decide (b.toNat ≤ a.toNat)))) ∧
    exec (.csqJal c rd up) s = .next (retireAt s c (sset k rd (BitVec.ofNat 64 (k.pc + 4))) (rel up.toInt)) ∧
    exec (.csqJalr c rd ra imm) s = .next (retireAt s c (sset k rd (BitVec.ofNat 64 (k.pc + 4))) jalr)

/-- CSRR and CSRW (R126, R130): CSRR gives a listed entry; CSRW of a writable entry changes what CSRR gives for it and, of
the entries, nothing else; a read-only entry ignores the write.

s0 reads as 0 whatever it was given, and any other register reads as what was last written (R124). -/
def Obligations.CsqRegistersAndControlSpace : Prop :=
  (∀ (s : State) (c : CoreId) (r : SReg) (imm : BitVec 14) (v : BitVec 64), CsqRuns s c → (core s c).pc + 4 < 2 ^ 18 →
     imm.toNat < 4096 → csRead s c (core s c) imm.toNat = some v →
     exec (.csqCsrr c r 0 imm) s = .next (retire s c (sset (core s c) r v)) ∧
     exec (.csqCsrw c r 0 imm) s = .next (retire s c (csWrite (core s c) imm.toNat (sget (core s c) r))) ∧
     let i := imm.toNat
     let new (x : BitVec 64) : BitVec 64 :=
       if 0x040 ≤ i ∧ i < 0x080 then BitVec.ofNat 64 (x.toNat % 2 ^ 32)
       else if 0x100 ≤ i ∧ i < 0x180 then (if i % 8 = 7 then 0 else BitVec.ofNat 64 (x.toNat % 2 ^ (if i % 8 = 5 ∨ i % 8 = 6 then 24 else 32)))
       else if i = 0x011 then v &&& ~~~x
       else if 0x180 ≤ i ∧ i < 0x184 then x else v
     (∀ x, csRead s c (csWrite (core s c) i x) i = some (new x)) ∧
     (∀ x e, e ≠ i → csRead s c (csWrite (core s c) i x) e = csRead s c (core s c) e)) ∧
  (∀ (k : Core) (r q : SReg) (v : BitVec 64),
     sget (sset k r v) q = if q = 0 then 0 else if q = r then v else sget k q)

/-- SEMSIG, SEMWAIT, SEMTAKE and SEMTEST (R126, R142): the semaphore is (s[rs] + IMM14[5:0]) mod 64 and the amount
s[ra][31:0]. An addition that does not fit stops at 2^32 - 1 and sets SEM_SAT; SEMWAIT and SEMTAKE go on once the semaphore
covers the amount, and change nothing before.

BAR and BARRIER_RELEASE (R126, R144): a core that meets BAR counts it and waits; once every core of the LAUNCH that
the scope names waits there, each goes on, and no other core changes. -/
def Obligations.CsqSemaphoresAndBarriers : Prop :=
  (∀ (s : State) (c : CoreId) (x y : SReg) (imm : BitVec 14), CsqRuns s c → (core s c).pc + 4 < 2 ^ 18 → imm.toNat < 64 →
     let k := core s c
     let i := ((sget k x).toNat + imm.toNat) % 64
     let j := ((sget k y).toNat + imm.toNat) % 64
     let n := (sget k y).toNat % 2 ^ 32
     (semOf k i + n < 2 ^ 32 → exec (.csqSemsig c x y imm) s = .next (retire s c (setSem k i (semOf k i + n)))) ∧
     (2 ^ 32 ≤ semOf k i + n →
       exec (.csqSemsig c x y imm) s = .next (retire s c { setSem k i (2 ^ 32 - 1) with semSat := true })) ∧
     (n ≤ semOf k i → exec (.csqSemwait c x y imm) s = .next (retire s c k)) ∧
     (n ≤ semOf k i → exec (.csqSemtake c x y imm) s = .next (retire s c (setSem k i (semOf k i - n)))) ∧
     (semOf k i < n → exec (.csqSemwait c x y imm) s = .next s ∧ exec (.csqSemtake c x y imm) s = .next s) ∧
     exec (.csqSemtest c x y imm) s = .next (retire s c (sset k x (BitVec.ofNat 64 (semOf k j))))) ∧
  (∀ (s : State) (c : CoreId) (imm : BitVec 14) (id : Nat) (scope : Bool) (g : Fin 16) (l : Launch),
     (CsqRuns s c → (core s c).pc + 4 < 2 ^ 18 → imm.toNat < 2 →
       exec (.csqBar c 0 0 imm) s = .next (retire s c (if imm.toNat = 1
         then { core s c with bars1 := (core s c).bars1 + 1, csq := .barrier true }
         else { core s c with bars0 := (core s c).bars0 + 1, csq := .barrier false }))) ∧
     (awake s = true → launchOf s id = some l → participants l scope g ≠ [] →
       (∀ n ∈ participants l scope g,
         (core s (physOf s n)).launch = id ∧ (core s (physOf s n)).csq = .barrier scope) →
       ∃ t, exec (.barrierRelease id scope g) s = .next t ∧
         (∀ n ∈ participants l scope g, core t (physOf s n) = { core s (physOf s n) with csq := .running }) ∧
         (∀ x, (∀ n ∈ participants l scope g, physOf s n ≠ x) → core t x = core s x) ∧
         { t with cores := s.cores } = s))

/-- TISSUE and HALT (R126, R134, R149): a legal tile instruction whose queue has room joins the end of its unit's queue, and
PC advances; HALT stops fetching, and the program ends with its exit value once all four queues are empty. -/
def Obligations.CsqTissueAndHalt : Prop :=
  ∀ (s : State) (c : CoreId) (ra rb : SReg), CsqRuns s c → (core s c).pc + 4 < 2 ^ 18 →
    let k := core s c
    let e := issueEntry s c k (sget k rb ++ sget k ra)
    let h := setCore s c { k with csq := .halting (BitVec.ofNat 32 ((sget k ra).toNat % 2 ^ 32)) k.pc, lastPcs := traced k }
    (e.unit < 4 → (unitQ (unitsOf s c) e.unit).length < 16 → issueCheck e = none →
      exec (.csqTissue c 0 ra rb 0) s = .next (retire (enqueue s c e) c k)) ∧
    (queuesEmpty (unitsOf s c) = false → exec (.csqHalt c 0 ra 0) s = .next (finish s h)) ∧
    (queuesEmpty (unitsOf s c) = true →
      exec (.csqHalt c 0 ra 0) s =
        .next (finish s (endProgram h c { exit := (sget k ra).toNat % 2 ^ 32, outcome := 0, pc := k.pc })))

/-- The faults of the CSQ that an instruction meets (R129): a misaligned or too high access, a required-zero field that is
not 0, a target outside program memory and a misaligned JALR end the program with OUTCOME FAULTED and the fault's code, at
the instruction's own PC, and no register or byte of the scratchpad is written.

An instruction of a core whose sequencer does not execute is turned away: nothing changes (log 4). -/
def Obligations.CsqFaultsAndTurnedAway : Prop :=
  (∀ (s : State) (c : CoreId) (rd ra : SReg) (imm : BitVec 14), CsqRuns s c →
     let k := core s c
     let a := (sget k ra + BitVec.ofInt 64 imm.toInt).toNat
     let ends (code : Nat) (r : Host.Outcome State Fault Refusal) : Prop :=
       r = .next (finish s (endProgram s c { outcome := 1, fault := code, pc := k.pc }))
     (a % 8 ≠ 0 → ends 2 (exec (.csqLd64 c rd ra imm) s) ∧ ends 2 (exec (.csqSt64 c rd ra imm) s)) ∧
     (a % 8 = 0 → 0xC00000 < a + 8 → ends 3 (exec (.csqLd64 c rd ra imm) s) ∧ ends 3 (exec (.csqSt64 c rd ra imm) s)) ∧
     (64 ≤ imm.toNat → ends 1 (exec (.csqSlli c rd ra imm) s) ∧ ends 1 (exec (.csqSemsig c rd ra imm) s)) ∧
     (a % 4 ≠ 0 → ends 2 (exec (.csqJalr c rd ra imm) s)) ∧
     (4096 ≤ imm.toNat ∨ ra ≠ 0 ∨ csRead s c k (imm.toNat % 4096) = none →
       ends 1 (exec (.csqCsrr c rd ra imm) s) ∧ ends 1 (exec (.csqCsrw c rd ra imm) s)) ∧
     (2 ^ 18 ≤ (BitVec.ofInt 64 ((k.pc : Int) + 4 * imm.toInt)).toNat →
       exec (.csqBeq c ra ra imm) s =
         .next (finish s (endProgram (setCore s c k) c { outcome := 1, fault := 4, pc := k.pc })))) ∧
  (∀ (s : State) (c : CoreId) (i : Instr) (w : BitVec 32), encodeCsq i = some w → decodeCsq c w = some i →
     csqReady s c = false → exec i s = .next s)

/-! ### The encoding of the core sequencer (R125, R126) -/

/-- Every instruction of R126 keeps every operand through its 32-bit word. -/
def Obligations.CsqDecodeOfEncode : Prop :=
  ∀ (i : Instr) (w : BitVec 32), encodeCsq i = some w → ∃ c : CoreId, decodeCsq c w = some i

/-- A word that decodes to an instruction is that instruction's encoding: no bit of it is ignored. -/
def Obligations.CsqEncodeOfDecode : Prop :=
  ∀ (c : CoreId) (w : BitVec 32) (i : Instr), decodeCsq c w = some i → encodeCsq i = some w

/-! ### Descriptors (08_host_queues.md) -/

/-- A descriptor that starts leaves its ring and takes the next place in descriptor order, for every row: SQ_HEAD goes on by
one modulo RINGSZ, the partition's count of started descriptors rises by 1, the queue notes the descriptor as its latest,
and the descriptor has the queue's generation and the old SQ_HEAD as its index (R228, R230, R234). What follows is the body
of its opcode. -/
def Obligations.EveryDescriptorRowStartsItsDescriptor : Prop :=
  ∀ (s : State) (h : HostId) (q : QueueId) (p : Nat) (d : Desc), ∀ r ∈ descriptorRows,
    awake s = true → hpPart s h = some p → canStartDesc s h p q d = true → fitsRow s h d r.2.1 r.2.2 = true →
    let t := (takeDesc s h p q d).1
    let f := (takeDesc s h p q d).2
    Ends (r.1 h q d) s ((descBody t h p f none).run h f) ∧
    queue t h q = { queue s h q with sqHead := ((queue s h q).sqHead + 1) % (queue s h q).ringsz,
                                     lastDescs := (d :: (queue s h q).lastDescs).take 4 } ∧
    part t p = { part s p with started := (part s p).started + 1 } ∧
    (∀ h' q', (h' ≠ h.toNat ∨ q' ≠ q.toNat) → queue t h' q' = queue s h' q') ∧ (∀ p', p' ≠ p → part t p' = part s p') ∧
    { t with hps := s.hps, parts := s.parts } = s ∧
    f.didx = (queue s h q).sqHead ∧ f.qgen = (queue s h q).gen ∧ f.q = q.toNat ∧ f.desc = d ∧ f.step = stepOf s p d

/-- The checks that come before a descriptor's body (R239, 13 R405): a device out of service completes every descriptor
FENCED; an opcode that R237 does not list, a reserved bit that is 1 or a step-queue descriptor on another queue completes
BAD_DESC. Neither has any other effect.

A descriptor that cannot start, or that is of another row, changes nothing (log 3, log 4); nor does any command but a
pin's while the device is held in reset or its clocks stand still (log 36): here for the descriptor rows.

SET_W, SET_SAMPLE and INTERVAL with an argument outside their ranges complete BAD_DESC, INTERVAL from another host than
the owner and INJECT without INJ_EN complete UNSUPPORTED, and FAIL_STEP with no open step completes BAD_DESC; nothing else
happens (R239; 11 R329, R335; 13 R393). -/
def Obligations.DescriptorChecks : Prop :=
  (∀ (s : State) (h : HostId) (q : QueueId) (p : Nat) (d : Desc), ∀ r ∈ descriptorRows,
     awake s = true → hpPart s h = some p → canStartDesc s h p q d = true → fitsRow s h d r.2.1 r.2.2 = true →
     (s.faults.oos = true → Completes (r.1 h q d) s h p q d .fenced 0 id) ∧
     (s.faults.oos = false → dOpcode d ≠ 0x0B → encodingOk s h q d = false → Completes (r.1 h q d) s h p q d .badDesc 0 id)) ∧
  (∀ (s : State) (h : HostId) (q : QueueId) (d : Desc), ∀ r ∈ descriptorRows,
     (awake s = false → exec (r.1 h q d) s = .next s) ∧
     (awake s = true → fitsRow s h d r.2.1 r.2.2 = false → Ends (r.1 h q d) s s) ∧
     (awake s = true → (∀ p, hpPart s h = some p → canStartDesc s h p q d = false) → Ends (r.1 h q d) s s)) ∧
  (∀ (s : State) (h : HostId) (q : QueueId) (p : Nat) (d : Desc),
     let a := dF d 10 0 16
     let pop := dF d 8 0 8
     (Starts s h p q d 0x1C → pop = 0 → (a < 1 ∨ 4 < a) → Completes (.setW h q d) s h p q d .badDesc 0 id) ∧
     (Starts s h p q d 0x1C → pop = 1 → (a < 4 ∨ 10 < a) → Completes (.setSample h q d) s h p q d .badDesc 0 id) ∧
     (Starts s h p q d 0x1C → pop = 3 → (proof s p).openStep = none → Completes (.failStep h q d) s h p q d .badDesc 0 id) ∧
     (Starts s h p q d 0x1D → pop = 1 → (a < 1 ∨ 3600 < a) → Completes (.interval h q d) s h p q d .badDesc 0 id) ∧
     (Starts s h p q d 0x1D → pop = 1 → 1 ≤ a → a ≤ 3600 → isOwner s h = false →
       Completes (.interval h q d) s h p q d .unsupported 0 id) ∧
     (∀ u g, Starts s h p q d 0x1D → pop = 3 → injectFault (a / 4096) (a % 4096) = some (u, g) → unitPart s u = p →
       regF s .dev 0x00C0804 12 1 = 0 → Completes (.inject h q d) s h p q d .unsupported 0 id))

/-- The descriptors that complete at once (R236, R239; 11 R329, R332, R335; 13 R393): NOP, SIGNAL in both forms with its
saturation, PROOF_CTRL SET_W, SET_SAMPLE and FAIL_STEP, TEST_CTRL INTERVAL and INJECT, and SCALE_COMMIT. -/
def Obligations.DescriptorsThatCompleteAtOnce : Prop :=
  ∀ (s : State) (h : HostId) (q : QueueId) (p : Nat) (d : Desc),
    let a := dF d 10 0 16
    let k := dF d 9 0 6
    let v := dF d 16 0 64
    let pop := dF d 8 0 8
    (Starts s h p q d 0x00 → Completes (.nop h q d) s h p q d .done 0 id) ∧
    (Starts s h p q d 0x1A → bitOf d 64 = false →
      (v ≠ 0 → Completes (.signalAdd h q d) s h p q d .done 0 (fun t => setEc t p k (ecOf s p k + v))) ∧
      (v = 0 → Completes (.signalAdd h q d) s h p q d .doneEmpty 0 id)) ∧
    (Starts s h p q d 0x1A → bitOf d 64 = true →
      Completes (.signalSet h q d) s h p q d .done 0 (fun t => setEc t p k v)) ∧
    (Starts s h p q d 0x1C → pop = 0 → 1 ≤ a → a ≤ 4 →
      Completes (.setW h q d) s h p q d .done 0 (fun t => updProof t p (fun x => { x with wNext := a }))) ∧
    (Starts s h p q d 0x1C → pop = 1 → 4 ≤ a → a ≤ 10 →
      Completes (.setSample h q d) s h p q d .done 0 (fun t => updProof t p (fun x => { x with sampleK := a }))) ∧
    (∀ n, Starts s h p q d 0x1C → pop = 3 → (proof s p).openStep = some n →
      Completes (.failStep h q d) s h p q d .done 0 (fun t => raise t p 0x0B (some n) (ucHost (partHp s p)))) ∧
    (Starts s h p q d 0x1D → pop = 1 → 1 ≤ a → a ≤ 3600 → isOwner s h = true →
      Completes (.interval h q d) s h p q d .done 0 (fun t => setRegF t .dev 0x00C0804 0 12 a)) ∧
    (∀ u g, Starts s h p q d 0x1D → pop = 3 → injectFault (a / 4096) (a % 4096) = some (u, g) → unitPart s u = p →
      regF s .dev 0x00C0804 12 1 = 1 → Completes (.inject h q d) s h p q d .done 0 g) ∧
    (∀ n, Starts s h p q d 0x0C → dF d 8 0 48 = n → stepOf s p d = some n → 1 ≤ dF d 20 0 32 → dF d 20 0 32 ≤ 65536 →
      Completes (.scaleCommit h q d) s h p q d .done 0 (fun t => (List.range (dF d 20 0 32)).foldl (fun t i =>
        commitScale t p (scaleIndex t p ((dF d 16 0 16 + i) % 65536)) n (ucEngine (p * nstacks t))) t))

/-- COPY, FILL, QUERY and REPORT (R240, R256; 11 R361; 13 R393): once the checks pass and the undo journal has room (07
R211), the source's bytes stand at the destination with their poison, the pattern repeats from the destination's address, or
the record stands at VA. A COPY with JIN of input keeps its bytes and their poison for the replay.

A FILL whose range leaves its host's scope completes OUT_OF_SCOPE and freezes its own queue, with a FREEZE record that
holds the first address out of scope (R235, R240; 15 R465); no byte of the range is written. -/
def Obligations.CopyFillAndRecords : Prop :=
  (∀ (s : State) (h : HostId) (q : QueueId) (p : Nat) (d : Desc),
     let n := cpLen d
     let t := (takeDesc s h p q d).1
     let f := (takeDesc s h p q d).2
     let m := moveCopy t p d none
     let st : St := if m.2.bad then .poisoned else .done
     let dst := dF d 8 0 48
     let len := dF d 16 0 40
     let va := dF d 16 0 48
     (Starts s h p q d 0x01 → (isHostVa (cpSrc d) && isHostVa (cpDst d)) = false →
       rangesMeet (cpSrc d, n) (cpDst d, n) = false → fencedMem s p (cpSrc d) n = false → fencedMem s p (cpDst d) n = false →
       (n = 0 → Completes (.copy h q d) s h p q d .doneEmpty 0 id) ∧
       (n ≠ 0 → scopeOk s p .host false (cpSrc d) n = true → scopeOk s p .host true (cpDst d) n = true → HasRoom s p [(cpDst d, n)] →
         (keepsInput s p d = false → Ends (.copy h q d) s (completeDesc m.1 h f st 0 true 0 none)) ∧
         (∀ k, keepsInput s p d = true → stepOf s p d = some k → inputHeld s p + n ≤ inputRoom s p →
           Ends (.copy h q d) s (completeDesc m.1 h f st 0 true 0 (some m.2))))) ∧
     (Starts s h p q d 0x02 → fencedMem s p dst len = false →
       (len = 0 → Completes (.fill h q d) s h p q d .doneEmpty 0 id) ∧
       (len ≠ 0 → scopeOk s p .host true dst len = true → HasRoom s p [(dst, len)] →
         Completes (.fill h q d) s h p q d .done 0 (fun t => vwrite t p dst
           (.clean ((upto dst len).map (fun a => (leBytes 8 (dF d 24 0 64)).getD (a % 8) 0)))))) ∧
     (Starts s h p q d 0x1C → dF d 8 0 8 = 2 → fencedMem s p va 64 = false → scopeOk s p .host true va 64 = true →
       Completes (.query h q d) s h p q d .done 0 (fun t => vwrite t p va (.clean (proofRecord s p)))) ∧
     (Starts s h p q d 0x1D → dF d 8 0 8 = 2 → fencedMem s p va 64 = false → scopeOk s p .host true va 64 = true →
       Completes (.testReport h q d) s h p q d .done 0 (fun t => vwrite t p va (.clean (testReport s))))) ∧
  (∀ (s : State) (h : HostId) (q : QueueId) (p : Nat) (d : Desc),
     let dst := dF d 8 0 48
     let len := dF d 16 0 40
     let t := (takeDesc s h p q d).1
     let f := (takeDesc s h p q d).2
     Starts s h p q d 0x02 → fencedMem s p dst len = false → len ≠ 0 → scopeOk s p .host true dst len = false →
     ∃ u, Ends (.fill h q d) s (freezeQueue u h q (badVa s p .host true dst len)) ∧
       u = completeDesc t h f .outOfScope 0 false 0 none ∧
       (queue (freezeQueue u h q (badVa s p .host true dst len)) h q).state = 3 ∧ u.ms = s.ms)

/-- Descriptors that join the started descriptors and complete later (R237, R241, R244, R245, R248; 12 R370; 13 R393):
FENCE, WAIT, STEP_BEGIN, STEP_END, SNAPSHOT in EAGER and COW mode, RUN, and a LAUNCH of programs already loaded. -/
def Obligations.DescriptorsThatWait : Prop :=
  ∀ (s : State) (h : HostId) (q : QueueId) (p : Nat) (d : Desc),
    let n := dF d 8 0 48
    let va := dF d 16 0 48
    let mask := dF d 8 0 120
    let named := bitsSet mask 120
    let range := 16 * (named.foldl max 0) + 16
    (Starts s h p q d 0x18 →
      Joins (.fence h q d) s h p q d id (fun f => { f with waits := .fence (bitOf d 64) }) id) ∧
    (Starts s h p q d 0x19 → dF d 8 0 3 ≤ 3 →
      Joins (.wait h q d) s h p q d id (fun f => { f with waits := .cond (dF d 8 0 3) (dF d 9 0 6) (dF d 16 0 64) }) id) ∧
    (Starts s h p q d 0x08 → passed s p = true → va % 32 = 0 → n = (proof s p).nextStep →
      dF d 14 0 16 = (xport s p).epoch → fencedMem s p va 32 = false → scopeOk s p .host true va 32 = true →
      Joins (.stepBegin h q d) s h p q d (fun t => updProof t p (fun x => { x with begun := true, nextStep := n + 1 }))
        (fun f => { f with step := some n, waits := .stepBegin n va }) id) ∧
    (Starts s h p q d 0x0A → passed s p = true → (proof s p).openStep = some n →
      Joins (.stepEnd h q d) s h p q d (fun t => updProof t p (fun x => { x with ending := true }))
        (fun f => { f with waits := .stepEnd n }) id) ∧
    (Starts s h p q d 0x10 → passed s p = true → bitOf d 65 = false → (stepOf s p d).isSome = true →
      ((proof s p).mbb = none ∨ ∃ x, (proof s p).mbb = some (true, x)) →
      snapRefused (takeDesc s h p q d).1 p false = false →
      (bitOf d 66 = true → storagePorts s p ≠ []) →
      (bitOf d 64 = false → Joins (.snapshotEager h q d) s h p q d
        (fun t => updSnap t p (fun x => { x with held := some (false, false, bitOf d 66, dF d 9 0 8, false) }))
        (fun f => { f with waits := .snapshot }) id) ∧
      (bitOf d 64 = true → Joins (.snapshotCow h q d) s h p q d
        (fun t => updSnap t p (fun x => { x with held := some (true, false, bitOf d 66, dF d 9 0 8, false) }))
        (fun f => { f with waits := .snapshot }) id)) ∧
    (Starts s h p q d 0x1D → dF d 8 0 8 = 0 → dF d 10 0 16 ≤ 139 → unitRetired s (testUnit (dF d 10 0 16)) = false →
      unitPart s (testUnit (dF d 10 0 16)) = p →
      Joins (.run h q d) s h p q d
        (fun t => updFaults t (fun x => { x with asked := x.asked ++ [testUnit (dF d 10 0 16)] }))
        (fun f => { f with waits := .test (testUnit (dF d 10 0 16)) }) id) ∧
    (Starts s h p q d 0x03 → dF d 32 0 48 % 16 = 0 → dF d 48 0 1 = 0 → named ≠ [] →
      (∀ c ∈ named, lcorePart s c = p ∧ (core s (physOf s c)).imageValid = true ∧ smem s.frozenCores c = false) →
      fencedMem s p (dF d 32 0 48) range = false → scopeOk s p .host true (dF d 32 0 48) range = true →
      Joins (.launch h q d) s h p q d
        (fun t => { t with nextLaunch := s.nextLaunch + 1, launches := s.launches ++
          [{ id := s.nextLaunch, part := p, mask := mask, argva := dF d 24 0 48, exitva := dF d 32 0 48, image := none,
             step := stepOf s p d, loaded := true, waiting := named, running := [] }] })
        (fun f => { f with waits := .launch s.nextLaunch }) id)

/-- Collectives and remote access (10 R311 to R315): once the checks pass, the descriptor takes the next MSG, joins the
started descriptors and its collective or its access begins at once; an access to the own rank is a local copy. -/
def Obligations.CollectivesAndRemoteAccess : Prop :=
  ∀ (s : State) (h : HostId) (q : QueueId) (p : Nat) (d : Desc), Starts s h p q d 0x04 → passed s p = true →
    let m := (xport s p).nextMsg % 2 ^ 32
    let b (t : State) : State := updXport t p (fun x => { x with nextMsg := x.nextMsg + 1 })
    let n := coCount d
    let joins (i : Instr) : Prop := Joins i s h p q d b (fun f => { f with waits := .coll m })
      (fun t => startColl t p d (stepOf s p d) m)
    let goes (i : Instr) (r : Nat) : Prop := Joins i s h p q d b (fun f => { f with waits := .rma m })
      (fun t => startRma t p d r m)
    let copies (i : Instr) : Prop := Completes i s h p q d (if (vread s p (coSrc d) n).bad then .poisoned else .done) 0
      (fun t => vwrite t p (coDst d) (vread s p (coSrc d) n))
    (coOk s p d = true → (coCount d = 0 ∨ coFenced s p d = false) → (coCount d = 0 ∨ coScope s p d = true) →
      (coCop d = 0 → joins (.allReduce h q d)) ∧ (coCop d = 1 → joins (.reduceScatter h q d)) ∧
      (coCop d = 2 → joins (.allGather h q d)) ∧ (coCop d = 3 → joins (.broadcast h q d)) ∧
      (coCop d = 4 → joins (.allToAll h q d)) ∧ (coCop d = 5 → joins (.collBarrier h q d))) ∧
    (∀ r, coCop d = 6 → rmaPeer s p d = some r → fencedMem s p (coSrc d) n = false →
      (r = ownRank s p → fencedMem s p (coDst d) n = false) →
      (n = 0 → Completes (.put h q d) s h p q d .doneEmpty 0 id) ∧
      (n ≠ 0 → scopeOk s p .peer false (coSrc d) n = true →
        (r ≠ ownRank s p → goes (.put h q d) r) ∧
        (r = ownRank s p → scopeOk s p .peer true (coDst d) n = true → NoneInjected s → copies (.put h q d)))) ∧
    (∀ r, coCop d = 7 → rmaPeer s p d = some r → fencedMem s p (coDst d) n = false →
      (r = ownRank s p → fencedMem s p (coSrc d) n = false) →
      (n = 0 → Completes (.get h q d) s h p q d .doneEmpty 0 id) ∧
      (n ≠ 0 → scopeOk s p .peer true (coDst d) n = true →
        (r ≠ ownRank s p → goes (.get h q d) r) ∧
        (r = ownRank s p → scopeOk s p .peer false (coSrc d) n = true → NoneInjected s → copies (.get h q d))))

/-- OPTIM (07 R187 to R198): ADAMW, SGD_MOMENTUM, LION, PROG, SSQ and AMAX, each where its checks pass, its writes find
room in the undo journal, and its parameter block, program and clip record carry no poison, complete: the recipe has run on
the operands of the block for the step; with COUNT 0 every operand is as it was. -/
def Obligations.OptimRuns : Prop :=
  ∀ (s : State) (h : HostId) (q : QueueId) (p n : Nat) (d : Desc),
    let va := dF d 8 0 48
    let t := (takeDesc s h p q d).1
    let f := (takeDesc s h p q d).2
    let b := (vread s p va 160).data
    let usesA := pbUpdates b && pbClipSrc b
    let prog := (vread s p (pbP b) (if pbRecipe b == 3 then 144 else 0)).data
    let acc := (vread s p (pbAcc b) (if usesA then 32 else 0)).data
    let empty (i : Instr) : Prop := Completes i s h p q d .doneEmpty 0 (fun t => optimEmpty t p b false)
    let ends (i : Instr) (x : State × St) : Prop := Ends i s (completeDesc x.1 h f x.2 0 true (optimBadVa s p va) none)
    Starts s h p q d 0x0B → stepOf s p d = some n → va % 32 = 0 → scopeOk s p .engine false va 160 = true →
    NoneInjected s → CleanRange s p va 160 → pbFormatOk b = true → pbFenced s p va b = false →
    (pbCount b = 0 →
      (pbRecipe b = 0 → empty (.adamw h q d)) ∧ (pbRecipe b = 1 → empty (.sgdMomentum h q d)) ∧
      (pbRecipe b = 2 → empty (.lion h q d)) ∧ (pbRecipe b = 3 → empty (.prog h q d)) ∧
      (pbRecipe b = 4 → empty (.ssq h q d)) ∧ (pbRecipe b = 5 → empty (.amax h q d))) ∧
    (pbCount b ≠ 0 → pbScopeOk s p b = true → (pbRecipe b = 3 → CleanRange s p (pbP b) 144) →
      (usesA = true → CleanRange s p (pbAcc b) 32) → HasRoom s p (optimWrites s p b) →
      ∀ r, pbRecipeOf b prog = some r →
      journalFits s p n ((if pbUpdates b then pbStored b r else []) ++ (if pbRen b then [(pbR b, 48)] else [])) = true →
      (pbRecipe b = 0 → ends (.adamw h q d) (optimUpdate t p n b r acc false)) ∧
      (pbRecipe b = 1 → ends (.sgdMomentum h q d) (optimUpdate t p n b r acc false)) ∧
      (pbRecipe b = 2 → ends (.lion h q d) (optimUpdate t p n b r acc false)) ∧
      (pbRecipe b = 3 → ends (.prog h q d) (optimUpdate t p n b r acc false)) ∧
      (pbRecipe b = 4 → ends (.ssq h q d) (optimReduce t p n b false)) ∧
      (pbRecipe b = 5 → ends (.amax h q d) (optimReduce t p n b false)))

/-- PHASE, SNAPSHOT with QUIESCE, RESTORE in both forms and DRAIN (R246; 12 R369, R377 to R383): PHASE sets the step's phase
and the requested operating point; a quiesced snapshot is captured, the mirror of a member with a facing rank is copied in
full, and the slot is committed at once; a RESTORE writes the newest slot
back or asks storage for an object; a DRAIN opens its object on the selected ports. -/
def Obligations.PhaseSnapshotRestoreAndDrain : Prop :=
  ∀ (s : State) (h : HostId) (q : QueueId) (p : Nat) (d : Desc),
    let t := (takeDesc s h p q d).1
    let f := (takeDesc s h p q d).2
    let i := targetSlot s p
    let c := capture t p (bitOf d 64) true (bitOf d 66) (dF d 9 0 8)
    let filled := if hasFacing c p then copyMirror c p else c
    let sel := dF d 8 0 2
    let named := (bitsSet (dF d 9 0 4) 4).map (28 + ·)
    let js := if named.isEmpty then storagePorts s p else named
    let m := (xport s p).nextMsg % 2 ^ 32
    (Starts s h p q d 0x09 → dF d 10 0 1 = 0 →
      Completes (.phase h q d) s h p q d .done 0 (fun t => updPart t p (fun y => { y with
        opReq := dF d 9 0 3, phased := true
        proof := { y.proof with phase := dF d 8 0 3, mbb := some (false, dF d 12 0 32) } }))) ∧
    (Starts s h p q d 0x10 → passed s p = true → bitOf d 65 = true → stepActive s p = false →
      snapRefused t p true = false → (bitOf d 66 = true → storagePorts s p ≠ []) →
      Ends (.snapshotQuiesce h q d) s (completeDesc (autoDrain filled p i) h f
        (if slotPoisoned (slotOf c p i) then .poisoned else .done) i true 0 none)) ∧
    (Starts s h p q d 0x11 → passed s p = true → stepActive s p = false → dF d 14 0 16 = (xport s p).epoch →
      (bitOf d 64 = true → Joins (.restoreFromStorage h q d) s h p q d id (fun f => { f with waits := .restore })
        (fun t => startObject t p (dF d 24 0 64))) ∧
      (∀ k, bitOf d 64 = false → newestSlot s p = some k → (bitOf d 65 = true → (slotOf s p k).step = dF d 16 0 48) →
        restoreOk s p (slotOf s p k).slice (slotOf s p k).rank s.pmode p ((slotOf s p k).pages.map (·.vpn)) = true →
        Joins (.restore h q d) s h p q d id (fun f => { f with waits := .restore }) (fun t => restoreSlot t p k))) ∧
    (∀ k, Starts s h p q d 0x12 → passed s p = true → sel ≠ 3 → (sel = 2 → newestSlot s p = some k) → (sel ≠ 2 → k = sel) →
      (slotOf s p k).state = 3 → js ≠ [] → (∀ j ∈ js, portPart s j = some p ∧ jpRole s j = 1) →
      Joins (.drain h q d) s h p q d (fun t => updXport t p (fun x => { x with nextMsg := x.nextMsg + 1 }))
        (fun f => { f with waits := .drain m }) (fun t => startDrain t p m k (dF d 16 0 64) js (dF d 10 0 8) true))

/-- The completion of a descriptor (R230, R232, R233, R234, R259): the 16-byte entry goes to the completion ring at the next
place with the ring's phase, SIGEN raises its event counter by 1, an entry of an old generation or to a host without a link
is not written, and the phase turns with the ring. -/
def Obligations.CompletionEntries : Prop :=
  ∀ (s : State) (h q didx qgen : Nat) (d : Desc) (step : Option Nat) (status result : Nat),
    let x := queue s h q
    let u := writeEntry s h q didx qgen d step status result
    let proven := match step with
      | some n => stepProven s ((hpPart s h).getD 0) n
      | none => true
    ((x.gen ≠ qgen ∨ hostUp s h = false) → u = s) ∧
    (x.gen = qgen → hostUp s h = true →
      rdBytes (mget u.hostMem [] h) (x.cqBase + 16 * x.cqNext) 16 = cqEntry d didx qgen status result step proven x.phase ∧
      (∀ a, a < x.cqBase + 16 * x.cqNext ∨ x.cqBase + 16 * x.cqNext + 16 ≤ a →
        rdByte (mget u.hostMem [] h) a = rdByte (mget s.hostMem [] h) a) ∧
      (queue u h q).cqNext = (x.cqNext + 1) % x.ringsz ∧
      (queue u h q).phase = (if (x.cqNext + 1) % x.ringsz = 0 then !x.phase else x.phase) ∧
      (queue u h q).lastTag = dTag d ∧
      (∀ h' q', (h' ≠ h ∨ q' ≠ q) → queue u h' q' = queue s h' q') ∧
      u.parts = s.parts ∧ u.ms = s.ms ∧ u.cores = s.cores ∧ u.units = s.units ∧ u.evr = s.evr ∧ u.raised = s.raised)

/-! ### Steps and snapshots in the step (08_host_queues.md, 12_snapshots.md) -/

/-- STEP_OPEN, STEP_COMPUTED and CAPTURE_POINT (R244, R245, R247; 12 R370, R371). A waiting STEP_BEGIN opens its step when no
step is OPEN, step n - W - 1 is PROVEN and no core substitution is due (01 R27): the step has a record OPEN, its record is
written, and the descriptor completes. A waiting STEP_END makes its step COMPUTED, and its journal segments SEALED (07 R209),
once every other descriptor of the step has completed. A held snapshot is captured
once every started descriptor of the open step has completed. Until then each event changes nothing.

COW_COPY (12 R371): one page that has not been copied is, of slot A first; the slot commits with its last page if its
step is PROVEN. -/
def Obligations.StepsOpenAndCompute : Prop :=
  (∀ (s : State) (p : PartId), awake s = true →
     let h := partHp s p
     (∀ f n va, flightOf s p waitsToOpen = some f → f.waits = .stepBegin n va →
       ((proof s p).openStep = none → n ≤ (proof s p).lastProven + (proof s p).w + 1 →
         (∀ l ∈ upto (p * lcores s) (lcores s), copyDue s l = false) →
         ∃ t u, Ends (.stepOpen p) s u ∧ u = finishFlight t h f .done 0 ∧
           t = writeStepRec (clearOrdinals (updProof s p (fun x => { x with
             steps := x.steps.filter (fun r => r.step != n) ++ [openRec x n va f.replay]
             openStep := some n, kNow := x.sampleK, mbb := none, ending := false, phase := 0 })) p) p n) ∧
       ((proof s p).openStep ≠ none ∨ (proof s p).lastProven + (proof s p).w + 1 < n ∨
         (∃ l ∈ upto (p * lcores s) (lcores s), copyDue s l = true) → Ends (.stepOpen p) s s)) ∧
     (∀ f n, flightOf s p waitsToCompute = some f → f.waits = .stepEnd n →
       ((∀ g ∈ (hport s h).flights, g = f ∨ g.step ≠ some n) → (snap s p).held = none → hasFacing s p = false →
         (∀ j ∈ partPorts s p, (port s j).deferred = false) →
         ∃ t, Ends (.stepComputed p) s (finishFlight t h f .done 0) ∧
           t = updPart (setStep (updProof s p (fun x => { x with
             openStep := none, ending := false, lastComputed := max x.lastComputed n })) p n 2 id) p (fun y => { y with
             journal := y.journal.map (fun g => if g.step = n then { g with state := 2 } else g) }) ∧
           (∀ j, (port t j).deferred = (port s j).deferred)) ∧
       ((∃ g ∈ (hport s h).flights, g ≠ f ∧ g.step = some n) → Ends (.stepComputed p) s s)) ∧
     (flightOf s p waitsToOpen = none → Ends (.stepOpen p) s s) ∧
     (flightOf s p waitsToCompute = none → Ends (.stepComputed p) s s) ∧
     ((snap s p).held = none → Ends (.capturePoint p) s s) ∧
     (∀ f cow q dr k x, (snap s p).held = some (cow, q, dr, k, x) → flightOf s p (fun g => g.waits == .snapshot) = some f →
       (∀ g ∈ (hport s h).flights, g.waits = .snapshot ∨ g.step = none ∨ g.step ≠ (proof s p).openStep) →
       let c := capture s p cow false dr k
       Ends (.capturePoint p) s (tryCommit (finishFlight c h f
         (if slotPoisoned (slotOf c p (targetSlot s p)) then .poisoned else .done) (targetSlot s p)) p))) ∧
  (∀ (s : State) (p : PartId), awake s = true →
     let todo (x : Slot) : Prop := x.state = 2 ∧ x.cow = true ∧ ∃ g ∈ x.pages, g.copied = false
     let copied (i : Nat) : State := tryCommit (updSlotN s p i (fun x => { x with pages := copyFirst s.ms x.pages })) p
     (todo (slotOf s p 0) → Ends (.cowCopy p) s (copied 0)) ∧
     (¬ todo (slotOf s p 0) → todo (slotOf s p 1) → Ends (.cowCopy p) s (copied 1)) ∧
     (¬ todo (slotOf s p 0) → ¬ todo (slotOf s p 1) → Ends (.cowCopy p) s s) ∧
     (∀ l : List SnapPage, ((copyFirst s.ms l).filter (fun g => !g.copied)).length =
       (l.filter (fun g => !g.copied)).length - 1))

/-! ### Queue control and the host port (08_host_queues.md) -/

/-- Doorbells and queue control (R229 to R231, R234) at a port whose host can write to a ready device. A doorbell of the
queue's generation with a TAIL inside the ring sets TAIL, any other is recorded and dropped; EN = 1 enables a queue whose
registers are legal and sets ESTATUS of one whose are not; EN = 0 stops it starting descriptors; neither changes a FROZEN
queue or one of a STRUCK partition (11 R353; log 20); a reset raises the generation and empties the ring; a failed descriptor
read stops the queue with STOPWHY 4. Each touches its own queue only. -/
def Obligations.QueueControl : Prop :=
  ∀ (s : State) (h : HostId) (q : QueueId) (v : Word), awake s = true → hostCan s h = true → isReady s = true →
    let x := queue s h q
    let tail := natFld v.toNat 0 16
    let legal := ringOk x.ringsz = true ∧ x.sqBase ≠ 0 ∧ x.cqBase ≠ 0
    let put (y : Queue) : State := updQueue s h q (fun _ => y)
    let shut : Prop := x.state = 3 ∨ hostStruck s h = true
    (natFld v.toNat 16 8 = x.gen → tail < x.ringsz → (x.state = 1 ∨ x.state = 2) →
      Ends (.doorbell h q v) s (put { x with tail := tail, doorbell := v.toNat % 2 ^ 24 })) ∧
    ((natFld v.toNat 16 8 ≠ x.gen ∨ x.ringsz ≤ tail ∨ x.state = 0 ∨ x.state = 3) →
      Ends (.doorbell h q v) s
        (record s ((hpPart s h).getD 7) (ucHost h) operReg 0x0004 (leBytes 1 q ++ leBytes 4 v.toNat))) ∧
    (¬ shut → x.state = 0 → legal →
      Ends (.queueEnable h q) s (put { x with en := true, state := 1, stopwhy := 0, estatus := 0 })) ∧
    (¬ shut → x.state = 0 → ¬ legal → Ends (.queueEnable h q) s (put { x with en := true, estatus := 0x20 })) ∧
    (¬ shut → x.state ≠ 0 → Ends (.queueEnable h q) s (put { x with en := true, state := 1, stopwhy := 0 })) ∧
    (¬ shut → Ends (.queueDisable h q) s (put { x with en := false, state := 0, stopwhy := 0 })) ∧
    (shut → Ends (.queueEnable h q) s (writeIgnored s h (qctrlOff q) 1 0) ∧
      Ends (.queueDisable h q) s (writeIgnored s h (qctrlOff q) 0 0)) ∧
    Ends (.queueReset h q) s (put { x with
      gen := (x.gen + 1) % 256, sqHead := 0, tail := 0, cqNext := 0, phase := true
      state := if x.state = 3 then 3 else 0, stopwhy := 0, en := false, uncovered := 0 }) ∧
    (x.state = 1 → x.sqHead ≠ x.tail →
      Ends (.descriptorFetchFail h q) s
        (record (updQueue s h q (fun x => { x with state := 2, stopwhy := 4 })) ((hpPart s h).getD 7) (ucHost h) 0 0x0003
          (leBytes 4 (x.sqBase + 64 * x.sqHead) ++ leBytes 1 64))) ∧
    (x.ien = true → x.coalTime ≠ 0 → x.uncovered ≠ 0 →
      Ends (.coalTime h q) s (sendMsix (updQueue s h q (fun x => { x with uncovered := 0 })) h x.iv)) ∧
    ((x.ien = false ∨ x.coalTime = 0 ∨ x.uncovered = 0) → Ends (.coalTime h q) s s)

/-- The host port's link, resets and streams (R218, R220, R226, R227, R259, R260; 17 R483): a link that goes down stops every
queue that is not FROZEN with STOPWHY 2, and what has started gets no completion entry; a host-port reset resets every queue
(each with its next generation) and the port's registers, leaves the freeze of the port, and is recorded; PERST_N takes the
link down first; a failed IDE TLP makes a Secure stream Insecure and sets its sticky bit; a link below 128 GT/s or below its
width is degraded; a DOE request of Discovery or SPDM is answered, one of Secured SPDM only in a session.

BAR4 (R221 to R223; 06 R173; 15 R465): an access below the size of BAR4 and in scope of its partition reads or writes the
bytes of the window, data of a poisoned TLP poisoned; one out of scope freezes the host port and is dropped, a read answering
all ones; a frozen port answers all ones and drops writes. -/
def Obligations.HostPortEvents : Prop :=
  (∀ (s : State) (h : HostId) (p : Nat) (req : Bytes) (rate width : Nat), awake s = true → hpPart s h = some p →
     ((hport s h).linkUp = true → ∃ t, Ends (.hostLinkDown h) s t ∧
       t = stopQueues (updHp s h (fun x => { x with
         linkUp := false, flights := x.flights.map (fun f => { f with lost := true }) })) h 2 ∧
       (∀ q < 64, (queue s h q).state ≠ 3 → (queue t h q).state = 2 ∧ (queue t h q).stopwhy = 2) ∧
       (∀ q < 64, (queue s h q).state = 3 → queue t h q = queue s h q)) ∧
     ((hport s h).linkUp = false → Ends (.hostLinkDown h) s s) ∧
     (∃ t, Ends (.hostPortReset h) s (recordReset t p (ucHost h) 6 4) ∧
       t = resetPortRegs ((List.range 64).foldl (fun s q => resetQueue s h q) (dumpMeetsReset s [ucHost h])) h ∧
       (∀ q < 64, (queue t h q).gen = ((queue s h q).gen + 1) % 256 ∧ (queue t h q).sqHead = 0 ∧ (queue t h q).tail = 0 ∧
         (queue t h q).ringsz = 0 ∧ ((queue s h q).state ≠ 3 → (queue t h q).state = 0)) ∧
       (hport t h).frozen = (hport s h).frozen ∧ (hport t h).flights = (hport s h).flights) ∧
     (s.pins.resetN = true → Ends (.perstN h) s (resetHostPort (linkDown s h) h 4)) ∧
     ((hport s h).ide = .secure → Ends (.ideFail h) s (stickyHost (updHp s h (fun x => { x with ide := .insecure })) h 1)) ∧
     ((hport s h).ide ≠ .secure → Ends (.ideFail h) s s) ∧
     (speushUp s = true → hostUp s h = true →
       let u : State := { s with freeCtr := s.freeCtr + 1 }
       let answer (t : State) : State := emit t (.doe h (protocolAnswer s.freeCtr))
       (doeType req = some 0 → Ends (.doeRequest h req) s (emit s (.doe h (doeDiscovery req)))) ∧
       (doeType req = some 1 → ∃ l, l ≤ 4 ∧
         Ends (.doeRequest h req) s (answer (updHp u h (fun x => { x with sessions := l })))) ∧
       (doeType req = some 2 → (hport s h).sessions ≠ 0 →
         Ends (.doeRequest h req) s (answer (updHp u h (fun x => securedMessage x s.freeCtr)))) ∧
       (doeType req = some 2 → (hport s h).sessions = 0 → Ends (.doeRequest h req) s s) ∧
       (doeType req = none → Ends (.doeRequest h req) s s)) ∧
     (s.power.ioOff.contains (h.toNat / 2) = false → s.pins.stage ≠ .recovery → speushUp s = true →
       Ends (.hostLinkUp h rate width) s (
         let t := updHp s h (fun x => { x with linkUp := true, noFlit := false })
         if rate < 128 ∨ width < 16 / nparts s then stickyHost t h 0 else t))) ∧
  (∀ (s : State) (h : HostId) (p off len : Nat) (data : Bytes) (ep : Bool), awake s = true → hpPart s h = some p →
     hostUp s h = true → off + len ≤ 2 ^ (hport s h).cfg.bar4Log → off + data.length ≤ 2 ^ (hport s h).cfg.bar4Log →
     let va := (regF s (.hp h) 0x001000C 0 28 * pageSize + off) % 2 ^ 47
     let ones (t : State) : State := emit t (.bar4 h (List.replicate len 0xFF) false)
     (data ≠ [] → (hport s h).frozen = false → scopeOk s p .host true va data.length = true →
       fencedMem s p va data.length = false →
       Ends (.bar4Access h off true len ⟨data, ep⟩) s (vwrite s p va ⟨data, if ep then [(0, data.length)] else []⟩)) ∧
     (len ≠ 0 → (hport s h).frozen = false → scopeOk s p .host false va len = true → fencedMem s p va len = false →
       NoneInjected s → Ends (.bar4Access h off false len ⟨data, ep⟩) s
         (emit s (.bar4 h (vread s p va len).data (vread s p va len).bad))) ∧
     (data ≠ [] → (hport s h).frozen = false → scopeOk s p .host true va data.length = false →
       Ends (.bar4Access h off true len ⟨data, ep⟩) s (freezeHost s h (badVa s p .host true va data.length))) ∧
     (len ≠ 0 → (hport s h).frozen = false → scopeOk s p .host false va len = false →
       Ends (.bar4Access h off false len ⟨data, ep⟩) s (ones (freezeHost s h (badVa s p .host false va len)))) ∧
     ((hport s h).frozen = true → (data ≠ [] → Ends (.bar4Access h off true len ⟨data, ep⟩) s s) ∧
       (len ≠ 0 → Ends (.bar4Access h off false len ⟨data, ep⟩) s (ones s))))

/-! ### Programs and the units of a core (03, 04, 05) -/

/-- PROGRAM_START and CORE_SUBSTITUTION (05 R131, R145, R146, R148; 01 R26, R27): a waiting core of a LAUNCH that is among the
eight of its partition, and whose waiting cores are all free, not frozen and not due for substitution, starts at its entry,
its image loaded, with the registers of R148 and every semaphore 0; while it may not start it changes nothing. A substitution moves the
logical core with its sequencer's and memories' state (but CYCLE, the physical core's own) to the replacement at a step boundary and
retires the old core. -/
def Obligations.ProgramsStartAndCoresAreSubstituted : Prop :=
  ∀ (s : State) (id : Nat) (n : LogicalId) (l : Launch) (o c : Nat), awake s = true →
    (launchOf s id = some l → n.val ∈ l.waiting → amongEight s l = true →
      (∀ m ∈ l.waiting, coreFree s l m = true ∧ copyDue s m = false ∧ smem s.frozenCores m = false) →
      let x := physOf s n
      let u := loadLaunch s l
      ∃ t, Ends (.programStart id n) s t ∧
        core t x = startCore u l n (core u x) ∧ (core t x).pc = (core u x).entry ∧ (core t x).csq = .running ∧
        sget (core t x) 1 = BitVec.ofNat 64 l.argva ∧ sget (core t x) 2 = BitVec.ofNat 64 n.val ∧ sget (core t x) 5 = 0 ∧
        (∀ i, semOf (core t x) i = 0) ∧ queuesEmpty (unitsOf t x) = true ∧ (∀ y, y ≠ x → core t y = core u y) ∧
        t.ms = s.ms ∧ t.parts = s.parts ∧ t.hps = s.hps) ∧
    ((launchOf s id = none ∨ (launchOf s id = some l ∧ canStart s l n = false)) → Ends (.programStart id n) s s) ∧
    (s.faults.subst.find? (fun x => x.1 == n.val && !x.2.2) = some (n.val, o, false) → running s o = false →
      (proof s (lcorePart s n)).openStep = none →
      replacement (updFaults s (fun f => { f with subst := f.subst.filter (fun x => x.1 != n.val) })) (lcorePart s n) o = some c →
      c ≠ o →
      ∃ t, Ends (.coreSubstitution n) s t ∧ physOf t n = c ∧ core t c = { core s o with cycleBase := (core s c).cycleBase } ∧ smem t.retiredCores o = true ∧
        (∀ m, m ≠ n.val → physOf t m = physOf s m) ∧ t.ms = s.ms ∧ t.parts = s.parts)

/-- The matrix arrays (03 R61 to R64): the instruction at the head of an array's queue, where it can start, clears,
accumulates and emits by R62 and completes; with M or N 0 it does no work; KEEP with another M or N than the bank's ends the
program. -/
def Obligations.MatrixInstructions : Prop :=
  ∀ (s : State) (c : CoreId) (array : Bool) (e : TileEntry), awake s = true → HeadStarts s c (b2n array) e →
    let n := b2n array
    let t := headTaken s c e
    let b := curBank (arrayOf (unitsOf t c) n)
    (mbM e.block = 0 ∨ mbN e.block = 0 → Ends (.matrixInstruction c array) s (completeEntry
      (if mtEmit e && e.fen then updCore t c (fun k => spadWrite k e.flagdst (.clean (zeros 8))) else t) c n e)) ∧
    (mbM e.block ≠ 0 → mbN e.block ≠ 0 → mtKeep e = true → (b.m ≠ mbM e.block ∨ b.n ≠ mbN e.block) →
      Ends (.matrixInstruction c array) s (failQueued t c n e .badDesc)) ∧
    (mbM e.block ≠ 0 → mbN e.block ≠ 0 → (mtKeep e = true → b.m = mbM e.block ∧ b.n = mbN e.block) →
      Ends (.matrixInstruction c array) s (completeEntry (matrixRun t c n e) c n e))

/-- The stream fabric and the mover (04 R103, R111, R115; 05 R138 to R141): the instruction at the head of the queue, where it
can start, runs its forme or moves its rows in ascending order, leaves its record where FEN asks for one, and completes; a FORME load
sets its slot.

What a row of a LOAD or a STORE moves (05 R138, R139): the bytes of the device range stand in the scratchpad, or those of
the scratchpad at the device address, and every other byte of the scratchpad is as before. -/
def Obligations.StreamAndMoverInstructions : Prop :=
  (∀ (s : State) (c : CoreId) (e : TileEntry), awake s = true →
     let t := headTaken s c e
     let f := mget (unitsOf t c).formes [] (e.spec % 64)
     let b := (spadRead (core t c) e.blk 416).data
     let r := streamRun (core t c) e f b
     let p := coreOwner t c
     let m := e.block
     let rec_ (u : State) (st : St) (bad : Bool) (k : Nat) : State := completeEntry (writeMoveRecord u c e st bad k) c 3 e
     let ended (u : State) : State := updUnits u c (fun x => { x with moving := none })
     let rowsOk := mvBadRow t p e = none ∧ mvFenced t p e = false
     let img := vread t p (mvAddr m) (mvRowBytes m)
     let moved := moveRows t c e
     let status : St := if moved.2 then .poisoned else .done
     (HeadStarts s c 2 e → (f = [] ∨ streamOk e f b = false) →
       Ends (.streamInstruction c) s (failQueued t c 2 e .badDesc)) ∧
     (HeadStarts s c 2 e → f ≠ [] → streamOk e f b = true → sbN b = 0 →
       Ends (.streamInstruction c) s (completeEntry
         (if e.fen then updCore t c (fun k => spadWrite k e.flagdst (.clean (zeros 32))) else t) c 2 e)) ∧
     (HeadStarts s c 2 e → f ≠ [] → streamOk e f b = true → sbN b ≠ 0 →
       Ends (.streamInstruction c) s (completeEntry
         (if r.2 then consumeLine (updCore t c (fun _ => r.1)) c (operTile 2) else updCore t c (fun _ => r.1)) c 2 e)) ∧
     (HeadStarts s c 3 e → (unitsOf s c).moving = none →
       (mvOp e = 0 → mvEmpty m = true → Ends (.load c) s (rec_ t .doneEmpty false 0)) ∧
       (mvOp e = 0 → mvEmpty m = false → rowsOk →
         Ends (.load c) s (rec_ (ended moved.1) status moved.2 (mvRows m * mvRowBytes m))) ∧
       (mvOp e = 1 → mvEmpty m = false → rowsOk → moveStalls s c e = false →
         Ends (.store c) s (rec_ (ended moved.1) status moved.2 (mvRows m * mvRowBytes m))) ∧
       (mvOp e = 2 → mvEmpty m = false → mvTcore m < 120 → lcorePart t (mvTcore m) = p → t.faults.oos = false →
         Ends (.xcore c) s (rec_ (if mvRsen m then
           updCore (ended moved.1) (physOf moved.1 (mvTcore m)) (fun k => semAdd k (mvRsem m) 1) else ended moved.1)
           status moved.2 (mvRows m * mvRowBytes m))) ∧
       (mvOp e = 3 → mvEmpty m = false → rowsOk → NoneInjected t → img.bad = false → formeOk img.data = true →
         Ends (.forme c) s (rec_ (setForme t c (mvTcore m) img.data) .done false (mvRowBytes m))) ∧
       (mvOp e = 0 → mvEmpty m = false → ∀ row, mvBadRow t p e = some row →
         Ends (.load c) s (moveOut t c e (mvRowVa m row))))) ∧
  (∀ (s : State) (c r : Nat) (e : TileEntry), NoneInjected s →
     let b := e.block
     let p := coreOwner s c
     let n := mvRowBytes b
     let sp := mvSpa b + r * mvSstride b
     let u := (moveRow s c e r).1
     (mvOp e = 0 →
       rdBytes (core u c).spad sp n = (vread s p (mvRowVa b r) n).data ∧
       (∀ a, a < sp ∨ sp + n ≤ a → rdByte (core u c).spad a = rdByte (core s c).spad a) ∧
       u.ms = s.ms ∧ (∀ x, x ≠ c → core u x = core s x)) ∧
     (mvOp e = 1 → u = vwrite s p (mvRowVa b r) (spadRead (core s c) sp n)))

/-! ### Memory and the scale table (06_memory_system.md, 07_stack_engines.md) -/

/-- A write of physical bytes (R173): they are read back, every other byte is as before, the memory keeps its canonical form;
a granule that the write covers whole is poisoned exactly where the data is, and every granule outside keeps its poison. -/
def Obligations.DeviceWrites : Prop :=
  ∀ (s : State) (pa : Nat) (b : Blob), Memory.wf s.ms.mem = true →
    let t := pwrite s pa b
    Memory.wf t.ms.mem = true ∧ rdBytes t.ms.mem pa b.data.length = b.data ∧
    (∀ a, a < pa ∨ pa + b.data.length ≤ a → rdByte t.ms.mem a = rdByte s.ms.mem a) ∧
    (∀ g, (g + 1) * 64 ≤ pa ∨ pa + b.data.length ≤ g * 64 → (g ∈ t.ms.poison ↔ g ∈ s.ms.poison)) ∧
    (∀ g, pa ≤ g * 64 → (g + 1) * 64 ≤ pa + b.data.length →
      (g ∈ t.ms.poison ↔ ∃ r ∈ b.pz, 0 < r.2 ∧ pa + r.1 < (g + 1) * 64 ∧ g * 64 < pa + r.1 + r.2)) ∧
    t.regs = s.regs ∧ t.cores = s.cores ∧ t.units = s.units ∧ t.hostMem = s.hostMem ∧ t.hps = s.hps ∧
    t.ms.tt = s.ms.tt ∧ t.ms.scale = s.ms.scale ∧ t.raised = s.raised

/-- Translation updates (R163, R164): TT_GO starts one with the values that stand, or is ignored and recorded while one is in
progress; its end checks the update as a whole, and either every entry of its range changes at once, the physical pages
ascending, or none does; no other entry of the table changes. A snapshot's pending copy of a page that the update covers is
made first (12 R372).

Interleave classes and scale-table writes (R165, R200; 17 R502, R503): a class request for a region whose stripe no valid
entry maps changes the class of the whole stripe; SCT_IDX shows its entry in SCT_DATA; SCT_WR writes the selected entry's
scale, format and margin, and clears its history where RESET asks; an illegal value or an active step writes nothing. -/
def Obligations.TranslationClassesAndScaleEntries : Prop :=
  (∀ (s : State) (h : HostId) (p : PartId) (u : TtUpdate), awake s = true →
     (hostCan s h = true → isReady s = true → hpPart s h = some p.val →
       ((part s p).tt = none → Ends (.ttGo h) s (updPart s p (fun x => { x with tt := some {
         vpn := regF s (.part p) 0x0800000 0 28, count := regF s (.part p) 0x0800004 0 22
         entry := BitVec.ofNat 64 (regW s (.part p) 0x0800008 + 2 ^ 32 * regW s (.part p) 0x080000C) } }))) ∧
       ((part s p).tt ≠ none → Ends (.ttGo h) s (writeIgnored s h 0x0800010 1 4))) ∧
     ((part s p).tt = none → Ends (.ttUpdateDone p) s s) ∧
     ((part s p).tt = some u →
       ∃ t, Ends (.ttUpdateDone p) s t ∧
         part t p = { part s p with tt := none, ttStatus := (ttJudge s p u).code, snap := snap t p } ∧
         (ttJudge s p u ≠ .done → t.ms = s.ms ∧ snap t p = snap s p) ∧
         (ttJudge s p u = .done →
           (∀ i < u.count, mget t.ms.tt 0 (ctxBase s p + u.vpn + i) =
             if tteValid u.entry then u.entry + BitVec.ofNat 64 i else u.entry) ∧
           (∀ k, k < ctxBase s p + u.vpn ∨ ctxBase s p + u.vpn + u.count ≤ k → mget t.ms.tt 0 k = mget s.ms.tt 0 k) ∧
           { t.ms with tt := s.ms.tt } = s.ms) ∧
         t.hps = s.hps ∧ t.regs = s.regs ∧ t.cores = s.cores)) ∧
  (∀ (s : State) (h : HostId) (p b : Nat) (w : Fin 35) (v : Word), awake s = true → hostCan s h = true → isReady s = true →
     hpPart s h = some p →
     let r := 32 * w.val + b
     let cur := BitVec.ofNat 32 (regW s (.part p) 0x0800244)
     let y := regW s (.part p) 0x0800248
     let fmt := natFld y 0 4
     let margin := sext 8 (natFld y 8 8)
     let i := scaleIndex s p (regF s (.part p) 0x0800240 0 16)
     let e := { scaleE s i with cur := cur, fmt := fmt, margin := margin, frozen := natFld y 16 1 == 1 }
     let e := if natFld y 17 1 = 1 then { e with hist := [], hpos := 0, histInf := false, histNan := false, baseStep := 0 } else e
     let legal := 1 ≤ fmt ∧ fmt ≤ 4 ∧ -16 ≤ margin ∧ margin ≤ 15 ∧ isPow2 cur = true
     (b < 32 → r < 1104 → regionRanged s r ≠ v.toNat.testBit b → regionPart s r = p →
       (∀ b' < 32, b' ≠ b → 32 * w.val + b' < 1104 → regionRanged s (32 * w.val + b') = v.toNat.testBit b') →
       (∀ c ∈ s.ms.tt, tteValid c.2 = true → ttePpn c.2 / 2048 ∉ stripeOf s p r) →
       Ends (.regionClass h w v) s (updMs s (fun m => { m with
         regionClass := (stripeOf s p r).foldl (fun t k => mset t 0 k (b2n (v.toNat.testBit b))) m.regionClass }))) ∧
     ((∀ b' < 32, 32 * w.val + b' < 1104 → regionRanged s (32 * w.val + b') = v.toNat.testBit b') →
       Ends (.regionClass h w v) s s) ∧
     Ends (.sctIdx h v) s (updPart (setReg s (.part p) 0x0800240 (v.toNat % 2 ^ 16)) p (fun x => { x with
       sctData := scaleE s (sctBase s p + v.toNat % 2 ^ 16 % sctSize s p) })) ∧
     (stepActive s p = false → legal →
       Ends (.sctWr h) s (updPart (setScaleE s i e) p (fun x => { x with sctStatus := 0, sctData := e }))) ∧
     (stepActive s p = false → ¬ legal → Ends (.sctWr h) s (updPart s p (fun x => { x with sctStatus := 2 }))) ∧
     (stepActive s p = true →
       Ends (.sctWr h) s (writeIgnored (updPart s p (fun x => { x with sctStatus := 1 })) h 0x080024C 1 0)))

/-- ECC and stack temperature (R172, R176 to R178, R181 to R183; 13 R394): a scrubbed line's four granules take their outcomes
in order: a corrected one is recorded, a transient one recorded and charged 16, an uncorrectable one poisoned, recorded and
charged 96; a stack in self-refresh is not scrubbed; a remapped row joins the channel's table of at most 8192, and its
granules that read uncorrectable are poisoned; a line that is not in the place named does not exist, and the command faults;
a stack at 100 degrees and above enters self-refresh and is reset. -/
def Obligations.EccAndTemperature : Prop :=
  ∀ (s : State) (k : StackId) (ch : ChannelId) (line : Nat) (a b c d : EccOutcome) (temp : BitVec 12), awake s = true →
    let scrub (o : EccOutcome) (i : Nat) (u : State) : State := scrubGranule u (4 * line + i) o
    let below := updStack s k (fun x => { x with
      temp := temp.toNat, admitA := admission (regF s .dev 0x0800504 0 9) temp.toNat })
    let throttled := if 0 < (64 - admission (regF s .dev 0x0800504 0 9) temp.toNat) / 4 then stickyPower below 6 else below
    (lineOk s line (fun i => i / 32 == k.val) = true → (stack s k).selfRefresh = true →
      Ends (.patrolScrub k line [a, b, c, d]) s s) ∧
    (lineOk s line (fun i => i / 32 == k.val) = true → (stack s k).selfRefresh = false →
      Ends (.patrolScrub k line [a, b, c, d]) s (scrub d 3 (scrub c 2 (scrub b 1 (scrub a 0 s))))) ∧
    (lineOk s line (fun i => i / 32 == k.val) = false → exec (.patrolScrub k line [a, b, c, d]) s = .fault .noSuchLine) ∧
    (∀ g, NoneInjected s →
      let i := channelOf s (g * 64)
      let rec_ (u : State) (ev : Nat) : State := record u (stackPart s (i / 32)) (ucChannel i) 0 ev (leBytes 8 (g * 64))
      let held := cowHook s (g / 8192)
      let noted := cowHook (updMs s (fun m => { m with recorded := sins m.recorded g })) (g / 8192)
      scrubGranule s g .clean = s ∧
      scrubGranule s g .corrected = chargeEvery (rec_ held 0x0020) (ucChannel i) 1 16 ∧
      scrubGranule s g .transient = charge (rec_ s 0x0021) (ucChannel i) 16 ∧
      (g ∉ s.ms.recorded → scrubGranule s g .uncorrectable =
        charge (rec_ (updMs noted (fun m => { m with poison := sins m.poison g })) 0x0022) (ucChannel i) 96)) ∧
    (lineOk s line (fun i => i == ch.val) = true → (channel s ch).remapped < 8192 →
      let x := placeOf s (256 * line)
      ∃ t, Ends (.rowRemap ch line) s (charge (record t (stackPart s (ch.val / 32)) (ucChannel ch) 0 0x0024
          (leBytes 8 (256 * line) ++ leBytes 2 ((channel s ch).remapped + 1))) (ucChannel ch) 64) ∧
        (channel t ch).rows = (channel s ch).rows ++ [x.row] ∧ t.ms.mem = s.ms.mem ∧
        ∀ g ∈ rowGranules s x, (g, EccOutcome.uncorrectable) ∈ s.ms.meets → g ∈ t.ms.poison) ∧
    (lineOk s line (fun i => i == ch.val) = true → 8192 ≤ (channel s ch).remapped →
      Ends (.rowRemap ch line) s (failChannel s ch)) ∧
    (lineOk s line (fun i => i == ch.val) = false → exec (.rowRemap ch line) s = .fault .noSuchLine) ∧
    (temp.toNat < 400 ∨ (stack s k).selfRefresh = true → Ends (.stackTemperature k temp) s throttled) ∧
    (400 ≤ temp.toNat → (stack s k).selfRefresh = false →
      Ends (.stackTemperature k temp) s (stackHot throttled k temp.toNat))

/-! ### Transport (10_jilan_transport.md) -/

/-- The ingress of a fabric port, for every fabric packet (R296, R304, R305; 11 R345, R348, R353): a packet on a channel that is
not its own counts in DROP_TYPE, one from no rank of the imposition or to another device in DROP_ADDR, one with another slice
tag in DROP_TAG; of the rest, STOPPRESS and packets of the current generation are delivered, one of an older generation
counts in DROP_GEN, and one of a newer generation is held, unless it is VOTE or DIGEST, which count in DROP_GEN. A port that
is not ACTIVE and a STRUCK partition take nothing, and what follows a held packet on its channel waits behind it.

Dropped and held packets (R304, R305): a drop counts in the counter of its kind alone and is recorded once per kind and
generation; a held packet that no STOP reaches within its time is dropped as one of a wrong generation and its buffers are
freed. -/
def Obligations.FabricIngress : Prop :=
  (∀ (s : State) (j : PortId) (p : Nat) (raw : Packet), ∀ r ∈ fabricRows,
     let t := r.2.1
     let pk := match r.2.2 with
       | some k => { raw with sub := k }
       | none => raw
     let cmd := r.1 j raw
     let hold (newer : Bool) : State := updXport s p (fun x => { x with held := x.held ++ [⟨j, t, pk, 0, newer⟩] })
     let mine := pk.dst = devId s p ∨ (t = 0x20 ∧ pk.dst = 0xFFFFF)
     (AtIngress s j p pk →
       (vcOk t pk.vc = false → Ends cmd s (dropPacket s p j 1 t pk)) ∧
       (vcOk t pk.vc = true → (rankOfDev s p pk.src = none ∨ ¬ mine) → Ends cmd s (dropPacket s p j 2 t pk)) ∧
       (vcOk t pk.vc = true → rankOfDev s p pk.src ≠ none → mine → pk.imptag ≠ sliceCrc s p % 2 ^ 32 →
         Ends cmd s (dropPacket s p j 3 t pk))) ∧
     (∀ rank, Arrives s j p rank t pk →
       ((t = 0x20 ∨ pk.gen = genOf s p) → Ends cmd s (deliver s p j rank t pk)) ∧
       (t ≠ 0x20 → pk.gen < genOf s p → Ends cmd s (dropPacket s p j 4 t pk)) ∧
       (t ≠ 0x20 → genOf s p < pk.gen → (t = 0x22 ∨ t = 0x24) → Ends cmd s (dropPacket s p j 4 t pk)) ∧
       (t ≠ 0x20 → genOf s p < pk.gen → t ≠ 0x22 → t ≠ 0x24 → Ends cmd s (hold true))) ∧
     (awake s = true → portPart s j = some p → ((port s j).state ≠ 5 ∨ (proof s p).slice = 9) → Ends cmd s s) ∧
     (awake s = true → portPart s j = some p → (port s j).state = 5 → (proof s p).slice ≠ 9 → isFabric j = true →
       vcHeld s p j pk.vc = true → Ends cmd s (hold false))) ∧
  (∀ (s : State) (p j kind t : Nat) (pk : Packet) (k : PortId) (vc : Fin 8) (e : Held),
     let up (n : Nat) : Nat := min (n + 1) (2 ^ 64 - 1)
     let x := xport s p
     let d := dropPacket s p j kind t pk
     (xport d p = { x with
       dropType := if kind = 1 then up x.dropType else x.dropType, dropAddr := if kind = 2 then up x.dropAddr else x.dropAddr
       dropTag := if kind = 3 then up x.dropTag else x.dropTag, dropGen := if kind = 4 then up x.dropGen else x.dropGen
       dropsSeen := sins x.dropsSeen kind }) ∧
     (kind ∈ x.dropsSeen → d.evr = s.evr) ∧ d.ms = s.ms ∧ proof d p = proof s p ∧
     (awake s = true → portPart s k = some p → x.held.find? (fun h => h.port == k.val && h.pk.vc == vc.val) = some e →
       Ends (.heldPacketTimeout k vc) s (dropPacket (freeBuffers (updXport s p (fun x => { x with held := x.held.erase e }))
         k vc e.flits) p k 4 e.ptype e.pk)) ∧
     (awake s = true → portPart s k = some p → (∀ h ∈ x.held, h.port ≠ k.val ∨ h.pk.vc ≠ vc.val) →
       Ends (.heldPacketTimeout k vc) s s))

/-- Remote access packets (R311, R312): a target grants or answers an access in scope, refuses one out of scope or fenced and
counts it, writes the data that arrives and acknowledges the last of it; an originator sends a granted PUT's bytes, and
completes its descriptor with the status that the data, the acknowledgement or the refusal gives. -/
def Obligations.RemoteAccessPackets : Prop :=
  ∀ (s : State) (j : PortId) (p rank : Nat) (pk : Packet) (r : Rma), pk.gen = genOf s p →
    let n := leAt pk.data 0 8
    let put := pk.sub == 0
    let b : Blob := ⟨pk.data, pk.poison⟩
    let src := vread s p r.addr r.count
    let refused (why : Nat) : State := sendRank (updXport s p (fun x => { x with
      refused := min (x.refused + 1) (2 ^ 64 - 1) })) p rank 0x03 2 why pk.group pk.addr pk.msg (.clean [])
    (Arrives s j p rank 0x01 pk →
      (scopeOk s p .peer put pk.addr n = false → Ends (.rmaOpen j pk) s (refused 1)) ∧
      (scopeOk s p .peer put pk.addr n = true → fencedMem s p pk.addr n = true → Ends (.rmaOpen j pk) s (refused 2)) ∧
      (scopeOk s p .peer put pk.addr n = true → fencedMem s p pk.addr n = false → pk.sub = 0 →
        Ends (.rmaOpen j pk) s (sendRank (updXport s p (fun x => { x with rmas := x.rmas ++ [
          { msg := pk.msg, peer := rank, origin := false, isPut := true, addr := pk.addr, remote := 0, count := n, done := 0
            poison := false, vc := 0 }] })) p rank 0x02 2 0 pk.group pk.addr pk.msg (.clean []))) ∧
      (scopeOk s p .peer put pk.addr n = true → fencedMem s p pk.addr n = false → pk.sub ≠ 0 → NoneInjected s →
        Ends (.rmaOpen j pk) s (sendBytes s p rank 0x04 3 0 pk.group 0 pk.msg (vread s p pk.addr n)))) ∧
    (Arrives s j p rank 0x02 pk → rmaOf s p rank pk.msg true = some r → r.isPut = true → r.done = 0 →
      Ends (.rmaGrant j pk) s (sendBytes (updRma s p r (fun y => { y with done := r.count, poison := src.bad }))
        p rank 0x04 r.vc 0 pk.group r.remote r.msg src)) ∧
    (Arrives s j p rank 0x03 pk → rmaOf s p rank pk.msg true = some r →
      Ends (.rmaRefuse j pk) s (finishRma s p r (if pk.sub = 2 then .fenced else .outOfScope))) ∧
    (Arrives s j p rank 0x04 pk → rmaOf s p rank pk.msg false = some r →
      (r.done + pk.data.length < r.count → Ends (.rmaData j pk) s
        (updRma (peerWrite s p pk.addr b) p r (fun y => { y with done := r.done + pk.data.length }))) ∧
      (r.count ≤ r.done + pk.data.length → Ends (.rmaData j pk) s
        (sendRank (dropRma (peerWrite s p pk.addr b) p r) p rank 0x06 2 0 pk.group pk.addr pk.msg (.clean [])))) ∧
    (Arrives s j p rank 0x04 pk → rmaOf s p rank pk.msg false = none → rmaOf s p rank pk.msg true = some r → r.isPut = false →
      (r.done + pk.data.length < r.count → Ends (.rmaData j pk) s (updRma (peerWrite s p (r.addr + pk.addr) b) p r
        (fun y => { y with done := r.done + pk.data.length, poison := r.poison || b.bad }))) ∧
      (r.count ≤ r.done + pk.data.length → Ends (.rmaData j pk) s
        (finishRma (peerWrite s p (r.addr + pk.addr) b) p r (if r.poison || b.bad then .poisoned else .done)))) ∧
    (Arrives s j p rank 0x06 pk → rmaOf s p rank pk.msg true = some r → r.isPut = true →
      Ends (.rmaAck j pk) s (finishRma s p r (if r.poison then .poisoned else .done)))

/-- Collective packets and PLANES (R308, R313, R314): the sender's k-th COLL_READY of a family is judged against the own k-th
collective of the family, or kept until that starts; one that does not match its descriptor is a negative event; data joins
the contribution of its sender; PLANES sets the sender's ACTIVE set. -/
def Obligations.CollectivePackets : Prop :=
  ∀ (s : State) (j : PortId) (p rank k i : Nat) (pk : Packet) (c : Coll), pk.gen = genOf s p →
    let x := xport s p
    let counted := updXport s p (fun x => { x with
      readyCount := x.readyCount.filter (fun c => !(c.1 == pk.group && c.2.1 == rank)) ++ [(pk.group, rank, k + 1)] })
    (Arrives s j p rank 0x10 pk →
      ((match x.readyCount.find? (fun c => c.1 == pk.group && c.2.1 == rank) with
        | some c => c.2.2
        | none => 0) = k) →
      (x.colls.find? (fun c => c.family == pk.group && c.pos == k) = some c →
        Ends (.collReady j pk) s (judgeReady counted p c.id rank pk.msg pk.data)) ∧
      (x.colls.find? (fun c => c.family == pk.group && c.pos == k) = none →
        Ends (.collReady j pk) s (updXport counted p (fun x => { x with
          early := x.early ++ [⟨pk.group, rank, k, pk.msg, pk.data⟩] })))) ∧
    (collOf s p c.id = some c → readyMatches c.desc pk.msg pk.data = false → c.step ≠ none →
      judgeReady s p c.id rank pk.msg pk.data =
        raise (updColl s p c.id (fun c => { c with mismatch := true })) p 0x08 (proof s p).openStep (ucXport p)) ∧
    (Arrives s j p rank 0x11 pk → x.colls.find? (fun c => c.family == pk.group && coCseq c.desc == pk.msg) = some c →
      (groupRanks s p c.family).findIdx? (· == rank) = some i →
      Ends (.collData j pk) s
        (tryFinishColl (updColl s p c.id (fun c => addData c i pk.addr ⟨pk.data, pk.poison⟩)) p c.id)) ∧
    (Arrives s j p rank 0x23 pk →
      Ends (.planes j pk) s (updXport s p (fun x => { x with peers := mput x.peers rank (leAt pk.data 0 4 % 2 ^ 28) })))

/-- Reserved-role ports (R319 to R325; 12 R377 to R380): the messages of a storage gateway move a drain or a restore on, or end it,
and a hostside port's reads and writes of the window are answered; a frozen hostside port answers HS_ERROR 2, and an access
outside the window freezes it and answers HS_ERROR 1.

The timers of drains and restores (R323; 12 R380): a chunk not durable goes out again on another selected port that is
ACTIVE; a manifest without an answer aborts its drain; a RESTORE whose partner's fill does not come completes FENCED. -/
def Obligations.ReservedRolePackets : Prop :=
  (∀ (s : State) (j : PortId) (p : Nat) (pk : Packet) (d : Drain) (r : Restoring),
     let va := regF s (.part p) 0x0204030 0 28 * pageSize + pk.addr
     let n := leAt pk.data 0 2
     (ArrivesReserved s j p 0x50 2 pk →
       ((port s j).frozen = true → Ends (.hsWrite j pk) s (hsError s p j 2 pk.msg)) ∧
       ((port s j).frozen = false → hsOk s p true pk.addr pk.data.length = true →
         Ends (.hsWrite j pk) s (sendReserved (vwrite s p va ⟨pk.data, pk.poison⟩) p j 0x51 0 0 pk.msg (.clean []))) ∧
       ((port s j).frozen = false → hsOk s p true pk.addr pk.data.length = false →
         Ends (.hsWrite j pk) s (hsError (freezeHs s p j va) p j 1 pk.msg))) ∧
     (ArrivesReserved s j p 0x52 2 pk → (port s j).frozen = false → 0 < n → n ≤ 4096 →
       (hsOk s p false pk.addr n = true → NoneInjected s →
         Ends (.hsRead j pk) s (sendReserved s p j 0x53 0 pk.addr pk.msg (vread s p va n))) ∧
       (hsOk s p false pk.addr n = false → Ends (.hsRead j pk) s (hsError (freezeHs s p j va) p j 1 pk.msg))) ∧
     (ArrivesReserved s j p 0x41 1 pk → drainOf s p pk.msg = some d → j.val ∈ d.ports →
       Ends (.drReady j pk) s (moveDrain (updDrain s p d.msg (fun d => { d with ready := sins d.ready j })) p d.msg)) ∧
     (ArrivesReserved s j p 0x43 1 pk → drainFor s p j pk = some d →
       Ends (.drDurable j pk) s (moveDrain (updDrain s p d.msg (fun d => { d with
         flying := d.flying.filter (fun x => x.1 != pk.addr) })) p d.msg)) ∧
     (ArrivesReserved s j p 0x45 1 pk → drainOf s p pk.msg = some d → d.manifest = true →
       Ends (.drCommitted j pk) s (endDrain s p d .done)) ∧
     (ArrivesReserved s j p 0x46 1 pk → drainOf s p pk.msg = some d → Ends (.drError j pk) s (abortDrain s p d)) ∧
     (ArrivesReserved s j p 0x49 1 pk → (snap s p).restoring = some r → r.storage = true → r.filling = false →
       Ends (.rdData j pk) s (updSnap s p (fun x => { x with
         restoring := some { r with data := wrBytes r.data pk.addr pk.data, bad := pzAfter r.bad pk.addr ⟨pk.data, pk.poison⟩ } }))) ∧
     (∀ m, ArrivesReserved s j p 0x4A 1 pk → (snap s p).restoring = some r → r.storage = true → r.filling = false →
       r.manifest = some m → pk.addr = r.chunks →
       let r' := { r with chunks := r.chunks + 1 }
       let t := updSnap s p (fun x => { x with restoring := some r' })
       Ends (.rdEnd j pk) s (if leAt m 40 4 ≤ r.chunks + 1 then restoreObject t p r' m
         else requestChunk t p r' false (r.chunks + 1)))) ∧
  (∀ (s : State) (p : PartId) (i j : Nat) (d : Drain) (r : Restoring), awake s = true →
     let others := d.ports.filter (fun k => k != j && (port s k).state == 5)
     ((snap s p).drains.find? (fun d => d.flying.any (fun x => x.1 == i)) = some d → d.flying.find? (fun x => x.1 == i) = some (i, j) →
       Ends (.chunkResend p i) s (sendChunk (updDrain s p d.msg (fun d => { d with
         flying := d.flying.map (fun x => if x.1 = i then (i, others.headD j) else x) })) p d i (others.headD j))) ∧
     ((snap s p).drains.find? (fun d => d.flying.any (fun x => x.1 == i)) = none → Ends (.chunkResend p i) s s) ∧
     ((snap s p).drains.find? (·.manifest) = some d → Ends (.drCommittedTimeout p) s (abortDrain s p d)) ∧
     ((snap s p).drains.find? (·.manifest) = none → Ends (.drCommittedTimeout p) s s) ∧
     ((snap s p).restoring = some r → r.filling = true → Ends (.restorePartnerTimeout p) s (failRestore s p)) ∧
     (((snap s p).restoring = none ∨ ∃ r, (snap s p).restoring = some r ∧ r.filling = false) →
       Ends (.restorePartnerTimeout p) s s))

/-! ### Proof and reprint (11_proof_and_reprint.md) -/

/-- STOPPRESS packets and their timers (R347, R348, R351, R352; 13 R403): a STOP of the own generation or a newer one is
accepted, an older one dropped; in a round of the packet's generation REPORT, DECISION and POLL are handled; the root decides
when its time to collect ends, a member moves to the next rank as root when no DECISION comes, and a unit that misses its safe
point is reset after a dump.

A DECISION applied (R352, R353, R355): the reprint count rises by 1 up to 255, the restart is counted, and a member that the
DECISION does not strike goes to ROLLBACK, one that it strikes is STRUCK; a member that has applied a DECISION, or is in no
round, takes none. -/
def Obligations.StopPressPackets : Prop :=
  (∀ (s : State) (j : PortId) (p : PartId) (rank d : Nat) (raw : Packet) (r : Round) (u : BitVec 16), inSlice s p = true →
     let m := StopMsg.ofBytes raw.data
     let at_ (k : Nat) : Prop := Arrives s j p rank 0x20 { raw with sub := k }
     let none_ := (proof s p).round = none
     let mine := (proof s p).round = some r ∧ r.gen = raw.gen
     (at_ 0 → genOf s p ≤ raw.gen → Ends (.stop j raw) s (acceptStop s p m)) ∧
     (at_ 0 → raw.gen < genOf s p → Ends (.stop j raw) s (dropPacket s p j 4 0x20 { raw with sub := 0 })) ∧
     (at_ 1 → mine → Ends (.report j raw) s (recvReport s p rank m)) ∧
     (at_ 2 → mine → Ends (.decision j raw) s (applyDecision s p m)) ∧
     (at_ 3 → mine → Ends (.poll j raw) s
       (sendReport (updProof s p (fun x => { x with round := some { r with no := m.round, root := rank, decided := false } })) p)) ∧
     (at_ 2 → none_ → raw.gen = genOf s p → Ends (.decision j raw) s (applyDecision (acceptStop s p m) p m)) ∧
     (at_ 2 → none_ → raw.gen ≠ genOf s p → Ends (.decision j raw) s (dropPacket s p j 4 0x20 { raw with sub := 2 })) ∧
     (awake s = true → (proof s p).round = some r → decides s p r = true → Ends (.rootCollectTimeout p) s (sendDecision s p r)) ∧
     (awake s = true → (none_ ∨ ((proof s p).round = some r ∧ decides s p r = false)) → Ends (.rootCollectTimeout p) s s) ∧
     (awake s = true → (proof s p).slice = 3 → (proof s p).round = some r → nextRoot s p r = some d →
       (d = ownRank s p → Ends (.decisionTimeout p) s (becomeRoot s p (r.no + 1) [])) ∧
       (d ≠ ownRank s p → Ends (.decisionTimeout p) s (sendReport (updProof s p (fun x => { x with
         round := some { r with no := r.no + 1, root := d, reports := [] } })) p))) ∧
     (awake s = true → ((proof s p).slice ≠ 3 ∨ none_) → Ends (.decisionTimeout p) s s) ∧
     (awake s = true → inRound s p = true → unitPart s u.toNat = p →
       Ends (.safePointMissed p u) s (resetUnit (takeDump s u.toNat 2 0x07 p) u.toNat 2)) ∧
     (awake s = true → inRound s p = false → Ends (.safePointMissed p u) s s)) ∧
  (∀ (s : State) (p : Nat) (d : StopMsg),
     let t := applyDecision s p d
     let x := proof s p
     (x.appliedDecision ≠ none ∨ (x.slice ≠ 2 ∧ x.slice ≠ 3) → t = s) ∧
     (x.appliedDecision = none → (x.slice = 2 ∨ x.slice = 3) →
       (xport t p).reprint = (if 255 ≤ (xport s p).reprint then (xport s p).reprint else (xport s p).reprint + 1) ∧
       (xport t p).epoch = (xport s p).epoch ∧ (xport t p).imp = (xport s p).imp ∧
       (xport t p).colls = [] ∧ (xport t p).rmas = [] ∧
       (proof t p).restarts = min (x.restarts + 1) (2 ^ 64 - 1) ∧ (proof t p).appliedDecision = some d ∧
       (proof t p).lastComputed ≤ d.provenTo ∧
       ((∀ e ∈ d.strikes, e.rank = ownRank s p → e.observe = true) → (proof t p).slice = 4) ∧
       ((∃ e ∈ d.strikes, e.rank = ownRank s p ∧ e.observe = false) → (proof t p).slice = 9)))

/-- What a STOP stops (R350; 08 R255): every queue of the partition's host port is STOPPED with STOPWHY 1, but a FROZEN one
stays FROZEN (log 20), no started descriptor of a step is left, no core of the partition runs a program of a step, no OPTIM
portion and no snapshot waits; a core whose program belongs to no step, and the cores of other partitions, run on. -/
def Obligations.StopHaltsTheWork : Prop :=
  ∀ (s : State) (p : Nat), p < nparts s →
    let h := partHp s p
    let t := stopWork s p
    (∀ q < 64, (queue s h q).state ≠ 3 → (queue t h q).state = 2 ∧ (queue t h q).stopwhy = 1) ∧
    (∀ q < 64, (queue s h q).state = 3 → (queue t h q).state = 3) ∧
    (∀ f ∈ (hport t h).flights, halts f = false) ∧
    (∀ l, p * lcores s ≤ l → l < (p + 1) * lcores s → running t (physOf t l) = true → (core t (physOf t l)).inStep = false) ∧
    (∀ c, (core s c).inStep = false → core t c = core s c) ∧
    (∀ c, (∀ l, p * lcores s ≤ l → l < (p + 1) * lcores s → physOf s l ≠ c) → core t c = core s c) ∧
    (mirror t p).out = [] ∧ (snap t p).held = none ∧ (snap t p).restoring = none

/-- The events of a restart and of retirement (R328, R355; 08 R257; 01 R27): ROLLBACK_DONE does the rollback's work and goes on
into HOLD or JOIN; JOIN_DONE ends a JOIN that has all it waits for; REPLAY_END returns to RUNNING once nothing is left to
replay; STEP_RETIRE frees what a PROVEN step holds, and what waits for journal space looks again. Out of their state the first
three change nothing.

The undo of the journal (07 R210): a page that one intact pre-image record of the steps above LAST_PROVEN names gets that
record's bytes and poison back, a page that none names keeps its own, and the segments of those steps are gone. -/
def Obligations.RestartEvents : Prop :=
  (∀ (s : State) (p : PartId) (n : Nat) (r : StepRec), awake s = true →
     let x := proof s p
     (x.slice = 4 → Ends (.rollbackDone p) s (endRollback (wakeDies (rollback s p)) p)) ∧
     (x.slice ≠ 4 → Ends (.rollbackDone p) s s) ∧
     (x.slice = 6 → joinReady s p = true → Ends (.joinDone p) s (finishJoin s p)) ∧
     (x.slice ≠ 6 ∨ joinReady s p = false → Ends (.joinDone p) s s) ∧
     (x.slice = 7 → replayOver s p = true → replayFlights s p = [] →
       Ends (.replayEnd p) s (asyncCause (updProof s p (fun x => { x with slice := 1 })) (partHp s p) 1)) ∧
     (x.slice ≠ 7 ∨ replayOver s p = false → Ends (.replayEnd p) s s) ∧
     (stepRec s p n = some r → r.state = 3 →
       ∃ t, Ends (.stepRetire p n) s (tryPortion (resumeWaiting t p) p) ∧
         (part t p).journal = (part s p).journal.filter (fun g => g.step != n) ∧
         (proof t p).log = x.log.filter (fun e => e.step != n) ∧ (proof t p).captures = x.captures.filter (fun c => c.step != n) ∧
         (proof t p).steps = x.steps.filter (fun r => r.step != n) ∧ (proof t p).lastRetired = max x.lastRetired n ∧
         t.ms = s.ms ∧ t.hps = s.hps) ∧
     ((∀ r, stepRec s p n = some r → r.state ≠ 3) → Ends (.stepRetire p n) s (tryPortion (resumeWaiting s p) p)) ∧
     (finishJoin s p).ms = s.ms ∧ (proof (finishJoin s p) p).newImp = false ∧
     (proof (finishJoin s p) p).slice = (if fallsBack s p then 8 else if x.newImp then 1 else 7)) ∧
  (∀ (s : State) (p : Nat),
     let n := (proof s p).lastProven
     let gs := (part s p).journal.filter (fun g => decide (n < g.step))
     let rs := gs.flatMap (fun g => g.records)
     let t := undoJournal s p
     (∀ r ∈ rs, (rs.filter (fun y => y.ppn == r.ppn)).length = 1 → r.intact = true →
       ∀ o < pageSize, rdByte t.ms.mem (r.ppn * pageSize + o) = rdByte r.page o) ∧
     (∀ ppn, (∀ r ∈ rs, r.ppn ≠ ppn) → ∀ o < pageSize,
       rdByte t.ms.mem (ppn * pageSize + o) = rdByte s.ms.mem (ppn * pageSize + o)) ∧
     (part t p).journal = (part s p).journal.filter (fun g => decide (g.step ≤ n)) ∧
     (proof t p) = proof s p ∧ t.cores = s.cores ∧ t.hps = s.hps)

/-- Votes, pulses, digests and samples (R334 to R337, R341, R344): UP is noted once, PROVEN from the parent proves its COMPUTED
step and goes on to the children, a PULSE is heard, and a neighbour that falls silent is suspected; a DIGEST replaces the one
held and is compared; a capture whose recomputation matches is freed, and one whose recomputation differs is a negative event
that charges the cores which a third result names. -/
def Obligations.VotesPulsesAndDigests : Prop :=
  ∀ (s : State) (j : PortId) (p : PartId) (rank : Nat) (raw : Packet) (c third : CoreId) (k : Capture)
    (wrong wrong3 : Word), raw.gen = genOf s p →
    let x := proof s p
    let at_ (i : Nat) : Prop := Arrives s j p rank 0x22 { raw with sub := i }
    let v : DigestVal := ⟨raw.addr, raw.sub, false, BitVec.ofNat 64 (leAt raw.data 0 8), leAt raw.data 8 4, (leAt raw.data 12 1).testBit 0⟩
    (at_ 0 → rank ∈ childrenOf s p → (raw.addr, rank) ∉ x.ups →
      Ends (.up j raw) s (updProof s p (fun x => { x with ups := x.ups ++ [(raw.addr, rank)] }))) ∧
    (at_ 0 → (rank ∉ childrenOf s p ∨ (raw.addr, rank) ∈ x.ups) → Ends (.up j raw) s s) ∧
    (at_ 1 → 0 < ownRank s p → rank = parentRank s p → (∃ r, stepRec s p raw.addr = some r ∧ r.state = 2) →
      Ends (.proven j raw) s (forwardProven (proveStep s p raw.addr) p raw.addr)) ∧
    (at_ 1 → (ownRank s p = 0 ∨ rank ≠ parentRank s p) → Ends (.proven j raw) s s) ∧
    (at_ 2 → Ends (.pulse j raw) s (updProof s p (fun x => { x with heard := sins x.heard rank }))) ∧
    (awake s = true → x.slice = 1 →
      Ends (.pulseSend p) s ((neighbours s p).foldl (fun s d => sendRank s p d 0x22 1 2 0 0 0 (.clean [])) s)) ∧
    (awake s = true → x.slice ≠ 1 → Ends (.pulseSend p) s s ∧ Ends (.neighbourLost p rank) s s) ∧
    (awake s = true → x.slice = 1 → rank ∈ neighbours s p → rank ∈ x.heard →
      Ends (.neighbourLost p rank) s (raiseStrikes s p 0x19 (ucXport p) [⟨rank, false, false, true, 0x19⟩])) ∧
    (Arrives s j p rank 0x24 raw → hasFacing s p = true → rank = facingRank s p → raw.sub ≤ 1 →
      Ends (.digest j raw) s (checkDigests (updMirror s p (fun y => { y with
        digests := y.digests.filter (fun d => !(d.step == v.step && d.sub == v.sub && !d.own)) ++ [v] })) p raw.addr (1 - raw.sub))) ∧
    (awake s = true → x.captures.find? (fun k => k.phys != c.val) = some k → corePart s c = p → smem s.retiredCores c = false →
      let freed := updProof s p (fun x => { x with captures := x.captures.erase k })
      let u := raise (updProof freed p (fun x => { x with sampleMismatch := min (x.sampleMismatch + 1) (2 ^ 64 - 1) })) p 0x02
        (some k.step) (ucCore k.phys)
      let same := k.poison = true ∨ faulty (recompute k) wrong = captured_ k
      let judge := corePart s third = p ∧ smem s.retiredCores third = false ∧ third ≠ c ∧ third.val ≠ k.phys
      (same → Ends (.sampleRecompute p ⟨c, wrong⟩ ⟨third, wrong3⟩) s freed) ∧
      (¬ same → ¬ judge → Ends (.sampleRecompute p ⟨c, wrong⟩ ⟨third, wrong3⟩) s u) ∧
      (¬ same → judge → Ends (.sampleRecompute p ⟨c, wrong⟩ ⟨third, wrong3⟩) s
        ((sampleCharges [(k.phys, captured_ k), (c, faulty (recompute k) wrong)] (third, faulty (recompute k) wrong3)).foldl
          (fun s x => charge s (ucCore x) 192) u))) ∧
    (awake s = true → (∀ k ∈ x.captures, k.phys = c.val) → Ends (.sampleRecompute p ⟨c, wrong⟩ ⟨third, wrong3⟩) s s)

/-- Mirror and state transfer from the facing rank (R339 to R343): OPEN begins a portion, GRAD fills the staging window and the
portion is applied with its last byte, DONE lets the next portion go, SEAL closes a step's mirror traffic, SCALE records wait for
the step's proof; page and scale bytes of a transfer land by ordinal and offset, and END verifies the set. MIRROR has no effect
in STOPPING and DECIDING (R350), and a packet of these types from any other rank has none. -/
def Obligations.MirrorAndTransfer : Prop :=
  ∀ (s : State) (j : PortId) (p rank : Nat) (raw : Packet) (o : Portion) (os : List Portion), raw.gen = genOf s p →
    hasFacing s p = true → rank = facingRank s p →
    let m := mirror s p
    let a (t i : Nat) : Prop := Arrives s j p rank t { raw with sub := i }
    let va := regF s (.part p) 0x0800498 0 28 * pageSize + raw.addr
    let want (s : State) : State := updMirror s p (fun x => { x with wantRestore := true, fillSent := false })
    let live := (proof s p).slice ≠ 2 ∧ (proof s p).slice ≠ 3
    let fits := scopeOk s p .engine true va raw.data.length = true
    let put := vwrite s p va ⟨raw.data, raw.poison⟩
    let early (t : State) : State := updMirror t p (fun x => { x with early := x.early + raw.data.length })
    let landed (t : State) : State := tryPortion (updMirror t p (fun x => { x with
      inp := some { o with landed := o.landed + raw.data.length } })) p
    (live → a 0x30 0 → Ends (.mirrorOpen j raw) s (recvMirrorOpen s p { raw with sub := 0 })) ∧
    (live → a 0x30 1 → m.inp = some o →
      (fits → Ends (.grad j raw) s (landed put)) ∧ (¬ fits → Ends (.grad j raw) s (landed s))) ∧
    (live → a 0x30 1 → m.inp = none →
      (fits → Ends (.grad j raw) s (early put)) ∧ (¬ fits → Ends (.grad j raw) s (early s))) ∧
    (live → a 0x30 2 → m.out = o :: os → m.outSent = true → o.first = raw.addr → o.optim = raw.msg →
      Ends (.mirrorDone j raw) s (updMirror s p (fun x => { x with out := os, outSent := false }))) ∧
    (live → a 0x30 3 → Ends (.seal j raw) s (tryPortion (tryFacingDigest (updMirror s p (fun x => { x with
      sealedAt := mput x.sealedAt raw.addr (leAt raw.data 0 4) })) p raw.addr) p)) ∧
    (live → a 0x30 4 → ∃ rs, Ends (.scale j raw) s (updMirror s p (fun x => { x with pendingScale := x.pendingScale ++ rs })) ∧
      rs.length = raw.data.length / 12 ∧ ∀ r ∈ rs, r.1 = raw.addr) ∧
    (a 0x32 0 → Ends (.ownRestore j raw) s (xferPage (want s) p true { raw with sub := 0 })) ∧
    (a 0x32 1 → Ends (.mirrorFill j raw) s (xferPage s p false { raw with sub := 1 })) ∧
    (a 0x32 2 → Ends (.shadowFill j raw) s (xferScale s p { raw with sub := 2 })) ∧
    (a 0x32 3 → Ends (.scaleRestore j raw) s (xferScale (want s) p { raw with sub := 3 })) ∧
    (a 0x32 4 → Ends (.stateXferEnd j raw) s (xferEnd s p { raw with sub := 4 })) ∧
    (¬ live → (a 0x30 0 → Ends (.mirrorOpen j raw) s s) ∧ (a 0x30 1 → Ends (.grad j raw) s s) ∧
      (a 0x30 2 → Ends (.mirrorDone j raw) s s) ∧ (a 0x30 3 → Ends (.seal j raw) s s) ∧ (a 0x30 4 → Ends (.scale j raw) s s)) ∧
    (∀ other, other ≠ facingRank s p → ∀ r ∈ fabricRows.drop 16, ∀ k, r.2.2 = some k →
      Arrives s j p other r.2.1 { raw with sub := k } → Ends (r.1 j raw) s s)

/-! ### Links (09_jilan_links.md) -/

/-- Flits (R265, R270 to R275; 11 R353): a valid flit gives its header; a DATA flit in sequence is delivered in order, one
that a replay repeats or that follows a discarded flit is not, one that leaves a gap asks for a replay, and a port that waits
for a newer IDENT or whose partition is STRUCK takes none; every flit row whose flit is not valid is counted, discards what
follows and is NAKed once; a NAK is answered by REPLAY_START and the buffered flits from the number asked for, and a
REPLAY_START ends the discarding and says which flit comes next.

A flit that is not valid (R273): it counts in CRC_ERR, later DATA flits are discarded, and a
NAK of the expected sequence number goes out unless one has; it leaves the number expected and the replay buffer as they are. -/
def Obligations.LinkFlits : Prop :=
  (∀ (s : State) (j : PortId) (f : Flit) (fs : List (Bytes × Nat)) (ptype : Nat) (pk : Packet), awake s = true →
     let x := port s j
     let t := rxHeader s j f
     let y := port t j
     let v := fVc f
     let q := (y.link.rxSeq + 1) % 1024
     let u := updLink t j (fun l => { l with rxSeq := q, rxPos := q, naks := 0, asm := mset l.asm [] v fs })
     let n := leAt (fPayload f) 1 2 % 1024
     (hears x = false → ∀ r ∈ [Instr.dataFlit j f, .idleFlit j f, .nak j f, .replayStart j f, .invalidFlit j], Ends r s s) ∧
     (hears x = true → x.inject = false →
       (Ends (.invalidFlit j) s (rxInvalid s j)) ∧
       (flitValid f = false → ∀ r ∈ [Instr.dataFlit j f, .idleFlit j f, .nak j f, .replayStart j f], Ends r s (rxInvalid s j)) ∧
       (flitValid f = true →
         (Ends (.idleFlit j f) s t) ∧
         (fKind f = 1 → (y.state ≠ 5 ∨ y.link.discarding = true ∨ y.epochWait = true ∨ portPart t j = none ∨
           ∃ p, portPart t j = some p ∧ (proof t p).slice = 9) → Ends (.dataFlit j f) s t) ∧
         (∀ p, fKind f = 1 → y.state = 5 → y.epochWait = false → y.link.discarding = false → portPart t j = some p →
           (proof t p).slice ≠ 9 → fs = mget y.link.asm [] v ++ [(fPayload f, fPoison f)] →
           let r := receive (updLink u j (fun l => { l with asm := mset l.asm [] v [] })) j ptype pk
           let ahead := (y.link.rxSeq + 1024 - y.link.rxPos) % 1024
           let h := (xport u p).held.length
           (y.link.rxPos ≠ y.link.rxSeq → ahead < 512 →
             Ends (.dataFlit j f) s (updLink t j (fun l => { l with rxPos := (l.rxPos + 1) % 1024 }))) ∧
           (y.link.rxPos ≠ y.link.rxSeq → 512 ≤ ahead → Ends (.dataFlit j f) s (askReplay t j)) ∧
           (y.link.rxPos = y.link.rxSeq → asmPacket v fs = none → Ends (.dataFlit j f) s u) ∧
           (y.link.rxPos = y.link.rxSeq → asmPacket v fs = some (ptype, pk) →
             ((xport r p).held.length ≤ h → Ends (.dataFlit j f) s (freeBuffers r j v fs.length)) ∧
             (h < (xport r p).held.length → Ends (.dataFlit j f) s (updXport r p (fun y => { y with
               held := y.held.dropLast ++ (y.held.drop h).map (fun e => { e with flits := fs.length }) }))))) ∧
         (fKind f = 2 → leAt (fPayload f) 0 1 = 1 → (talks y = true ∨ y.state = 6) →
           Ends (.nak j f) s (pump (checkRecover (resend (sendLctl (updPort t j (fun x => { x with
             nakRx := sat64 (x.nakRx + 1), link := { x.link with replayed := true } })) j 2 (leBytes 2 n)) j n) j) j)) ∧
         (fKind f = 2 → leAt (fPayload f) 0 1 = 2 → (talks y = true ∨ y.state = 6) →
           Ends (.replayStart j f) s (checkRecover (updLink t j (fun l => { l with
             discarding := false, rxPos := n, replayed := true })) j)))) ∧
     (hears x = true → x.inject = true → ∀ r ∈ [Instr.dataFlit j f, .idleFlit j f, .nak j f, .replayStart j f],
       Ends r s (rxInvalid (updPort s j (fun x => { x with inject := false })) j)) ∧
     ((talks x = true ∨ x.state = 6) → x.link.discarding = true → Ends (.nakRepeat j) s (sendNak s j)) ∧
     (x.link.discarding = false → Ends (.nakRepeat j) s s) ∧
     ((x.state = 4 ∨ x.state = 5) → (8 ≤ x.link.naks ∨ 16 ≤ x.link.invalid) → Ends (.recover j) s (goRecover s j)) ∧
     (x.link.naks < 8 → x.link.invalid < 16 → Ends (.recover j) s s)) ∧
  (∀ (s : State) (j : Nat),
     let x := port s j
     let y := port (rxInvalid s j) j
     y.link.rxSeq = x.link.rxSeq ∧ y.link.replay = x.link.replay ∧ y.link.asm = x.link.asm ∧ y.state = x.state ∧
     y.crcErr = sat64 (x.crcErr + 1) ∧ y.link.invalid = x.link.invalid + 1 ∧
     ((talks x = true ∨ x.state = 6) → y.link.discarding = true) ∧
     ((talks x = true ∨ x.state = 6) → x.link.discarding = false →
       y.nakTx = sat64 (x.nakTx + 1) ∧ y.link.naks = x.link.naks + 1 ∧
       .lctl j (ctrlFlit x.link 2 (leBytes 1 1 ++ leBytes 2 x.link.rxSeq)) ∈ (rxInvalid s j).out) ∧
     (x.link.discarding = true → y.nakTx = x.nakTx ∧ (rxInvalid s j).out = s.out) ∧
     ∀ k, k ≠ j → port (rxInvalid s j) k = port s k)

/-- Training (R276 to R278, R288; log 35): signal on six lanes takes a port from DETECT to EQUALISE, six aligned lanes and
an agreed map to IDENTIFY; losing the signal, an active lane or the time for a state takes it back. -/
def Obligations.PortsTrain : Prop :=
  ∀ (s : State) (j : PortId) (lanes : BitVec 8) (m : LaneId) (f : Flit), awake s = true →
    let x := port s j
    let sig := updPort s j (fun x => { x with signal := lanes })
    let ali := updPort s j (fun x => { x with aligned := x.aligned ||| lanes })
    let off := updPort s j (fun x => { x with aligned := x.aligned &&& ~~~BitVec.ofNat 8 (2 ^ m.val) })
    let own := ownMap (port sig j)
    (x.state = 1 → 6 ≤ (healthyIn (port sig j) lanes).length → Ends (.signalDetect j lanes) s
      (sendLaneMap (updPort (movePort sig j 2) j (fun x => { x with
        activeLanes := own.2.1, standby := own.2.2, mapAgreed := false })) j)) ∧
    ((x.state ≠ 1 ∨ (healthyIn (port sig j) lanes).length < 6) → Ends (.signalDetect j lanes) s sig) ∧
    ((x.state = 2 ∨ x.state = 3 ∨ x.state = 8) → (healthyIn (port sig j) lanes).length < 6 →
      Ends (.signalLoss j lanes) s (toDetect sig j)) ∧
    (6 ≤ (healthyIn (port sig j) lanes).length → Ends (.signalLoss j lanes) s sig) ∧
    (x.state = 2 → Ends (.fecAlignment j lanes) s (tryIdentify (offerMap ali j) j)) ∧
    (x.state = 6 → Ends (.fecAlignment j lanes) s (checkRecover ali j)) ∧
    (x.state < 2 → Ends (.fecAlignment j lanes) s s) ∧
    (x.activeLanes.getLsbD m = false → Ends (.fecAlignmentLoss j m) s off) ∧
    (x.activeLanes.getLsbD m = true →
      ((x.state = 4 ∨ x.state = 5) → Ends (.fecAlignmentLoss j m) s (goRecover off j)) ∧
      ((x.state = 2 ∨ x.state = 3 ∨ x.state = 8) → Ends (.fecAlignmentLoss j m) s (toDetect off j))) ∧
    (hears x = true → x.inject = false → flitValid f = true → fKind f = 2 → leAt (fPayload f) 0 1 = 4 →
      (port (rxHeader s j f) j).state = 2 → leAt (fPayload f) 3 1 = 0 → 6 ≤ (healthyLanes (port (rxHeader s j f) j)).length →
      let t := offerMap (rxHeader s j f) j
      let y := port t j
      let same := leAt (fPayload f) 1 1 == y.activeLanes.toNat && leAt (fPayload f) 2 1 == y.standby.toNat &&
        leAt (fPayload f) 3 1 == y.retired.toNat
      Ends (.laneMap j f) s (tryIdentify (updPort t j (fun x => { x with mapAgreed := same })) j)) ∧
    (x.state = 2 → Ends (.equaliseTimeout j) s (countRetrain (toDetect s j) j)) ∧
    (x.state = 6 → Ends (.recoverTimeout j) s (toDetect s j)) ∧
    (x.state = 7 → Ends (.retrainTimeout j) s (toDetect s j)) ∧
    (x.state ∉ [2, 6, 7] → ∀ r ∈ [Instr.equaliseTimeout j, .recoverTimeout j, .retrainTimeout j], Ends r s s)

/-- IDENT and CREDIT_INIT (R269, R280 to R284): check 2 judges the last IDENT received at once, and where it passes, the port
sends its credits; the later checks follow once the partner's are known. The first check that it fails takes an IDENTIFY port
to QUARANTINE with its reason, and one that passes every check takes it to READY; READY and QUARANTINE show the reason. -/
def Obligations.PortsIdentify : Prop :=
  ∀ (s : State) (j : PortId) (p : Nat) (f : Flit), awake s = true → portPart s j = some p →
    let x := port s j
    let t := rxHeader s j f
    let i := identOf (fPayload f)
    let got := updPort t j (fun x => { x with peer := some i, gotIdent := true })
    let cr := updLink t j (fun l => { l with
      credit := mofList 0 0 ((List.range 8).map (fun v => leAt (fPayload f) (4 + 2 * v) 2)), creditInit := true })
    let ver := updPort got j (fun y => { y with version := negotiated t i })
    let sent := sendCredits ver j
    let r := identVerdict sent p j i
    let shown (r : Nat) : State := updPort sent j (fun y => { y with qreason := r })
    let ready := updPort (movePort sent j 4) j (fun y => { y with qreason := 0 })
    let lctl (k : Nat) : Prop :=
      x.inject = false ∧ flitValid f = true ∧ fKind f = 2 ∧ leAt (fPayload f) 0 1 = k ∧ hears x = true ∧ portPart t j = some p
    (lctl 3 → (port t j).state = 3 → negotiated t i = 0 → Ends (.ident j f) s (quarantine ver j 4)) ∧
    (lctl 3 → talks (port t j) = true → negotiated t i ≠ 0 → (port t j).link.creditInit = false →
      Ends (.ident j f) s sent) ∧
    (lctl 3 → negotiated t i ≠ 0 → (port t j).link.creditInit = true →
      ((port t j).state = 3 → r ≠ 0 → Ends (.ident j f) s (quarantine sent j r)) ∧
      ((port t j).state = 3 → r = 0 → (xport t p).imp = none → Ends (.ident j f) s sent) ∧
      ((port t j).state = 3 → r = 0 → (xport t p).imp ≠ none → Ends (.ident j f) s ready) ∧
      ((port t j).state = 4 → (port t j).epochWait = false → Ends (.ident j f) s (shown r)) ∧
      ((port t j).state = 8 → (port t j).epochWait = false → r = 0 → Ends (.ident j f) s ready) ∧
      ((port t j).state = 8 → (port t j).epochWait = false → r ≠ 0 → Ends (.ident j f) s (shown r))) ∧
    (lctl 3 → (port t j).state = 7 → Ends (.ident j f) s got) ∧
    (lctl 7 → ((port t j).state = 4 ∨ (port t j).state = 8) → Ends (.creditInit j f) s cr) ∧
    (lctl 7 → (port t j).state = 3 → (port t j).gotIdent = false → Ends (.creditInit j f) s cr) ∧
    (lctl 7 → (port t j).state = 3 → (port t j).gotIdent = true → Ends (.creditInit j f) s (evalIdent cr j)) ∧
    ((x.state = 3 ∨ x.state = 4 ∨ x.state = 8) → Ends (.identSend j) s (sendIdent s j)) ∧
    (x.state ∉ [3, 4, 8] → Ends (.identSend j) s s) ∧
    (x.state = 3 → x.gotIdent = false → Ends (.identTimeout j) s (quarantine s j 8)) ∧
    (x.gotIdent = true → Ends (.identTimeout j) s s) ∧
    (x.epochWait = true → Ends (.epochWaitTimeout j) s (quarantine s j 3)) ∧
    (x.epochWait = false → Ends (.epochWaitTimeout j) s s)

/-- Retraining (R285 to R290): either end asks, the other acknowledges, and both retrain and return to the state that they
left with the lanes that are healthy then, to RETIRED below six, or to QUARANTINE where the identity of the peer has changed;
an uncorrectable burst asks for one at once.

The windows of BER_EST (R286 to R288, R292): the lanes that are not retired count their errors and, outside RETRAIN, are
judged against the threshold 1 in 10^BER_EXP; a lane over threshold, its port in no DEFER hold, asks for a retraining, and one
over threshold in the first window that lies wholly after its second retraining is condemned. -/
def Obligations.PortsRetrain : Prop :=
  (∀ (s : State) (j : PortId) (f : Flit) (m : LaneId) (seen : List LaneWindow) (eyes : BitVec 128), awake s = true →
     let x := port s j
     let t := rxHeader s j f
     let y := port t j
     let lctl (k : Nat) : Prop :=
       x.inject = false ∧ flitValid f = true ∧ fKind f = 2 ∧ leAt (fPayload f) 0 1 = k ∧ hears x = true
     let same := x.peer.map IdentMsg.who = x.peerBefore.map IdentMsg.who
     let mended := applyUnretire (updPort s j (fun x => { x with lanes := countLanes x, peerBefore := none, midWindow := true })) j
     let u := retireLanes mended j ((List.range 8).filter (fun m => (mget (port mended j).lanes {} m).condemned))
     let l := pickLanes (healthyLanes (port u j))
     let v := sendIdent (sendLaneMap (setLanes u j l.1 l.2.1 l.2.2 (fun m => eyes.toNat / 2 ^ (16 * m) % 2 ^ 16)) j) j
     let back := updPort (movePort v j x.from_) j (fun y => { y with
       mapAgreed := true, aligned := y.aligned ||| l.2.1 ||| l.2.2 })
     let on := pump (if x.from_ = 5 ∧ l.1 = 6 then stickyPort back j 4 else back) j
     (lctl 5 → (y.state = 4 ∨ y.state = 5) →
       (y.retrainAsked = none →
         Ends (.retrainReq j f) s (enterRetrain (sendLctl t j 6 (leBytes 1 (leAt (fPayload f) 1 1))) j)) ∧
       (y.retrainAsked ≠ none → Ends (.retrainReq j f) s (enterRetrain t j))) ∧
     (lctl 6 → (y.state = 4 ∨ y.state = 5) → y.retrainAsked ≠ none → Ends (.retrainAck j f) s (enterRetrain t j)) ∧
     (lctl 6 → y.retrainAsked = none → Ends (.retrainAck j f) s t) ∧
     (x.state ≠ 7 → Ends (.retrainComplete j eyes) s s) ∧
     (x.state = 7 → (healthyLanes (port u j)).length < 6 → Ends (.retrainComplete j eyes) s (dropPort u j)) ∧
     (x.state = 7 → 6 ≤ (healthyLanes (port u j)).length →
       (same → x.epochWait = false → Ends (.retrainComplete j eyes) s on) ∧
       (same → x.epochWait = true → Ends (.retrainComplete j eyes) s (evalIdent on j)) ∧
       (¬ same → x.peer = none → Ends (.retrainComplete j eyes) s (quarantine (movePort v j 8) j 1)) ∧
       (∀ i p, ¬ same → x.peer = some i → portPart v j = some p → Ends (.retrainComplete j eyes) s
         (quarantine (movePort v j 8) j (if identVerdict v p j i = 0 then 1 else identVerdict v p j i)))) ∧
     ((x.state < 3 ∨ x.state = 9) → Ends (.berWindow j seen) s s) ∧
     ((x.state = 4 ∨ x.state = 5) → Ends (.uncorrectableBurst j m) s (askRetrain (updPort s j (fun x => { x with
       lanes := mset x.lanes {} m { mget x.lanes {} m with asked := true } })) j 1)) ∧
     (x.state ≠ 4 → x.state ≠ 5 → Ends (.uncorrectableBurst j m) s s) ∧
     (Ends (.retrainCountReset j m) s (updPort s j (fun x => { x with
       lanes := mset x.lanes {} m { mget x.lanes {} m with rtc := 0, watch := false } })))) ∧
  (∀ (s : State) (j : PortId) (w : LaneWindow) (l : Lane) (e : Nat) (full : Bool),
     let counted := { l with cwCorr := sat64 (l.cwCorr + w.cwCorr), cwUncorr := sat64 (l.cwUncorr + w.cwUncorr)
                             symCorr := sat64 (l.symCorr + w.symCorr), recent := l.recent + w.cwUncorr * 1024 }
     let hot := decide (w.bits < (w.symCorr + 16 * w.cwUncorr) * 10 ^ e)
     let judged := laneJudged counted w e full
     laneCounted l w = counted ∧ judged.cwCorr = counted.cwCorr ∧
     judged.condemned = (l.condemned || (hot && l.watch && full)) ∧
     judged.asked = (l.asked || (hot && !(l.watch && full))) ∧ judged.watch = (l.watch && !full) ∧
     (awake s = true → (port s j).state = 5 → (port s j).retired = 0 → w.cwCorr = 0 →
       let e := natFld (jpCfg s j) 8 4
       let ls := mset (mset (port s j).lanes {} 0 (laneCounted (mget (port s j).lanes {} 0) w)) {} 0
         (laneJudged (laneCounted (mget (port s j).lanes {} 0) w) w e (!(port s j).midWindow))
       let t := chargeEvery (updPort s j (fun x => { x with lanes := ls, midWindow := false })) (ucPort j) 0 (2 ^ 30)
       ((List.range 8).any (fun m => (mget ls {} m).condemned) = true → Ends (.berWindow j [w]) s (askRetrain t j 2)) ∧
       ((List.range 8).any (fun m => (mget ls {} m).condemned) = false → overThreshold w e = false →
         Ends (.berWindow j [w]) s t) ∧
       ((List.range 8).any (fun m => (mget ls {} m).condemned) = false → overThreshold w e = true →
         natFld (jpCfg t j) 7 1 = 0 → Ends (.berWindow j [w]) s (askRetrain t j 1)) ∧
       ((List.range 8).any (fun m => (mget ls {} m).condemned) = false → overThreshold w e = true →
         natFld (jpCfg t j) 7 1 = 1 → observed t (ucPort j) = false →
         Ends (.berWindow j [w]) s (updPort t j (fun x => { x with deferred := true })))))

/-! ### Faults, health and resets (13_faults_and_resets.md) -/

/-- Watchdogs and escalation (R398, R402, R403): a watchdog over a unit that has work records the firing, asks for a dump and
resets the unit in its own domain, or raises the negative event and stops the queue as R402 says; over a unit with none it
changes nothing. -/
def Obligations.WatchdogsFire : Prop :=
  ∀ (s : State) (c : CoreId) (unit : Fin 4) (k : StackId) (j : PortId) (p : PartId) (g : Fin 16) (h : HostId) (q : QueueId)
    (d : BitVec 16) (n : Nat) (f : Flight), awake s = true →
    let fired := barked s (ucHost h) 3 (regF s (.hp h) 0x00C0810 0 12 * 1000000)
    let stopped := updQueue fired h q (fun x => if x.state = 1 ∨ x.state = 2 then { x with state := 2, stopwhy := 3 } else x)
    let waits (f : Flight) : Bool := match f.waits with
      | .fence _ => true
      | .cond _ _ _ => true
      | _ => false
    let ended := ((queueFlights stopped h q).filter waits).foldl (fun s f => finishFlight s h f .fenced 0) stopped
    let x := xport s p
    (running s c = true → Ends (.csqWatchdog c) s
      (coreDomain (barked s (ucCore c) 1 (regF s .dev 0x00C080C 0 16 * 1000)) c 1)) ∧
    (running s c = false → Ends (.csqWatchdog c) s s) ∧
    (hasHead s c unit = true → Ends (.tileWatchdog c unit) s
      (coreDomain (barked s (ucCore c) 2 (regF s .dev 0x00C080C 16 16 * 1000)) c 1)) ∧
    (hasHead s c unit = false → Ends (.tileWatchdog c unit) s s) ∧
    (hpPart s h = some n → ((proof s n).slice = 0 ∨ (proof s n).slice = 1) →
      (queueFlights s h q).find? (fun f => f.didx == d.toNat) = some f →
      (f.step = none → Ends (.hostQueueWatchdog h q d) s ended) ∧
      (f.step ≠ none → Ends (.hostQueueWatchdog h q d) s (raise ended n 0x07 f.step (ucHost h)))) ∧
    (hpPart s h = some n → (proof s n).slice ≠ 0 → (proof s n).slice ≠ 1 → Ends (.hostQueueWatchdog h q d) s s) ∧
    ((queueFlights s h q).find? (fun f => f.didx == d.toNat) = none → Ends (.hostQueueWatchdog h q d) s s) ∧
    (Ends (.engineWatchdog k) s (stackDomain (barked s (ucEngine k) 4 (regF s .dev 0x00C0814 0 14 * 1000)) k 1)) ∧
    (starved (port s j) [0, 1] = true → Ends (.creditHighWatchdog j) s
      (resetJilan (barked s (ucPort j) 5 (regF s .dev 0x00C081C 0 14)) j 1)) ∧
    (starved (port s j) [0, 1] = false → Ends (.creditHighWatchdog j) s s) ∧
    (starved (port s j) [2, 3, 4, 5, 6, 7] = true → Ends (.creditLowWatchdog j) s
      (resetJilan (barked s (ucPort j) 6 (regF s .dev 0x00C081C 16 10 * 1000)) j 1)) ∧
    (starved (port s j) [2, 3, 4, 5, 6, 7] = false → Ends (.creditLowWatchdog j) s s) ∧
    ((x.colls ≠ [] ∨ x.rmas ≠ []) → Ends (.transportWatchdog p) s
      (raise (updXport (barked s (ucXport p) 7 (regF s .dev 0x00C0818 0 14 * 1000)) p (fun x => { x with needReset := true }))
        p 0x07 none (ucXport p))) ∧
    (x.colls = [] → x.rmas = [] → Ends (.transportWatchdog p) s s) ∧
    (Ends (.galleyEscalation g) s (galleyDomain s g 7))

/-- Health and field tests (R389 to R395): every tick takes a thirty-second off each score; the rotation takes the next unit in
service, each unit waiting once; of the units that wait, the one longest overdue that is idle is tested first; a block that
matches moves its unit's test on, one that fails is recorded and charged 128, or
sets the score to its maximum once confirmed; the sixteenth block ends the test; a test that finds no idle time is abandoned.

A score rises by weight * 1024 up to its limit (R394), and is recorded once for each of the thresholds 256, 512 and 768 that it
rises through (R395): below 256 nothing else happens. -/
def Obligations.HealthAndFieldTests : Prop :=
  (∀ (s : State) (u : BitVec 16) (i : Nat) (t : Test), awake s = true →
     let n := u.toNat
     let ticked := updFaults s (fun f => { f with acc := mmapIf f.acc 0 (fun _ => true) (fun a => a - a / 32)
                                                  saved := if speushUp s = true then mmapIf f.acc 0 (fun _ => true) (fun a => a - a / 32) else f.saved })
     let next := updFaults s (fun f => { f with rotation := (i + 1) % 140 })
     let block (o : BlockOutcome) : State := updFaults s (fun f => { f with
       test := some { t with blocks := t.blocks + 1, worst := max t.worst (outcomeCode o) } })
     (∃ v, Ends .healthTick s v ∧ v.faults = ticked.faults ∧ v.ms = s.ms ∧ ∀ p, p < nparts s →
       (proof v p).healthUnits = (proof s p).healthUnits.filter (observed ticked) ∧
       (proof v p).observe = ((proof s p).observe && !((proof s p).healthUnits.filter (observed ticked)).isEmpty) ∧
       (proof v p).steps = (proof s p).steps) ∧
     (((upto s.faults.rotation 140).map (· % 140)).find? (fun i => inRotation s (rotationUnit i)) = some i →
       (s.faults.due.contains (rotationUnit i) = true → Ends .fieldTestSlot s next) ∧
       (s.faults.due.contains (rotationUnit i) = false → s.faults.test = none →
         Ends .fieldTestSlot s (updFaults next (fun f => { f with due := f.due ++ [rotationUnit i] })))) ∧
     ((∀ i < 140, inRotation s (rotationUnit i) = false) → Ends .fieldTestSlot s s) ∧
     (ucEngine 0 ≤ n → n < ucEngine 12 → underObservation s n = true → unitRetired s n = false → s.faults.test = none →
       s.faults.due.contains n = false →
       Ends (.observationTestDue u) s (updFaults s (fun f => { f with due := f.due ++ [n] }))) ∧
     (underObservation s n = false → Ends (.observationTestDue u) s s) ∧
     (s.pins.stage ≠ .booting → s.faults.test = some t → t.unit = n → testIdle s n = true → t.blocks + 1 < 16 →
       (Ends (.fieldTestBlock u .match_) s (block .match_)) ∧
       (Ends (.fieldTestBlock u .transient) s (testFailed (block .transient) n t.blocks 1)) ∧
       (Ends (.fieldTestBlock u .confirmed) s (testFailed (block .confirmed) n t.blocks 2))) ∧
     (s.pins.stage ≠ .booting → s.faults.test = some t → t.unit = n → testIdle s n = true → t.blocks = 15 → t.worst = 0 →
       Ends (.fieldTestBlock u .match_) s
         (endTest (updFaults (block .match_) (fun f => { f with completed := f.completed + 1 })) n 0)) ∧
     (s.pins.stage ≠ .booting → s.faults.test = some t → t.unit ≠ n → Ends (.fieldTestBlock u .match_) s s) ∧
     (s.pins.stage ≠ .booting → s.faults.test = none → testIdle s n = true →
       (s.faults.due.find? (testIdle s) = some n → Ends (.fieldTestBlock u .match_) s (updFaults s (fun f => { f with
         test := some { unit := n, blocks := 1, worst := 0 } }))) ∧
       (s.faults.due.find? (testIdle s) ≠ some n → s.faults.asked.contains n = false →
         Ends (.fieldTestBlock u .match_) s s)) ∧
     (s.pins.stage = .booting → ucCore 0 ≤ n → n < ucCore 128 → mget s.faults.bootTests 0 n < 15 →
       Ends (.fieldTestBlock u .match_) s (updFaults s (fun f => { f with
         bootTests := mset f.bootTests 0 n (mget f.bootTests 0 n + 1) }))) ∧
     (s.faults.test = none → s.faults.due.contains n = true → s.pins.stage ≠ .booting → Ends (.testStarved u) s
       (endTest (updFaults s (fun f => { f with starved := min (f.starved + 1) (2 ^ 32 - 1) })) n 3)) ∧
     (s.faults.test = none → s.faults.due.contains n = false → s.faults.asked.contains n = false → Ends (.testStarved u) s s)) ∧
  (∀ (s : State) (u w : Nat),
     let t := charge s u w
     let v := min (accOf s u + w * 1024) (2 ^ 20 - 1)
     (v / 1024 < 256 → t = updFaults s (fun f => { f with acc := mset f.acc 0 u v })) ∧
     (scoreOf s u < 256 → 256 ≤ v / 1024 → v / 1024 < 512 →
       t = record (updFaults s (fun f => { f with acc := mset f.acc 0 u v })) (unitPart s u) u 0 0x0053
         (leBytes 2 256 ++ leBytes 2 (v / 1024))) ∧
     (256 ≤ scoreOf s u → v / 1024 < 512 → t = updFaults s (fun f => { f with acc := mset f.acc 0 u v })))

/-- The reset registers (R398, R406, R409, R413, R415; 17 R485): a keyed write by an armed port in scope, in range, resets the
domain that it names, re-admits the device or asks for a dump; without the arming nothing but its KEYED_WRITE record happens,
and RELEASE, which is not keyed, frees the dump region.

A core reset (R398, R399): the core comes back not running, with its semaphores, epilogue records, control space and
issue queues cleared and its scalar registers, scratchpad and program memory kept; other cores, memory and the retired cores as they were; it is recorded, and charged 128. -/
def Obligations.ResetsAndDumps : Prop :=
  (∀ (s : State) (h : HostId) (p : Nat) (v : Word) (planned : Bool), CanWrite s h p →
     let word := 2 + 4 * b2n planned
     ((hport s h).armed = true →
       (128 ≤ v.toNat % 256 → coreOwner s (v.toNat % 128) = p →
         Ends (.coreReset h v) s (coreDomain (keyTaken s h 0x00C0820 v.toNat) (v.toNat % 128) 3)) ∧
       (v.toNat % 2 = 1 → natFld v.toNat 1 2 = p →
         Ends (.partReset h v) s (resetPart (keyTaken s h 0x00C0824 v.toNat) p (ucHost h) 3 3)) ∧
       (isOwner s h = true →
         Ends (.warm h planned) s (resetWarm (keyTaken s h 0x00C0828 (word - 1)) (ucHost h) 3 3 planned) ∧
         Ends (.cold h planned) s (coldNow (keyTaken s h 0x00C0828 word) (ucHost h) 3 3 planned) ∧
         Ends (.fltReadmit h) s (readmitDevice (keyTaken s h 0x00C0844 1)) ∧
         Ends (.trigger h) s (takeDump (keyTaken s h 0x00C088C 1) (ucHost h) 4 0 7))) ∧
     ((hport s h).armed = false → isOwner s h = true →
       let refused (off w : Nat) : State := keyedWrite (updHp s h (fun x => { x with armed := false })) h off w 1
       Ends (.cold h planned) s (refused 0x00C0828 word) ∧ Ends (.fltReadmit h) s (refused 0x00C0844 1) ∧
       Ends (.trigger h) s (refused 0x00C088C 1)) ∧
     (isOwner s h = true → Ends (.release h) s (releaseDump s)) ∧
     (isOwner s h = false → Ends (.release h) s (writeIgnored s h 0x00C088C 2 1)) ∧
     ((s.faults.dump.state = 2 ∨ s.faults.dump.state = 3) → (releaseDump s).faults.dump.state = 0) ∧
     (∀ us : List (BitVec 16), s.pins.resetPending = false → s.faults.dump.state = 1 →
       Ends (.dumpDone us) s (dumpDone s (us.map (·.toNat))) ∧ (dumpDone s (us.map (·.toNat))).faults.dump.state = 2) ∧
     (∀ us : List (BitVec 16), s.pins.resetPending = false → s.faults.dump.state ≠ 1 → Ends (.dumpDone us) s s) ∧
     (s.pins.pwrfail = false → s.mgmt.bothDown = false → Ends .dumpFlashCopy s (flashCopy s)) ∧
     (s.faults.dump.state = 2 → (s.faults.dump.length ≤ storeSize ∨ dumpSize s = 0) → (flashCopy s).faults.dump.state = 3)) ∧
  (∀ (s : State) (c cause : Nat), running s c = false → (unitsOf s c).resets = [] → stallBarks s c cause = false →
     let t := resetCore s c cause true
     accOf s (ucCore c) + 128 * 1024 < 256 * 1024 →
     core t c = coreCleared (core s c) (mget s.pulses 0 (c / 8)) ∧ queuesEmpty (unitsOf t c) = true ∧
     (∀ x, x ≠ c → core t x = core s x ∧ unitsOf t x = unitsOf s x) ∧ t.ms = s.ms ∧ t.parts = s.parts ∧
     t.retiredCores = s.retiredCores ∧ accOf t (ucCore c) = accOf s (ucCore c) + 128 * 1024)

/-! ### Power, clocks and thermal (14_power_clocks_thermal.md) -/

/-- The power and voltage events (R421, R422, R427, R428, R433 to R435, R437): the gain follows the error within its bounds
(to 14 fraction bits, the model's choice: log 38), points step down above a leading of 16 and up at none, a droop holds, a failed
target lowers every galley's ratio, a rail silent for 100 ms freezes the gain, and a sensor at 115 °C stops the clocks.

POWER_PERIOD (R429, R432, R435, R436): the current is compared with ICAP, each galley's thermal leading follows its die,
and the leading in force is the largest of the three, or 48 while the current is above ICAP. -/
def Obligations.PowerEvents : Prop :=
  (∀ (s : State) (p : PartId) (g : Fin 16) (m e mv : Nat) (temps : List Nat) (rails : List RailAnswer), awake s = true →
     let lead := leadSum s p
     let read := updPower s (fun x => { x with sensors := mofList 0 0 (temps.take 72) })
     let failed := if s.power.avsPending then s else record s 7 (ucSpeush 0) 0 0x0062 (leBytes 1 1 ++ leBytes 1 0)
     let polled := ((rails.take 4).zipIdx).foldl (fun s a => railAnswer s a.2 a.1) s
     (s.power.silent = true → Ends (.calibration m e) s s) ∧
     (s.power.silent = false → e ≠ 0 →
       let new : Int := s.power.gain + (16384 * ((m : Int) - e)) / (8 * e : Nat)
       Ends (.calibration m e) s (updPower { s with freeCtr := s.freeCtr + 1 } (fun x => { x with
         gain := min (max new 0x3000).toNat 0x5000 }))) ∧
     (partExists s p = true →
       (16 * lead.2 < lead.1 → Ends (.opStepDown p) s (updPart s p (fun x => { x with opCap := opInForce s p - 1 }))) ∧
       (lead.1 ≤ 16 * lead.2 → Ends (.opStepDown p) s s) ∧
       (lead.1 = 0 → (part s p).opCap < opRequested s p →
         Ends (.opStepUp p) s (updPart s p (fun x => { x with opCap := x.opCap + 1 }))) ∧
       ((lead.1 ≠ 0 ∨ opRequested s p ≤ (part s p).opCap) → Ends (.opStepUp p) s s)) ∧
     (s.power.raising = true → s.power.avsPending = false → mv ≤ s.power.target + 10 → s.power.target ≤ mv + 10 →
       Ends (.vcoreSettled (some mv)) s (updPower s (fun x => { x with meas := mv, raising := false }))) ∧
     ((s.power.target + 10 < mv ∨ mv + 10 < s.power.target) →
       Ends (.vcoreSettled (some mv)) s (updPower s (fun x => { x with meas := mv }))) ∧
     (s.power.raising = true → s.power.avsPending = false →
       Ends (.vcoreSettled none) s (updPower s (fun x => { x with raising := false }))) ∧
     (Ends (.droop g) s (stickyPower (updPower s (fun x => { x with
       droopHold := mset x.droopHold 0 g (regF s .dev 0x0080020 8 8), droops := min (x.droops + 1) (2 ^ 32 - 1) })) 2)) ∧
     ((∀ d, d < 4 → dieTemp read d < tjLimit s) → (∀ i, i < 64 → mget read.power.sensors 0 i < 460) →
       (∀ i, i < 8 → mget read.power.sensors 0 (64 + i) < 440) → Ends (.sensorRead temps) s read) ∧
     ((∀ d, d < 4 → dieTemp read d < tjLimit s) → (∀ i, i < 64 → mget read.power.sensors 0 i < 460) →
       (∃ i, i < 4 ∧ 440 ≤ mget read.power.sensors 0 (64 + i)) → (∀ i, i < 4 → mget read.power.sensors 0 (68 + i) < 440) →
       (ioHot read 0).power.sensors = read.power.sensors → Ends (.sensorRead temps) s (ioHot read 0)) ∧
     ((∃ i, i < 64 ∧ 460 ≤ mget read.power.sensors 0 i) → (∀ i, i < 8 → mget read.power.sensors 0 (64 + i) < 440) → ∃ u, Ends (.sensorRead temps) s u ∧
       u.pins.stage = .stopped ∧ u.pins.thermtripN = false ∧ u.pins.faultN = false) ∧
     (Ends (.avsFail mv) s ((List.range 16).foldl (fun s g => setRatio s g (safeRatio s mv))
       (stickyPower (updPower failed (fun x => { x with avsPending := true })) 4))) ∧
     (s.power.avsPending = true →
       Ends (.avsRetry false) s (emit s (.avs s.power.target)) ∧
       Ends (.avsRetry true) s (updPower (emit s (.avs s.power.target)) (fun x => { x with avsPending := false, raising := true }))) ∧
     (s.power.avsPending = false → ∀ b, Ends (.avsRetry b) s s) ∧
     ((∀ a ∈ rails.take 4, a.ok = true ∨ a.silentMs < 100) →
       Ends (.pmbusPoll rails) s (updPower polled (fun x => { x with silent := false }))) ∧
     (∀ a r, ((rails.take 4).zipIdx).find? (fun a => !a.1.ok && decide (100 ≤ a.1.silentMs)) = some (a, r) →
       (s.power.silent = true → Ends (.pmbusPoll rails) s (stickyPower (updPower polled (fun x => { x with silent := true })) 5)) ∧
       (s.power.silent = false → Ends (.pmbusPoll rails) s (stickyPower
         (updPower (record polled 7 (ucSpeush 0) 0 0x0062 (leBytes 1 2 ++ leBytes 1 r)) (fun x => { x with silent := true })) 5)))) ∧
  (∀ (s : State) (watts : List Nat) (io : Nat), awake s = true →
     let all := s.power.gain * (watts.foldl (· + ·) 0 + io)
     let amps := if s.power.meas = 0 then 0 else all * 1000 / (s.power.meas * 2 ^ 14)
     let edc := regF s .dev 0x0080004 0 12 < amps
     ∃ u, Ends (.powerPeriod watts io) s u ∧ u.power.iEst = amps ∧ u.power.edcHold = decide edc ∧
       (edc → u.power.stat.testBit 1 = true) ∧
       (∀ g, g < 16 →
         (mget u.power.total 0 g = if edc then 48
           else max (max (mget u.power.lead 0 g) (mget u.power.thermal 0 g)) (stackLead u g)) ∧
         (mget u.power.thermal 0 g = if tjLimit s ≤ dieTemp s (g / 4) then min (mget s.power.thermal 0 g + 4) 48
           else if dieTemp s (g / 4) + 8 < tjLimit s then mget s.power.thermal 0 g - 1 else mget s.power.thermal 0 g)) ∧
       u.ms = s.ms ∧ u.cores = s.cores ∧ u.power.droopHold = s.power.droopHold)

/-! ### Boot, pins and start-up (18_startup_and_lands.md) -/

/-- The reset and power pins (R505 to R508, R512 to R517; 13 R405): a rising RESET_N boots a held device; a falling one stops
the partitions of a READY device, asks for a dump and resets it, and resets one that is not READY at once; RESET_FORCE ends
the wait for the dump; PWRFAIL_N flushes the recorder and then holds the device; a lost reference stops the clocks. READY
leaves every partition INIT, or BLOCKED where the mode's limits fail. -/
def Obligations.PinsAndReady : Prop :=
  ∀ (s : State) (a : BitVec 3),
    let fell := { s with pins := { s.pins with resetN := false, pwrfail := false } }
    let dumped := takeDump ((List.range (nparts s)).foldl stopForReset fell) (ucSpeush 0) 3 0x20 7
    let flushed := flushEvents (endFreeze (recordReset dumped 7 (ucSpeush 0) 9 9))
    let waiting := { flushed with pins := { flushed.pins with resetPending := true } }
    let ready := { updMgmt (updFaults s (fun f => { f with subst := [] })) (fun m => { m with standbyOk := true }) with
      pins := { s.pins with stage := .ready, powerUp := false } }
    let freeze := endFreeze s
    (Ends (.resetN false) s s) ∧
    (s.pins.resetN = false → Ends (.resetN true) s s) ∧
    (s.pins.resetN = true →
      (s.pins.stage = .ready → waiting.faults.dump.state = 1 → Ends (.resetN true) s waiting) ∧
      (s.pins.stage = .ready → waiting.faults.dump.state ≠ 1 → Ends (.resetN true) s (resetEffect waiting)) ∧
      (s.pins.stage = .held → Ends (.resetN true) s fell) ∧
      (s.pins.stage ≠ .ready → s.pins.stage ≠ .held → Ends (.resetN true) s (resetEffect fell))) ∧
    (s.pins.resetPending = true → Ends .resetForce s (resetEffect s)) ∧
    (s.pins.resetPending = false → Ends .resetForce s s) ∧
    (s.pins.resetPending = true →
      Ends (.boot a) s { s with pins := { s.pins with resetN := true, smbAddr := a.toNat } }) ∧
    (s.pins.resetPending = false → s.pins.stage = .held → s.pins.resetN = false →
      Ends (.boot a) s (startBoot { s with pins := { s.pins with stage := .booting, resetN := true, smbAddr := a.toNat }, ticks := 0 })) ∧
    (s.pins.resetPending = false → s.pins.stage = .ready → Ends (.boot a) s s) ∧
    (s.pins.resetN = true → awake s = true → s.pins.pwrfail = false →
      Ends (.pwrfailN true) s (flushPower { freeze with pins := { freeze.pins with pwrfail := true } })) ∧
    ((s.pins.resetN = false ∨ s.pins.pwrfail = true) → Ends (.pwrfailN true) s s) ∧ (Ends (.pwrfailN false) s s) ∧
    (s.pins.pwrfail = true → Ends .pwrfailHold s (powerHold s) ∧ (powerHold s).pins.stage = .held) ∧
    (s.pins.pwrfail = false → Ends .pwrfailHold s s) ∧
    (Ends .powerLoss s (powerLost s) ∧ (powerLost s).pins.stage = .held ∧ (powerLost s).pins.resetN = false) ∧
    (s.pins.resetN = true → s.pins.stage ≠ .held →
      Ends .refclkLoss s (driveFault { s with pins := { s.pins with stage := .stopped } })) ∧
    (s.pins.resetN = false → Ends .refclkLoss s s) ∧
    (s.pins.stage = .booting → speushUp s = true → s.pmode = s.mgmt.recordedMode → s.faults.subst = [] → s.evr.clearing = false →
      s.faults.oos = false → s.faults.recov.length < 4 →
      Ends .ready s (driveFault ((List.range (nparts s)).foldl (fun s p => updPart s p (fun x => { x with
        pstate := if x.modeBlocked then 5 else 1 })) ready))) ∧
    (s.pins.stage = .ready → Ends .ready s s)

/-- The slot that boots (15 R453 to R456, R459, R462): the preferred one where it passes its checks, with its seven measurements taken, else the other, else RECOVERY with
every partition BLOCKED; each slot that fails is recorded with the first check that it fails.

What a device-cold reset keeps (13 R401; 15 R451, R452; 18 R509): the fuses, the retired cores and the core map, the retired
pseudo-channels and lanes, the saved scores and the recoveries, the flash of the recorder and the firmware slots, and no
queue, step, partition or pending record. Of memory, the dump region alone, and at a power-up nothing.

Starting a partition (R518, R519): START takes an INIT partition to STARTED and its ports out of DISABLED; the barrier takes
an armed STARTED partition through the load of its imposition to JOIN, with every step below START_STEP proven, or to HOLD
where it fails; in any other state either write is ignored and recorded. -/
def Obligations.BootAndStart : Prop :=
  (∀ (s : State) (i : Nat), s.mgmt.bootPref = i →
     let t := startBoot s
     (slotCheck s i = 0 → t.mgmt.slot = i ∧ t.mgmt.bothDown = false ∧ t.mgmt.prefFailed = false ∧
       t.pins.stage = s.pins.stage ∧ t.mgmt.svn = slotSvn s i ∧ t.evr.pending = s.evr.pending ∧
       t.mgmt.measures.length = 7 ∧ t.mgmt.measures[1]? = some (colophonHash t)) ∧
     (slotCheck s i ≠ 0 → slotCheck s (1 - i) = 0 →
       t.mgmt.slot = 1 - i ∧ t.mgmt.bothDown = false ∧ t.mgmt.prefFailed = true ∧ t.pins.stage = s.pins.stage) ∧
     (slotCheck s i ≠ 0 → slotCheck s (1 - i) ≠ 0 → t.pins.stage = .recovery ∧
       ∀ p, p < nparts t → (part t p).pstate = 5) ∧
     t.pmode = s.mgmt.pmodeNext ∧ t.fuses = s.fuses ∧ t.mgmt.fw = s.mgmt.fw) ∧
  (∀ (s : State) (powerUp : Bool),
     let t := resetCold s powerUp
     t.fuses = s.fuses ∧ t.retiredCores = s.retiredCores ∧ t.coreMap = s.coreMap ∧ t.ms.channelTable = s.ms.channelTable ∧
     t.faults.acc = s.faults.saved ∧ t.faults.recov = s.faults.recov ∧ t.faults.oos = s.faults.oos ∧
     t.evr.flash = s.evr.flash ∧ t.evr.pending = [] ∧ t.evr.seqNext = s.evr.seqNext ∧ t.mgmt.fw = s.mgmt.fw ∧
     t.mgmt.ctr = s.mgmt.ctr ∧ t.parts = [] ∧ t.hps = [] ∧ t.launches = [] ∧ t.cores = [] ∧
     (∀ c, c ∈ t.ms.mem ↔ powerUp = false ∧ c ∈ s.ms.mem ∧ dumpBase s ≤ c.1 ∧ c.1 < dumpBase s + dumpSize s) ∧
     t.faults.dump.seq = s.faults.dump.seq ∧ t.faults.dump.store = s.faults.dump.store ∧
     (powerUp = true → t.faults.dump.state = 0) ∧ (powerUp = false → t.faults.dump.state = s.faults.dump.state)) ∧
  (∀ (s : State) (h : HostId) (p : Nat), CanWrite s h p →
     let tried := loadImage (updPart s p (fun x => { x with pstate := 3, barFail := 0 })) p
     ((part s p).pstate = 1 →
       Ends (.start h) s ((partPorts s p).foldl tryEnable (updPart s p (fun x => { x with pstate := 2 })))) ∧
     ((part s p).pstate ≠ 1 → Ends (.start h) s (writeIgnored s h 0x0010010 1 0)) ∧
     ((part s p).pstate = 2 → (xport s p).arm = true →
       ((xport tried p).result = 1 → Ends (.startUpBarrier h) s (beginJoin (markProven tried p) p true)) ∧
       ((xport tried p).result ≠ 1 → Ends (.startUpBarrier h) s (toHold tried p 1))) ∧
     (((part s p).pstate ≠ 2 ∨ (xport s p).arm = false) → Ends (.startUpBarrier h) s (writeIgnored s h 0x0010010 2 0)))

/-! ### Management, the mailbox and the event recorder (15_management_security.md, 16_event_recorder.md) -/

/-- Frames and controllers (R439 to R446, R450): heartbeats, health and telemetry go out on the management ports whose link is up;
a frame that the MAC does not accept does nothing, one of a wrong version or type is counted and dropped, MGR_HB is counted
and timestamped, EVENT_REQ is answered and a STOPPRESS packet is injected where its DST says; the standby takes over from a lost
primary, and where there is none no controller is left (the model's reading, log 40). -/
def Obligations.ManagementFrames : Prop :=
  ∀ (s : State) (m : MgmtId) (f : Frame) (p : PartId) (n : Nat) (req : Bytes), awake s = true →
    let up : Prop := mget s.mgmt.mup 0 m = 1
    let late := s.mgmt.hbTime.foldl (fun a c => max a c.2) 0
    let rows := [Instr.mgrHb m f, .stoppressFrame m f, .eventReq m f, .strike m f, .readmit m f, .freezeLift m f, .dump m f,
      .mgmtReset m f, .takeover m f, .bootPref m f, .owner m f]
    (Ends .heartbeat s (sendBoth s 0x01 (heartbeatBody s))) ∧
    (s.pins.stage ≠ .recovery → Ends .health s (sendHealth s)) ∧ (s.pins.stage = .recovery → Ends .health s s) ∧
    (Ends .telemetry s (sendTelemetry (sendTelemetry s 0) 1)) ∧
    ((up ∧ speushUp s = true → ∀ t b,
        (sendFrame s m t 0xFF b).out = s.out ++ [.frame m (frameHeader s m t 0xFF b.length ++ b)] ∧
        mget (sendFrame s m t 0xFF b).mgmt.txSeq 0 m = mget s.mgmt.txSeq 0 m + 1) ∧
      (¬ up → ∀ t b, sendFrame s m t 0xFF b = s ∧ sendTelemetry s m = s)) ∧
    (macAccepts s m f = false → ∀ r ∈ rows, Ends r s s) ∧
    (macAccepts s m f = true → (f.version ≠ 1 ∨ listedFrame (frameType f) = false) → ∀ r ∈ rows,
      Ends r s (updMgmt s (fun x => { x with drop := min (x.drop + 1) (2 ^ 32 - 1) }))) ∧
    (macAccepts s m f = true → f.version = 1 →
      (frameType f = 2 → Ends (.mgrHb m f) s (updMgmt s (fun x => { x with
        hbCount := mset x.hbCount 0 m (mget x.hbCount 0 m + 1), hbTime := mput x.hbTime m (uptimeNs s), lost := [] }))) ∧
      (frameType f = 3 → speushUp s = true → isReady s = true →
        Ends (.stoppressFrame m f) s (injectStop s (frameBody f))) ∧
      (frameType f = 5 → speushUp s = true → isReady s = true →
        Ends (.eventReq m f) s (answerEvents s m (frameBody f)))) ∧
    (partExists s p = true → stepActive s p = true → s.mgmt.lost.contains p.val = false → late + 64000000 ≤ uptimeNs s →
      Ends (.mgmtLost p) s (raise (updMgmt s (fun x => { x with lost := sins x.lost p })) p 0x1D none (ucSpeush 0))) ∧
    (uptimeNs s < late + 64000000 → Ends (.mgmtLost p) s s) ∧
    (speushUp s = true → s.mgmt.standbyOk = true → Ends (.standbyTakeover n) s
      (record (updMgmt s (fun m => { m with primary := 1 - m.primary, standbyOk := false, beats := 0 })) 7 (ucSpeush 0) 0 0x0070
        (leBytes 1 s.mgmt.primary ++ leBytes 4 n))) ∧
    (speushUp s = true → s.mgmt.standbyOk = false →
      Ends (.standbyTakeover n) s (driveFault (updMgmt s (fun m => { m with bothDown := true })))) ∧
    (speushUp s = true → s.mgmt.standbyOk = false →
      Ends (.standbyReturn true) s (updMgmt s (fun m => { m with standbyOk := true })) ∧
      Ends (.standbyReturn false) s (stickySpeush s)) ∧
    (s.mgmt.standbyOk = true → ∀ b, Ends (.standbyReturn b) s s) ∧
    (Ends (.mgmtLinkUp m) s (updMgmt s (fun x => { x with mup := mset x.mup 0 m 1 }))) ∧
    (Ends (.mgmtLinkDown m) s (updMgmt s (fun x => { x with mup := mset x.mup 0 m 0 }))) ∧
    (speushUp s = true → Ends .internalHeartbeat s (updMgmt s (fun x => { x with beats := x.beats + 1 }))) ∧
    (speushUp s = true → Ends (.mctpRequest req) s
      (emit { s with freeCtr := s.freeCtr + 1 } (.mctp (protocolAnswer s.freeCtr))))

/-- Management commands (R447 to R449): the first check that a command fails decides its answer, with no effect; one that passes
every check is counted, recorded, answered with status 0 and has its effect. -/
def Obligations.ManagementCommands : Prop :=
  ∀ (s : State) (m : MgmtId) (f : Frame),
    let bs := frameBody f
    let a := cmdArgs bs
    let ctr := cmdCtr bs
    let part := leAt a 0 1
    let n := leAt a 2 2
    let kind := natFld (leAt a 0 2) 12 4
    let idx := natFld (leAt a 0 2) 0 12
    let refused (c status : Nat) : State := respond s m c ctr status
    let accepted (c : Nat) : State := respond (record (updMgmt s (fun x => { x with ctr := ctr })) 7 (ucSpeush 0) (operMgmt c)
      0x0072 (leBytes 2 c ++ leBytes 8 ctr ++ leBytes 1 0)) m c ctr 0
    let rows := [(Instr.strike m f, 1), (.readmit m f, 2), (.freezeLift m f, 3), (.dump m f, 4), (.mgmtReset m f, 5),
      (.takeover m f, 6), (.bootPref m f, 7), (.owner m f, 8)]
    awake s = true → macAccepts s m f = true → f.version = 1 → frameType f = 0x10 → speushTakes s = true →
    (∀ r ∈ rows, leAt bs 0 2 = r.2 →
      (allZero (mgmtKey s) = true → Ends r.1 s (refused r.2 2)) ∧
      (allZero (mgmtKey s) = false → tagOk s f = false → Ends r.1 s (authFailed s)) ∧
      (allZero (mgmtKey s) = false → tagOk s f = true → ctr ≤ s.mgmt.ctr → Ends r.1 s (refused r.2 3)) ∧
      (allZero (mgmtKey s) = false → tagOk s f = true → s.mgmt.ctr < ctr → zeroRange bs 2 4 = false → Ends r.1 s (refused r.2 4))) ∧
    (allZero (mgmtKey s) = false → tagOk s f = true → s.mgmt.ctr < ctr → zeroRange bs 2 4 = true → zeroRange bs 12 16 = true →
      (leAt bs 0 2 = 1 → partExists s part = true → zeroRange a 1 2 = true → 1 ≤ n → n ≤ 1018 → 4 + 2 * n ≤ a.length →
        ((proof s part).slice ≠ 0 → (proof s part).slice ≠ 9 → Ends (.strike m f) s (raiseStrikes (accepted 1) part 0x21 (ucSpeush 0)
          ((List.range n).map (fun i => ⟨leAt a (4 + 2 * i) 2, false, false, false, 0x21⟩)))) ∧
        ((proof s part).slice = 0 → Ends (.strike m f) s (refused 1 5))) ∧
      (leAt bs 0 2 = 2 → Ends (.readmit m f) s (readmitDevice (accepted 2))) ∧
      (leAt bs 0 2 = 3 → ((kind = 1 ∧ idx < 4) ∨ (kind = 2 ∧ idx < 64 ∧ hpPart s (leAt a 2 1) ≠ none) ∨ (kind = 3 ∧ idx < 120)) →
        (isFrozen s kind idx (leAt a 2 1) = true →
          Ends (.freezeLift m f) s (liftFreeze (accepted 3) kind idx (leAt a 2 1) 1 (ucSpeush 0))) ∧
        (isFrozen s kind idx (leAt a 2 1) = false → Ends (.freezeLift m f) s (refused 3 5))) ∧
      (leAt bs 0 2 = 3 → kind = 0 → Ends (.freezeLift m f) s (refused 3 4)) ∧
      (leAt bs 0 2 = 4 → Ends (.dump m f) s (takeDump (accepted 4) (ucSpeush 0) 5 0 7)) ∧
      (leAt bs 0 2 = 5 → leAt a 1 1 < 2 →
        (part < 4 → partExists s part = true → Ends (.mgmtReset m f) s (resetPart (accepted 5) part (ucSpeush 0) 5 3)) ∧
        (part = 4 → Ends (.mgmtReset m f) s (resetWarm (accepted 5) (ucSpeush 0) 5 3 (leAt a 1 1 == 1))) ∧
        (part = 5 → Ends (.mgmtReset m f) s (coldNow (accepted 5) (ucSpeush 0) 5 3 (leAt a 1 1 == 1))) ∧
        (5 < part → Ends (.mgmtReset m f) s (refused 5 4))) ∧
      (leAt bs 0 2 = 6 →
        (s.mgmt.standbyOk = true → ∃ t k, t = { accepted 6 with freeCtr := (accepted 6).freeCtr + 1 } ∧
          Ends (.takeover m f) s (takeOver t k)) ∧
        (s.mgmt.standbyOk = false → Ends (.takeover m f) s (refused 6 5))) ∧
      (leAt bs 0 2 = 7 →
        (part < 2 → Ends (.bootPref m f) s (updMgmt (accepted 7) (fun x => { x with bootPref := part }))) ∧
        (2 ≤ part → Ends (.bootPref m f) s (refused 7 4))) ∧
      (leAt bs 0 2 = 8 →
        (part < 4 → Ends (.owner m f) s (updMgmt (accepted 8) (fun x => { x with ownerNext := part }))) ∧
        (4 ≤ part → Ends (.owner m f) s (refused 8 4))))

/-- The mailbox and the fuses (15 R453, R457, R458; 17 R491): MB_GO by the owner runs the command of MB_CMD: bytes go into the slot
that did not boot, which is verified and then preferred; SVN_MIN is raised to the booted SVN and never lowered; a byte of the
flash store is read. Another port is refused, and MB_GO while a command runs is ignored and recorded. -/
def Obligations.Mailbox : Prop :=
  ∀ (s : State) (h : HostId) (p : Nat), CanWrite s h p →
    let x := (hport s h).mailbox
    let i := 1 - s.mgmt.slot
    let rows := [(Instr.fwChunk h, 0x0101), (.fwVerify h, 0x0102), (.fwActivate h, 0x0103), (.mbSvnCommit h, 0x0104),
      (.dumpRead h, 0x0105)]
    let off := leNat (mbReq s h 0 4)
    let data := mbReq s h 4 (x.len - 4)
    let from_ := leNat (mbReq s h 0 8)
    let n := leNat (mbReq s h 8 4)
    (∀ r ∈ rows, x.cmd = r.2 →
      (x.busy = true → Ends r.1 s (writeIgnored s h 0x0000108 1 4)) ∧
      (x.busy = false → speushUp s = false → Ends r.1 s (mbResult s h 1 [])) ∧
      (x.busy = false → speushUp s = true → isOwner s h = false → Ends r.1 s (mbResult s h 2 []))) ∧
    (x.busy = false → speushUp s = true → isOwner s h = true →
      (x.cmd = 0x0101 → 4 ≤ x.len → off + data.length ≤ 80 * 2 ^ 20 → s.pins.pwrfail = false → Ends (.fwChunk h) s
        (mbResult (updMgmt s (fun y => { y with fw := mset y.fw {} i { mget y.fw {} i with
          factory := false, verified := false
          bytes := data.zipIdx.foldl (fun m c => mput m (off + c.2) c.1) (mget y.fw {} i).bytes } })) h 0 [])) ∧
      (x.cmd = 0x0101 → (x.len < 4 ∨ 80 * 2 ^ 20 < off + data.length) → Ends (.fwChunk h) s (mbResult s h 3 [])) ∧
      ((x.cmd < 0x0101 ∨ 0x0105 < x.cmd) → ∀ r ∈ rows, Ends r.1 s (mbResult s h 3 [])) ∧
      (x.cmd = 0x0102 → slotCheck s i = 0 → Ends (.fwVerify h) s (mbResult (updMgmt s (fun y => { y with
        fw := mset y.fw {} i { mget y.fw {} i with verified := true } })) h 0 [])) ∧
      (x.cmd = 0x0102 → slotCheck s i ≠ 0 → Ends (.fwVerify h) s (mbResult s h 4 [])) ∧
      (x.cmd = 0x0103 → (fwSlot s i).verified = true → Ends (.fwActivate h) s
        (mbResult (updMgmt s (fun y => { y with bootPref := i })) h 0 [])) ∧
      (x.cmd = 0x0103 → (fwSlot s i).verified = false → Ends (.fwActivate h) s (mbResult s h 5 [])) ∧
      (x.cmd = 0x0104 → Ends (.mbSvnCommit h) s (mbResult (commitSvn s) h 0 [])) ∧
      (x.cmd = 0x0105 → n ≤ 4096 → from_ + n ≤ storeSize →
        Ends (.dumpRead h) s (mbResult s h 0 (sub s.faults.dump.store from_ n))) ∧
      (x.cmd = 0x0105 → (4096 < n ∨ storeSize < from_ + n) → Ends (.dumpRead h) s (mbResult s h 3 []))) ∧
    (∀ b, s.fuses.svnMin.getLsbD b = true → (commitSvn s).fuses.svnMin.getLsbD b = true) ∧
    (∀ b, b < 64 → b < s.mgmt.svn → (commitSvn s).fuses.svnMin.getLsbD b = true)

/-- The event recorder (R474 to R478): a flush moves the pending records to flash; while recording is frozen none is stored or
flushed, and its end records what was missed; CLEAR empties it and leaves the CLEARED record; a lookup answers the first stored
record from RD_SEQ on that the port may read, or that there is none. -/
def Obligations.EventRecorder : Prop :=
  ∀ (s : State) (h : HostId) (p : Nat) (high : Word), CanWrite s h p →
    let w := s.evr.minSev
    let e := endFreeze s
    let frozen := updEvr s (fun x => { x with frozen := true, frozenCnt := 0, frozenSev := 0, frozenAt := uptimeNs s })
    let q := (hport s h).rdSeq % 2 ^ 32 + 2 ^ 32 * high.toNat
    let named := updHp s h (fun x => { x with rdSeq := q })
    let hit (x : Event) : Bool := decide (q ≤ x.seq) && mayRead named h x
    (s.evr.frozen = false → s.mgmt.bothDown = false →
      Ends .flush s (updEvr s (fun x => { x with flash := x.flash ++ x.pending, pending := [] }))) ∧
    (s.evr.frozen = true → Ends .flush s s) ∧
    (∀ p u o c d, s.evr.frozen = true → (record s p u o c d).evr.pending = s.evr.pending ∧
      (record s p u o c d).evr.flash = s.evr.flash) ∧
    (s.evr.frozen = false → Ends .freezeMax s s) ∧ (s.evr.frozen = true → Ends .freezeMax s e ∧ e.evr.frozen = false) ∧
    (isOwner s h = true → w ≤ 2 →
      (s.evr.frozen = false → Ends (.evrFreeze h) s frozen ∧ Ends (.evrUnfreeze h) s s) ∧
      (s.evr.frozen = true → Ends (.evrFreeze h) s s ∧
        Ends (.evrUnfreeze h) s (updEvr e (fun x => { x with minSev := w }))) ∧
      (s.evr.frozen = false → (hport s h).armed = true →
        Ends (.clear h) s (updEvr (clearRecorder (endFreeze (keyTaken s h 0x0100000 (2 + 4 * w))) 1) (fun x => { x with minSev := w }))) ∧
      ((hport s h).armed = false → s.evr.frozen = false →
        Ends (.clear h) s (updEvr (endFreeze
          (keyedWrite (updHp s h (fun x => { x with armed := false })) h 0x0100000 (2 + 4 * w) 1)) (fun x => { x with minSev := w })))) ∧
    (∀ c, w ≤ 2 → s.mgmt.bothDown = false → let t := (clearRecorder s c).evr
      t.dropped = 0 ∧ t.frozen = false ∧ t.pending = [] ∧ ∃ x, t.flash = [x] ∧ x.event = 0xF1 ∧ x.seq = s.evr.seqNext) ∧
    (∀ x, (recordsInOrder named).find? hit = some x → Ends (.evrRdSeq h high) s (updHp named h (fun y => { y with
      rdRecord := x.bytes, rdStat := 1 + 4 * b2n (seqGap named q x.seq) }))) ∧
    ((recordsInOrder named).find? hit = none → Ends (.evrRdSeq h high) s (updHp named h (fun y => { y with rdStat := 8 })))

/-! ### The register interface (17_register_interface.md; 09 R292; 01 R29; 14 R427; 15 R466) -/

/-- A write of BAR0 (R464, R483 to R485; 00 R14; 08 R223; 15 R463): aligned words are written in ascending order and any other
access is recorded alone; a word with one writable field takes a value in range where the state admits it; a keyed field takes
it only while the port is armed, which it consumes; a port out of scope, a range or a state that refuses it is recorded and
the field keeps its value. Before READY a write is ignored and recorded; a frozen port drops it. -/
def Obligations.RegisterWrites : Prop :=
  ∀ (s : State) (h : HostId) (p off size : Nat) (v : DWord) (f : RegFld),
    let w := v.toNat % 2 ^ 32
    let x := f.val w
    let row := Instr.registerWrite h off size v
    let at4 (u : State) : Prop := Ends (.registerWrite h off 4 v) s u
    let disarmed := updHp s h (fun x => { x with armed := false })
    let inScope := inRegScope s h p (scopeAt s off w)
    (CanWrite s h p → (size ≠ 4 → size ≠ 8 → Ends row s (accessBad s h off size)) ∧
      (off % 4 ≠ 0 → Ends row s (accessBad s h off size)) ∧
      (off % 8 = 0 → off < 0x4000000 → Ends (.registerWrite h off 8 v) s
        (writeWord (writeWord s h off (half v.toNat 0)) h (off + 4) (half v.toNat 1)))) ∧
    (CanWrite s h p → off % 4 = 0 → off < 0x2000000 → off ≠ 0x40 → off ≠ 0x108 →
      ¬ (0x0020000 ≤ off ∧ off < 0x0024000 ∧ off % 256 = 0x18) →
      (fieldsAt h p off = [] → at4 s) ∧
      (fieldsAt h p off = [f] →
        (inScope = true → (f.acc = .rw ∨ f.acc = .w1c) →
          (f.range s x = 0 → f.gate s x = 5 → at4 (f.put s x)) ∧
          (f.range s x = 0 → f.gate s x = 0 → at4 (writeIgnored s h off w 0)) ∧
          (f.range s x = 2 → at4 (writeIgnored s h off w 2)) ∧ (f.range s x = 3 → at4 (writeIgnored s h off w 3))) ∧
        (inScope = true → (f.acc = .rwk ∨ f.acc = .wov) →
          ((hport s h).armed = false → at4 (keyedWrite disarmed h off w 1)) ∧
          ((hport s h).armed = true → f.range s x = 0 → f.gate s x = 5 → at4 (f.put (keyTaken s h off w) x)) ∧
          ((hport s h).armed = true → f.range s x = 0 → f.gate s x = 0 → at4 (writeIgnored (keyTaken s h off w) h off w 0)) ∧
          ((hport s h).armed = true → f.range s x ≠ 0 → at4 (keyedWrite disarmed h off w 3))) ∧
        (inScope = false → (f.acc = .rw ∨ f.acc = .w1c ∨ f.acc = .wo) → at4 (writeIgnored s h off w 1)) ∧
        (inScope = false → (f.acc = .rwk ∨ f.acc = .wov) → at4 (keyedWrite disarmed h off w 2)))) ∧
    (awake s = true → hostCan s h = true → isReady s = false → off % 4 = 0 → at4 (writeIgnored s h off w 0)) ∧
    (awake s = true → (hport s h).frozen = true → (Ends row s s))

/-- UNLOCK, the indirect window, reads and the bit-alias region (R484 to R494; 08 R223, R230): the key arms the port and any other value
disarms it and is recorded; IND_DATA reads or writes the window's word, its errors set ERR and are recorded, and AUTOINC moves
the address on; the low word of a counter latches its high word; a doorbell reads as the last value accepted, and a read of another size is
recorded; a bit-alias write writes one bit of a field, 1 sets it, 0
clears it, a W1C bit is cleared by 0, and a word that the region does not hold is recorded. -/
def Obligations.UnlockIndirectAndAliases : Prop :=
  ∀ (s : State) (h : HostId) (p a : Nat) (v : Word) (f : RegFld), CanWrite s h p →
    let disarmed := updHp s h (fun x => { x with armed := false })
    let w := windowAt (hport s h).indAddr
    let rerr := windowErr s h p false w
    let werr := windowErr s h p true w
    let c := { s with freeCtr := s.freeCtr + 1 }
    let o := (aliasOf a).1
    let b := (aliasOf a).2
    let one := v.toNat % 2 = 1
    let now := f.now s * 2 ^ f.lo
    (v.toNat = 0x7F1C0D5E → Ends (.unlock h v) s (updHp s h (fun x => { x with armed := true }))) ∧
    (v.toNat ≠ 0x7F1C0D5E → Ends (.unlock h v) s (keyedWrite disarmed h 0x40 v.toNat 1)) ∧
    (Ends (.unlockLapse h) s disarmed) ∧
    (Ends (.indDataRead h) s (updHp (indirectDone c h rerr) h (fun x => { x with
      rdata := if rerr = 0 then windowRead s h w s.freeCtr else 0 }))) ∧
    (∀ k, w = .mailbox k → werr = 0 → Ends (.indDataWrite h v) s (indirectDone (writeMailbox s h k v.toNat) h 0)) ∧
    (werr ≠ 0 → Ends (.indDataWrite h v) s (indirectDone s h werr)) ∧
    (a % 4 = 0 → a ≠ 0x108 → a < 0x4000000 → latches a = true → Ends (.latchedRead h ⟨a, 4⟩) s
      (updHp (updHp s h (fun x => { x with latch := readWord s h p (a + 4), latchOff := a })) h (fun x => { x with
        rdata := readWord s h p a }))) ∧
    (a % 4 = 0 → a ≠ 0x108 → a < 0x4000000 → latches a = false → (hport s h).latchOff = a - 4 → 4 ≤ a → latches (a - 4) = true →
      (hport s h).latchOff ≠ 0 →
      Ends (.latchedRead h ⟨a, 4⟩) s (updHp s h (fun x => { x with rdata := (hport s h).latch }))) ∧
    (a % 4 = 0 → a ≠ 0x108 → a < 0x4000000 → latches a = false → latches (a - 4) = false →
      Ends (.latchedRead h ⟨a, 4⟩) s (updHp s h (fun x => { x with rdata := readWord s h p a }))) ∧
    (∀ q : QueueId, Ends (.latchedRead h ⟨(0x4000000 + 4096 * q), 4⟩) s
      (updHp s h (fun x => { x with rdata := (queue s h q).doorbell }))) ∧
    (∀ n, n ≠ 4 → n ≠ 8 → Ends (.latchedRead h ⟨a, n⟩) s (updHp (accessBad s h a n) h (fun x => { x with rdata := 0 }))) ∧
    (a % 4 = 0 → 0x2000000 ≤ a → a < 0x4000000 →
      ((aliased o && listedWord o) = false → Ends (.bitAliasWrite h a v) s (accessBad s h a 4)) ∧
      ((aliased o && listedWord o) = true → (fieldsAt h p o).find? (·.has b) = none → Ends (.bitAliasWrite h a v) s s) ∧
      ((aliased o && listedWord o) = true → (fieldsAt h p o).find? (·.has b) = some f →
        ((f.acc = .rw ∨ f.acc = .rwk) → one → Ends (.bitAliasWrite h a v) s (writeSel s h p o (now ||| 2 ^ b) [f])) ∧
        ((f.acc = .rw ∨ f.acc = .rwk) → ¬ one → Ends (.bitAliasWrite h a v) s (writeSel s h p o (now - (now &&& 2 ^ b)) [f])) ∧
        (f.acc = .w1c → one → Ends (.bitAliasWrite h a v) s s) ∧
        (f.acc = .w1c → ¬ one → Ends (.bitAliasWrite h a v) s (writeSel s h p o (2 ^ b) [f])) ∧
        (f.acc = .wo → one → Ends (.bitAliasWrite h a v) s (writeSel s h p o (2 ^ b) [f])) ∧
        (f.acc = .wo → ¬ one → Ends (.bitAliasWrite h a v) s s)))

/-- The registers with effects: ASYNC_MASK, CORE_MAP, PSHARE, SVN_COMMIT, FRZ_LIFT, HSFRZ, RETRAIN, CNTCLR and JP_CFG.EN (01 R24, R29;
09 R285, R292; 10 R325; 14 R427; 15 R457, R466; 17 R498): a keyed one by an armed port in scope has its effect; a write of a
word whose other fields have settings writes those with their values (the model's rows, log 44). -/
def Obligations.RegistersWithEffects : Prop :=
  ∀ (s : State) (h : HostId) (p : Nat) (v : Word) (l : LogicalId) (q : PartId) (j : PortId) (en : Bool), CanWrite s h p →
    let n := v.toNat
    let mapOff := 0x0010800 + 4 * l.val
    let off := 0x0400000 + 0x1000 * j.val
    let cfg := jpCfg s j
    let kind := natFld n 12 4
    let idx := natFld n 0 12
    let same (u : State) (fs : List (Nat × Nat)) : State :=
      fs.foldl (fun u f => setRegF u .dev off f.1 f.2 (natFld cfg f.1 f.2)) u
    let unkeyed (w : Nat) : State := keyedWrite (updHp s h (fun x => { x with armed := false })) h off w 1
    (Ends (.asyncMask h v) s (putMask s h (n % 64))) ∧ (hport (putMask s h (n % 64)) h).asyncMask = n % 64 ∧
    ((hport s h).armed = true →
      (lcorePart s l = p → (∀ x, x < 120 → x ≠ l.val → physOf s x ≠ n % 128) → smem s.retiredCores (n % 128) = false →
        n % 128 / (128 / nparts s) = p → stepActive s p = false → (∀ x ∈ s.launches, x.part ≠ p) →
        Ends (.coreMap h l v) s (setPhys (keyTaken s h mapOff n) l (n % 128))) ∧
      (lcorePart s l = p → smem s.retiredCores (n % 128) = true →
        Ends (.coreMap h l v) s (keyedWrite (updHp s h (fun x => { x with armed := false })) h mapOff n 3)) ∧
      (isOwner s h = true → n % 512 ≤ 256 →
        Ends (.pshare h q v) s (stageShare (keyTaken s h (0x0080008 + 4 * q) n) q (n % 512))) ∧
      (isOwner s h = true → s.mgmt.bootPref ≤ 1 → Ends (.svnCommit h) s
        (commitSvn (updMgmt (keyTaken s h 0x0010C0C (s.mgmt.bootPref + 2)) (fun m => { m with
          bootPref := s.mgmt.bootPref })))) ∧
      (((kind = 1 ∧ idx < 4 ∧ isOwner s h = true) ∨ (kind = 2 ∧ idx < 64) ∨ (kind = 3 ∧ idx < 120 ∧ lcorePart s idx = p)) →
        isFrozen s kind idx h = true → Ends (.frzLift h v) s (liftFreeze (keyTaken s h 0x0010C30 n) kind idx h 2 (ucHost h))) ∧
      (Ends (.hsfrz h v) s (putHsfrz (keyTaken s h 0x0204038 n) p (n % 16)))) ∧
    (portPart s j = some p → cfg / 32 % 4 = 0 → natFld cfg 3 2 ≤ 2 → 4 ≤ natFld cfg 8 4 → natFld cfg 8 4 ≤ 7 →
      ((hport s h).armed = false →
        Ends (.retrain h j) s (same (askRetrain (unkeyed (cfg + 32)) j 0) [(7, 1), (8, 4)]) ∧
        Ends (.cntclr h j) s (same (clearCounters (unkeyed (cfg + 64)) j) [(7, 1), (8, 4)])) ∧
      ((hport s h).armed = true → let w := setFld cfg 0 1 (b2n en)
        Ends (.portEnWrite h j en) s (same (putEn (keyTaken s h off w) j (b2n en)) [(1, 2), (3, 2), (7, 1), (8, 4)])))

/-! ### Integers of the stream fabric (04_stream_fabric.md) -/

/-- INT32 of the stream fabric (04 R107): ADD, SUB, MUL and FMA wrap modulo 2^32; DIV and REM by zero give 0 and count one integer
division by zero; DIV of -2^31 by -1 gives 2^31 - 1 and counts one saturation; REM of -2^31 by -1 gives 0. -/
def Obligations.StreamIntegers : Prop :=
  ∀ (r : UnitRec) (a b c : BitVec 32) (d : Nat), r.ty = 6 →
    let alu := aluElem r a.toNat b.toNat d
    let fma := fmaElem r a.toNat b.toNat c.toNat
    (r.op = 0x01 → alu = ((a + b).toNat, {})) ∧ (r.op = 0x02 → alu = ((a - b).toNat, {})) ∧
    (r.op = 0x01 → fma = ((a * b).toNat, {})) ∧ (r.op = 0x02 → fma = ((a * b + c).toNat, {})) ∧
    (r.op = 0x10 → alu = if b = 0 then (0, { div0 := 1 })
      else if a.toInt = -2 ^ 31 ∧ b.toInt = -1 then (2 ^ 31 - 1, { sat := 1 })
      else ((BitVec.ofInt 32 (Int.tdiv a.toInt b.toInt)).toNat, {})) ∧
    (r.op = 0x11 → alu = if b = 0 then (0, { div0 := 1 })
      else if a.toInt = -2 ^ 31 ∧ b.toInt = -1 then (0, {})
      else ((BitVec.ofInt 32 (Int.tmod a.toInt b.toInt)).toNat, {}))
end

