-- ==== Sys2Proof/Laws/Maps.lean ====
section
/-! SUPPORT. The laws of sparse tables and byte memories: what a read gives after a write, and that every operation
keeps the canonical form. -/

namespace Sys2Proof.Machine

variable {α : Type}

/-! ### Reads of joined and cut tables -/

theorem mget_nil (d : α) (k : Nat) : mget ([] : Map α) d k = d := rfl

theorem mget_append_of_absent (m n : Map α) (d : α) (k : Nat) (h : ∀ c ∈ m, c.1 ≠ k) :
    mget (m ++ n) d k = mget n d k := by
  induction m with
  | nil => rfl
  | cons c r ih =>
    obtain ⟨i, v⟩ := c
    have hi : i ≠ k := h (i, v) (by simp)
    simp only [List.cons_append, mget, hi, if_false]
    exact ih (fun c hc => h c (by simp [hc]))

theorem mget_absent (m : Map α) (d : α) (k : Nat) (h : ∀ c ∈ m, c.1 ≠ k) : mget m d k = d := by
  have := mget_append_of_absent m [] d k h
  rwa [List.append_nil] at this

theorem mget_append_absent (m n : Map α) (d : α) (k : Nat) (h : ∀ c ∈ n, c.1 ≠ k) :
    mget (m ++ n) d k = mget m d k := by
  induction m with
  | nil => exact mget_absent n d k h
  | cons c r ih =>
    obtain ⟨i, v⟩ := c
    simp only [List.cons_append, mget, ih]

theorem mget_filter (m : Map α) (d : α) (k : Nat) (q : Nat → Bool) :
    mget (m.filter (fun c => q c.1)) d k = if q k then mget m d k else d := by
  induction m with
  | nil => simp [mget]
  | cons c r ih =>
    obtain ⟨i, v⟩ := c
    by_cases hq : q i
    · rw [List.filter_cons_of_pos (by simpa using hq)]
      simp only [mget, ih]
      by_cases hi : i = k
      · subst hi; simp [hq]
      · simp [hi]
    · rw [List.filter_cons_of_neg (by simpa using hq), ih]
      simp only [mget]
      by_cases hi : i = k
      · subst hi; simp [hq]
      · simp [hi]

theorem mget_mbelow (m : Map α) (d : α) (j k : Nat) : mget (mbelow m k) d j = if j < k then mget m d j else d := by
  have := mget_filter m d j (fun i => decide (i < k))
  simpa [mbelow] using this

theorem mget_mfrom (m : Map α) (d : α) (j k : Nat) : mget (mfrom m k) d j = if k ≤ j then mget m d j else d := by
  have := mget_filter m d j (fun i => decide (k ≤ i))
  simpa [mfrom] using this

theorem mem_mbelow {m : Map α} {k : Nat} {c : Nat × α} : c ∈ mbelow m k ↔ c ∈ m ∧ c.1 < k := by simp [mbelow]

theorem mem_mfrom {m : Map α} {k : Nat} {c : Nat × α} : c ∈ mfrom m k ↔ c ∈ m ∧ k ≤ c.1 := by simp [mfrom]

/-! ### One entry written -/

/-- A table read where it was written gives what was written. -/
@[simp] theorem mget_mset_same [DecidableEq α] (m : Map α) (d : α) (k : Nat) (v : α) : mget (mset m d k v) d k = v := by
  unfold mset
  rw [List.append_assoc, mget_append_of_absent _ _ _ _ (fun c hc => by have := (mem_mbelow.1 hc).2; omega)]
  rw [mget_append_absent _ _ _ _ (fun c hc => by have := (mem_mfrom.1 hc).2; omega)]
  by_cases h : v = d <;> simp [h, mget]

/-- A write leaves every other entry alone. -/
theorem mget_mset_ne [DecidableEq α] (m : Map α) (d : α) (k j : Nat) (v : α) (h : j ≠ k) :
    mget (mset m d k v) d j = mget m d j := by
  unfold mset
  have hmid : ∀ c ∈ (if v = d then ([] : Map α) else [(k, v)]), c.1 ≠ j := by
    intro c hc; split at hc <;> simp at hc; subst hc; exact fun e => h e.symm
  by_cases hj : j < k
  · rw [List.append_assoc, mget_append_absent _ _ _ _, mget_mbelow]
    · simp [hj]
    · intro c hc
      rcases List.mem_append.1 hc with hc | hc
      · exact hmid c hc
      · have := (mem_mfrom.1 hc).2; omega
  · rw [mget_append_of_absent _ _ _ _, mget_mfrom]
    · simp [show k + 1 ≤ j by omega]
    · intro c hc
      rcases List.mem_append.1 hc with hc | hc
      · have := (mem_mbelow.1 hc).2; omega
      · exact hmid c hc

/-- Both cases of a read after a write. -/
theorem mget_mset [DecidableEq α] (m : Map α) (d : α) (k j : Nat) (v : α) :
    mget (mset m d k v) d j = if j = k then v else mget m d j := by
  by_cases h : j = k
  · subst h; simp
  · simp [h, mget_mset_ne _ _ _ _ _ h]

/-! ### A range written -/

theorem mget_map_shift (m : Map α) (d : α) (lo k : Nat) (h : lo ≤ k) :
    mget (m.map (fun c => (lo + c.1, c.2))) d k = mget m d (k - lo) := by
  induction m with
  | nil => rfl
  | cons c r ih =>
    obtain ⟨i, v⟩ := c
    simp only [List.map_cons, mget, ih]
    by_cases e : lo + i = k
    · subst e; simp
    · simp [e, show ¬ i = k - lo by omega]

/-- What a replaced range reads as. -/
theorem mget_mreplace (m : Map α) (d : α) (lo len k : Nat) (cs : Map α) :
    mget (mreplace m lo len cs) d k = if lo ≤ k ∧ k < lo + len then mget cs d (k - lo) else mget m d k := by
  unfold mreplace
  rw [List.append_assoc]
  have hmid : ∀ c ∈ (cs.filter (fun c => decide (c.1 < len))).map (fun c => (lo + c.1, c.2)), lo ≤ c.1 ∧ c.1 < lo + len := by
    intro c hc
    obtain ⟨e, he, rfl⟩ := List.mem_map.1 hc
    have := (List.mem_filter.1 he).2
    simp at this ⊢; omega
  by_cases h1 : k < lo
  · rw [mget_append_absent, mget_mbelow]
    · simp [h1, show ¬ lo ≤ k by omega]
    · intro c hc
      rcases List.mem_append.1 hc with hc | hc
      · have := hmid c hc; omega
      · have := (mem_mfrom.1 hc).2; omega
  · rw [mget_append_of_absent _ _ _ _ (fun c hc => by have := (mem_mbelow.1 hc).2; omega)]
    by_cases h2 : k < lo + len
    · rw [mget_append_absent _ _ _ _ (fun c hc => by have := (mem_mfrom.1 hc).2; omega), mget_map_shift _ _ _ _ (by omega)]
      have := mget_filter cs d (k - lo) (fun i => decide (i < len))
      rw [this]
      simp [show k - lo < len by omega, show lo ≤ k by omega, h2]
    · rw [mget_append_of_absent _ _ _ _ (fun c hc => by have := hmid c hc; omega), mget_mfrom]
      simp [show lo + len ≤ k by omega, h2]

theorem mget_mofList [DecidableEq α] (d : α) (l : List α) (i k : Nat) :
    mget (mofList d i l) d k = if i ≤ k then (l[k - i]?).getD d else d := by
  induction l generalizing i with
  | nil => simp [mofList, mget]
  | cons v r ih =>
    unfold mofList
    by_cases hv : v = d
    · simp only [hv, if_true, ih]
      by_cases h : i + 1 ≤ k
      · simp [h, show i ≤ k by omega, show k - i = (k - (i + 1)) + 1 by omega]
      · by_cases e : k = i
        · subst e; simp
        · simp [h, show ¬ i ≤ k by omega]
    · simp only [hv, if_false, mget, ih]
      by_cases e : i = k
      · subst e; simp
      · simp only [e, if_false]
        by_cases h : i + 1 ≤ k
        · simp [h, show i ≤ k by omega, show k - i = (k - (i + 1)) + 1 by omega]
        · simp [h, show ¬ i ≤ k by omega]

theorem mget_mslice (m : Map α) (d : α) (lo len k : Nat) :
    mget (mslice m lo len) d k = if k < len then mget m d (lo + k) else d := by
  unfold mslice
  induction m with
  | nil => simp [mget]
  | cons c r ih =>
    obtain ⟨i, v⟩ := c
    by_cases h : lo ≤ i ∧ i < lo + len
    · rw [List.filter_cons_of_pos (by simpa using h)]
      simp only [List.map_cons, mget, ih]
      by_cases e : i - lo = k
      · simp [show k < len by omega, show i = lo + k by omega]
      · simp [e, show ¬ i = lo + k by omega]
    · rw [List.filter_cons_of_neg (by simpa using h), ih]
      by_cases hk : k < len
      · simp only [hk, if_true, mget, show ¬ i = lo + k by omega, if_false]
      · simp [hk]

/-! ### Canonical form -/

theorem mwfFrom_weaken [DecidableEq α] (d : α) (m : Map α) (a b : Nat) (hab : a ≤ b) (h : mwfFrom d b m = true) :
    mwfFrom d a m = true := by
  cases m with
  | nil => rfl
  | cons c r =>
    obtain ⟨i, v⟩ := c
    simp [mwfFrom] at h ⊢
    exact ⟨⟨by omega, h.1.2⟩, h.2⟩

/-- Two canonical tables, the first below `k` and the second from `k`, join to a canonical table. -/
theorem mwfFrom_append [DecidableEq α] (d : α) (m n : Map α) (lo k : Nat) (h : mwfFrom d lo m = true)
    (hm : ∀ c ∈ m, c.1 < k) (hn : mwfFrom d k n = true) (hlo : lo ≤ k) : mwfFrom d lo (m ++ n) = true := by
  induction m generalizing lo with
  | nil => exact mwfFrom_weaken d n lo k hlo hn
  | cons c r ih =>
    obtain ⟨i, v⟩ := c
    have hi : i < k := hm (i, v) (by simp)
    simp only [mwfFrom, Bool.and_eq_true, List.cons_append] at h ⊢
    exact ⟨h.1, ih (i + 1) h.2 (fun c hc => hm c (by simp [hc])) (by omega)⟩

theorem mwfFrom_filter [DecidableEq α] (d : α) (m : Map α) (lo : Nat) (q : Nat × α → Bool) (h : mwfFrom d lo m = true) :
    mwfFrom d lo (m.filter q) = true := by
  induction m generalizing lo with
  | nil => rfl
  | cons c r ih =>
    obtain ⟨i, v⟩ := c
    simp only [mwfFrom, Bool.and_eq_true] at h
    by_cases hq : q (i, v)
    · rw [List.filter_cons_of_pos hq]
      simp only [mwfFrom, Bool.and_eq_true]
      exact ⟨h.1, ih (i + 1) h.2⟩
    · rw [List.filter_cons_of_neg hq]
      have hlo : lo ≤ i + 1 := by have := h.1.1; simp at this; omega
      exact mwfFrom_weaken d _ lo (i + 1) hlo (ih (i + 1) h.2)

theorem mwfFrom_mfrom [DecidableEq α] (d : α) (m : Map α) (lo k : Nat) (h : mwfFrom d lo m = true) :
    mwfFrom d k (mfrom m k) = true := by
  induction m generalizing lo with
  | nil => rfl
  | cons c r ih =>
    obtain ⟨i, v⟩ := c
    simp only [mwfFrom, Bool.and_eq_true] at h
    unfold mfrom
    by_cases hk : k ≤ i
    · rw [List.filter_cons_of_pos (by simpa using hk)]
      simp only [mwfFrom, Bool.and_eq_true]
      exact ⟨⟨by simpa using hk, h.1.2⟩, mwfFrom_filter d r (i + 1) _ h.2⟩
    · rw [List.filter_cons_of_neg (by simpa using hk)]
      exact ih (i + 1) h.2

theorem mwf_mbelow [DecidableEq α] (d : α) (m : Map α) (k : Nat) (h : mwf d m = true) : mwfFrom d 0 (mbelow m k) = true :=
  mwfFrom_filter d m 0 _ h

/-- A write keeps the canonical form. -/
theorem mwf_mset [DecidableEq α] (m : Map α) (d : α) (k : Nat) (v : α) (h : mwf d m = true) : mwf d (mset m d k v) = true := by
  unfold mwf mset
  rw [List.append_assoc]
  refine mwfFrom_append d _ _ 0 k (mwf_mbelow d m k h) (fun c hc => (mem_mbelow.1 hc).2) ?_ (by omega)
  by_cases hv : v = d
  · simpa [hv] using mwfFrom_weaken d _ k (k + 1) (by omega) (mwfFrom_mfrom d m 0 (k + 1) h)
  · simp [hv, mwfFrom, mwfFrom_mfrom d m 0 (k + 1) h]

theorem mwfFrom_map_shift [DecidableEq α] (d : α) (m : Map α) (lo a : Nat) (h : mwfFrom d a m = true) :
    mwfFrom d (lo + a) (m.map (fun c => (lo + c.1, c.2))) = true := by
  induction m generalizing a with
  | nil => rfl
  | cons c r ih =>
    obtain ⟨i, v⟩ := c
    simp only [mwfFrom, Bool.and_eq_true, List.map_cons] at h ⊢
    refine ⟨⟨by have := h.1.1; simp at this ⊢; omega, h.1.2⟩, ?_⟩
    have := ih (i + 1) h.2
    simpa [Nat.add_assoc] using this

/-- Replacing a range by a canonical table keeps the canonical form. -/
theorem mwf_mreplace [DecidableEq α] (m : Map α) (d : α) (lo len : Nat) (cs : Map α) (h : mwf d m = true)
    (hc : mwf d cs = true) : mwf d (mreplace m lo len cs) = true := by
  unfold mwf mreplace
  rw [List.append_assoc]
  refine mwfFrom_append d _ _ 0 lo (mwf_mbelow d m lo h) (fun c hc => (mem_mbelow.1 hc).2) ?_ (by omega)
  refine mwfFrom_append d _ _ lo (lo + len) ?_ ?_ (mwfFrom_mfrom d m 0 (lo + len) h) (by omega)
  · exact mwfFrom_map_shift d _ lo 0 (mwfFrom_filter d cs 0 _ hc)
  · intro c hc
    obtain ⟨e, he, rfl⟩ := List.mem_map.1 hc
    have := (List.mem_filter.1 he).2
    simp at this ⊢; omega

theorem mwfFrom_mofList [DecidableEq α] (d : α) (l : List α) (i : Nat) : mwfFrom d i (mofList d i l) = true := by
  induction l generalizing i with
  | nil => rfl
  | cons v r ih =>
    unfold mofList
    by_cases hv : v = d
    · simpa [hv] using mwfFrom_weaken d _ i (i + 1) (by omega) (ih (i + 1))
    · simp [hv, mwfFrom, ih (i + 1)]

theorem mwf_mslice [DecidableEq α] (d : α) (m : Map α) (lo len : Nat) (h : mwf d m = true) : mwf d (mslice m lo len) = true := by
  suffices hs : ∀ (m : Map α) (a : Nat), mwfFrom d a m = true →
      mwfFrom d (a - lo) ((m.filter (fun c => decide (lo ≤ c.1) && decide (c.1 < lo + len))).map (fun c => (c.1 - lo, c.2))) = true from
    mwfFrom_weaken d _ 0 (0 - lo) (by omega) (hs m 0 h)
  intro m
  induction m with
  | nil => intro a _; rfl
  | cons c r ih =>
    intro a ha
    obtain ⟨i, v⟩ := c
    simp only [mwfFrom, Bool.and_eq_true] at ha
    have hai : a ≤ i := by simpa using ha.1.1
    by_cases hq : lo ≤ i ∧ i < lo + len
    · rw [List.filter_cons_of_pos (by simpa using hq)]
      simp only [List.map_cons, mwfFrom, Bool.and_eq_true]
      refine ⟨⟨by simp; omega, ha.1.2⟩, ?_⟩
      have := ih (i + 1) ha.2
      rwa [show i + 1 - lo = i - lo + 1 by omega] at this
    · rw [List.filter_cons_of_neg (by simpa using hq)]
      exact mwfFrom_weaken d _ (a - lo) (i + 1 - lo) (by omega) (ih (i + 1) ha.2)

/-! ### Byte memories -/

/-- A byte inside the bytes written reads as written. -/
theorem rdByte_wrBytes_in (m : List Host.Cell) (a k : Nat) (bs : Bytes) (h : k < bs.length) :
    rdByte (wrBytes m a bs) (a + k) = bs[k] := by
  unfold rdByte wrBytes
  rw [mget_mreplace, mget_mofList]
  simp [h]

/-- A byte outside the bytes written reads as before. -/
theorem rdByte_wrBytes_out (m : List Host.Cell) (a x : Nat) (bs : Bytes) (h : x < a ∨ a + bs.length ≤ x) :
    rdByte (wrBytes m a bs) x = rdByte m x := by
  unfold rdByte wrBytes
  rw [mget_mreplace]
  simp [show ¬ (a ≤ x ∧ x < a + bs.length) by omega]

theorem rdBytes_length (m : List Host.Cell) (a n : Nat) : (rdBytes m a n).length = n := by
  induction n generalizing a with
  | zero => rfl
  | succ n ih => simp [rdBytes, ih]

theorem rdBytes_getElem (m : List Host.Cell) (a n k : Nat) (h : k < (rdBytes m a n).length) :
    (rdBytes m a n)[k] = rdByte m (a + k) := by
  induction n generalizing a k with
  | zero => simp [rdBytes] at h
  | succ n ih =>
    cases k with
    | zero => simp [rdBytes]
    | succ k =>
      simp only [rdBytes, List.getElem_cons_succ]
      rw [ih]
      congr 1; omega

/-- Bytes read where they were written are what was written. -/
theorem rdBytes_wrBytes_same (m : List Host.Cell) (a : Nat) (bs : Bytes) :
    rdBytes (wrBytes m a bs) a bs.length = bs := by
  apply List.ext_getElem (rdBytes_length ..)
  intro k h1 h2
  rw [rdBytes_getElem, rdByte_wrBytes_in _ _ _ _ h2]

/-- Bytes read apart from the bytes written are unchanged. -/
theorem rdBytes_wrBytes_out (m : List Host.Cell) (a x n : Nat) (bs : Bytes) (h : x + n ≤ a ∨ a + bs.length ≤ x) :
    rdBytes (wrBytes m a bs) x n = rdBytes m x n := by
  apply List.ext_getElem (by simp [rdBytes_length])
  intro k h1 h2
  rw [rdBytes_length] at h1
  rw [rdBytes_getElem, rdBytes_getElem, rdByte_wrBytes_out _ _ _ _ (by omega)]

/-- A copied byte reads as its source, and a byte outside the copy as before. -/
theorem rdByte_cpBytes (m m' : List Host.Cell) (src dst len x : Nat) :
    rdByte (cpBytes m m' src dst len) x = if dst ≤ x ∧ x < dst + len then rdByte m (src + (x - dst)) else rdByte m' x := by
  unfold rdByte cpBytes
  rw [mget_mreplace, mget_mslice]
  by_cases h : dst ≤ x ∧ x < dst + len
  · simp [h, show x - dst < len by omega]
  · simp [h]

/-- Writing bytes keeps the canonical form. -/
theorem wf_wrBytes (m : List Host.Cell) (a : Nat) (bs : Bytes) (h : Memory.wf m = true) : Memory.wf (wrBytes m a bs) = true :=
  mwf_mreplace m 0 a bs.length _ h (mwfFrom_mofList 0 bs 0)

/-- Copying bytes keeps the canonical form. -/
theorem wf_cpBytes (m m' : List Host.Cell) (src dst len : Nat) (h : Memory.wf m = true) (h' : Memory.wf m' = true) :
    Memory.wf (cpBytes m m' src dst len) = true :=
  mwf_mreplace m' 0 dst len _ h' (mwf_mslice 0 m src len h)

/-- Writing one byte keeps the canonical form. -/
theorem wf_mset (m : List Host.Cell) (a : Nat) (v : Byte) (h : Memory.wf m = true) : Memory.wf (mset m 0 a v) = true :=
  mwf_mset m 0 a v h

end Sys2Proof.Machine
end

