-- ==== Sys2Proof/Laws/State.lean ====
section
/-! SUPPORT. One lemma for each field and each update of the state, and for each reader and each update: no later proof
unfolds a record update. -/

namespace Sys2Proof.Machine

variable (s : State)

/-! ### setPart -/

@[simp] theorem setPart_pmode (p : Nat) (v : Part) : (setPart s p v).pmode = s.pmode := rfl
@[simp] theorem setPart_ticks (p : Nat) (v : Part) : (setPart s p v).ticks = s.ticks := rfl
@[simp] theorem setPart_pulses (p : Nat) (v : Part) : (setPart s p v).pulses = s.pulses := rfl
@[simp] theorem setPart_pins (p : Nat) (v : Part) : (setPart s p v).pins = s.pins := rfl
@[simp] theorem setPart_fuses (p : Nat) (v : Part) : (setPart s p v).fuses = s.fuses := rfl
@[simp] theorem setPart_regs (p : Nat) (v : Part) : (setPart s p v).regs = s.regs := rfl
@[simp] theorem setPart_cores (p : Nat) (v : Part) : (setPart s p v).cores = s.cores := rfl
@[simp] theorem setPart_units (p : Nat) (v : Part) : (setPart s p v).units = s.units := rfl
@[simp] theorem setPart_coreMap (p : Nat) (v : Part) : (setPart s p v).coreMap = s.coreMap := rfl
@[simp] theorem setPart_retiredCores (p : Nat) (v : Part) : (setPart s p v).retiredCores = s.retiredCores := rfl
@[simp] theorem setPart_frozenCores (p : Nat) (v : Part) : (setPart s p v).frozenCores = s.frozenCores := rfl
@[simp] theorem setPart_launches (p : Nat) (v : Part) : (setPart s p v).launches = s.launches := rfl
@[simp] theorem setPart_nextLaunch (p : Nat) (v : Part) : (setPart s p v).nextLaunch = s.nextLaunch := rfl
@[simp] theorem setPart_ms (p : Nat) (v : Part) : (setPart s p v).ms = s.ms := rfl
@[simp] theorem setPart_hps (p : Nat) (v : Part) : (setPart s p v).hps = s.hps := rfl
@[simp] theorem setPart_ports (p : Nat) (v : Part) : (setPart s p v).ports = s.ports := rfl
@[simp] theorem setPart_faults (p : Nat) (v : Part) : (setPart s p v).faults = s.faults := rfl
@[simp] theorem setPart_power (p : Nat) (v : Part) : (setPart s p v).power = s.power := rfl
@[simp] theorem setPart_mgmt (p : Nat) (v : Part) : (setPart s p v).mgmt = s.mgmt := rfl
@[simp] theorem setPart_evr (p : Nat) (v : Part) : (setPart s p v).evr = s.evr := rfl
@[simp] theorem setPart_hostMem (p : Nat) (v : Part) : (setPart s p v).hostMem = s.hostMem := rfl
@[simp] theorem setPart_hostFail (p : Nat) (v : Part) : (setPart s p v).hostFail = s.hostFail := rfl
@[simp] theorem setPart_errors (p : Nat) (v : Part) : (setPart s p v).errors = s.errors := rfl
@[simp] theorem setPart_out (p : Nat) (v : Part) : (setPart s p v).out = s.out := rfl
@[simp] theorem setPart_raised (p : Nat) (v : Part) : (setPart s p v).raised = s.raised := rfl
@[simp] theorem setPart_freeCtr (p : Nat) (v : Part) : (setPart s p v).freeCtr = s.freeCtr := rfl
@[simp] theorem setPart_pending (p : Nat) (v : Part) : (setPart s p v).pending = s.pending := rfl
@[simp] theorem setPart_hport (p : Nat) (v : Part) (h' : Nat) : hport (setPart s p v) h' = hport s h' := rfl
@[simp] theorem setPart_queue (p : Nat) (v : Part) (h' q' : Nat) : queue (setPart s p v) h' q' = queue s h' q' := rfl
@[simp] theorem setPart_core (p : Nat) (v : Part) (c' : Nat) : core (setPart s p v) c' = core s c' := rfl
@[simp] theorem setPart_unitsOf (p : Nat) (v : Part) (c' : Nat) : unitsOf (setPart s p v) c' = unitsOf s c' := rfl
@[simp] theorem setPart_port (p : Nat) (v : Part) (j' : Nat) : port (setPart s p v) j' = port s j' := rfl
@[simp] theorem setPart_stack (p : Nat) (v : Part) (k' : Nat) : stack (setPart s p v) k' = stack s k' := rfl
@[simp] theorem setPart_channel (p : Nat) (v : Part) (i' : Nat) : channel (setPart s p v) i' = channel s i' := rfl

/-! ### updPart -/

@[simp] theorem updPart_pmode (p : Nat) (f : Part → Part) : (updPart s p f).pmode = s.pmode := rfl
@[simp] theorem updPart_ticks (p : Nat) (f : Part → Part) : (updPart s p f).ticks = s.ticks := rfl
@[simp] theorem updPart_pulses (p : Nat) (f : Part → Part) : (updPart s p f).pulses = s.pulses := rfl
@[simp] theorem updPart_pins (p : Nat) (f : Part → Part) : (updPart s p f).pins = s.pins := rfl
@[simp] theorem updPart_fuses (p : Nat) (f : Part → Part) : (updPart s p f).fuses = s.fuses := rfl
@[simp] theorem updPart_regs (p : Nat) (f : Part → Part) : (updPart s p f).regs = s.regs := rfl
@[simp] theorem updPart_cores (p : Nat) (f : Part → Part) : (updPart s p f).cores = s.cores := rfl
@[simp] theorem updPart_units (p : Nat) (f : Part → Part) : (updPart s p f).units = s.units := rfl
@[simp] theorem updPart_coreMap (p : Nat) (f : Part → Part) : (updPart s p f).coreMap = s.coreMap := rfl
@[simp] theorem updPart_retiredCores (p : Nat) (f : Part → Part) : (updPart s p f).retiredCores = s.retiredCores := rfl
@[simp] theorem updPart_frozenCores (p : Nat) (f : Part → Part) : (updPart s p f).frozenCores = s.frozenCores := rfl
@[simp] theorem updPart_launches (p : Nat) (f : Part → Part) : (updPart s p f).launches = s.launches := rfl
@[simp] theorem updPart_nextLaunch (p : Nat) (f : Part → Part) : (updPart s p f).nextLaunch = s.nextLaunch := rfl
@[simp] theorem updPart_ms (p : Nat) (f : Part → Part) : (updPart s p f).ms = s.ms := rfl
@[simp] theorem updPart_hps (p : Nat) (f : Part → Part) : (updPart s p f).hps = s.hps := rfl
@[simp] theorem updPart_ports (p : Nat) (f : Part → Part) : (updPart s p f).ports = s.ports := rfl
@[simp] theorem updPart_faults (p : Nat) (f : Part → Part) : (updPart s p f).faults = s.faults := rfl
@[simp] theorem updPart_power (p : Nat) (f : Part → Part) : (updPart s p f).power = s.power := rfl
@[simp] theorem updPart_mgmt (p : Nat) (f : Part → Part) : (updPart s p f).mgmt = s.mgmt := rfl
@[simp] theorem updPart_evr (p : Nat) (f : Part → Part) : (updPart s p f).evr = s.evr := rfl
@[simp] theorem updPart_hostMem (p : Nat) (f : Part → Part) : (updPart s p f).hostMem = s.hostMem := rfl
@[simp] theorem updPart_hostFail (p : Nat) (f : Part → Part) : (updPart s p f).hostFail = s.hostFail := rfl
@[simp] theorem updPart_errors (p : Nat) (f : Part → Part) : (updPart s p f).errors = s.errors := rfl
@[simp] theorem updPart_out (p : Nat) (f : Part → Part) : (updPart s p f).out = s.out := rfl
@[simp] theorem updPart_raised (p : Nat) (f : Part → Part) : (updPart s p f).raised = s.raised := rfl
@[simp] theorem updPart_freeCtr (p : Nat) (f : Part → Part) : (updPart s p f).freeCtr = s.freeCtr := rfl
@[simp] theorem updPart_pending (p : Nat) (f : Part → Part) : (updPart s p f).pending = s.pending := rfl
@[simp] theorem updPart_hport (p : Nat) (f : Part → Part) (h' : Nat) : hport (updPart s p f) h' = hport s h' := rfl
@[simp] theorem updPart_queue (p : Nat) (f : Part → Part) (h' q' : Nat) : queue (updPart s p f) h' q' = queue s h' q' := rfl
@[simp] theorem updPart_core (p : Nat) (f : Part → Part) (c' : Nat) : core (updPart s p f) c' = core s c' := rfl
@[simp] theorem updPart_unitsOf (p : Nat) (f : Part → Part) (c' : Nat) : unitsOf (updPart s p f) c' = unitsOf s c' := rfl
@[simp] theorem updPart_port (p : Nat) (f : Part → Part) (j' : Nat) : port (updPart s p f) j' = port s j' := rfl
@[simp] theorem updPart_stack (p : Nat) (f : Part → Part) (k' : Nat) : stack (updPart s p f) k' = stack s k' := rfl
@[simp] theorem updPart_channel (p : Nat) (f : Part → Part) (i' : Nat) : channel (updPart s p f) i' = channel s i' := rfl

/-! ### updProof -/

@[simp] theorem updProof_pmode (p : Nat) (f : Proof → Proof) : (updProof s p f).pmode = s.pmode := rfl
@[simp] theorem updProof_ticks (p : Nat) (f : Proof → Proof) : (updProof s p f).ticks = s.ticks := rfl
@[simp] theorem updProof_pulses (p : Nat) (f : Proof → Proof) : (updProof s p f).pulses = s.pulses := rfl
@[simp] theorem updProof_pins (p : Nat) (f : Proof → Proof) : (updProof s p f).pins = s.pins := rfl
@[simp] theorem updProof_fuses (p : Nat) (f : Proof → Proof) : (updProof s p f).fuses = s.fuses := rfl
@[simp] theorem updProof_regs (p : Nat) (f : Proof → Proof) : (updProof s p f).regs = s.regs := rfl
@[simp] theorem updProof_cores (p : Nat) (f : Proof → Proof) : (updProof s p f).cores = s.cores := rfl
@[simp] theorem updProof_units (p : Nat) (f : Proof → Proof) : (updProof s p f).units = s.units := rfl
@[simp] theorem updProof_coreMap (p : Nat) (f : Proof → Proof) : (updProof s p f).coreMap = s.coreMap := rfl
@[simp] theorem updProof_retiredCores (p : Nat) (f : Proof → Proof) : (updProof s p f).retiredCores = s.retiredCores := rfl
@[simp] theorem updProof_frozenCores (p : Nat) (f : Proof → Proof) : (updProof s p f).frozenCores = s.frozenCores := rfl
@[simp] theorem updProof_launches (p : Nat) (f : Proof → Proof) : (updProof s p f).launches = s.launches := rfl
@[simp] theorem updProof_nextLaunch (p : Nat) (f : Proof → Proof) : (updProof s p f).nextLaunch = s.nextLaunch := rfl
@[simp] theorem updProof_ms (p : Nat) (f : Proof → Proof) : (updProof s p f).ms = s.ms := rfl
@[simp] theorem updProof_hps (p : Nat) (f : Proof → Proof) : (updProof s p f).hps = s.hps := rfl
@[simp] theorem updProof_ports (p : Nat) (f : Proof → Proof) : (updProof s p f).ports = s.ports := rfl
@[simp] theorem updProof_faults (p : Nat) (f : Proof → Proof) : (updProof s p f).faults = s.faults := rfl
@[simp] theorem updProof_power (p : Nat) (f : Proof → Proof) : (updProof s p f).power = s.power := rfl
@[simp] theorem updProof_mgmt (p : Nat) (f : Proof → Proof) : (updProof s p f).mgmt = s.mgmt := rfl
@[simp] theorem updProof_evr (p : Nat) (f : Proof → Proof) : (updProof s p f).evr = s.evr := rfl
@[simp] theorem updProof_hostMem (p : Nat) (f : Proof → Proof) : (updProof s p f).hostMem = s.hostMem := rfl
@[simp] theorem updProof_hostFail (p : Nat) (f : Proof → Proof) : (updProof s p f).hostFail = s.hostFail := rfl
@[simp] theorem updProof_errors (p : Nat) (f : Proof → Proof) : (updProof s p f).errors = s.errors := rfl
@[simp] theorem updProof_out (p : Nat) (f : Proof → Proof) : (updProof s p f).out = s.out := rfl
@[simp] theorem updProof_raised (p : Nat) (f : Proof → Proof) : (updProof s p f).raised = s.raised := rfl
@[simp] theorem updProof_freeCtr (p : Nat) (f : Proof → Proof) : (updProof s p f).freeCtr = s.freeCtr := rfl
@[simp] theorem updProof_pending (p : Nat) (f : Proof → Proof) : (updProof s p f).pending = s.pending := rfl
@[simp] theorem updProof_hport (p : Nat) (f : Proof → Proof) (h' : Nat) : hport (updProof s p f) h' = hport s h' := rfl
@[simp] theorem updProof_queue (p : Nat) (f : Proof → Proof) (h' q' : Nat) : queue (updProof s p f) h' q' = queue s h' q' := rfl
@[simp] theorem updProof_core (p : Nat) (f : Proof → Proof) (c' : Nat) : core (updProof s p f) c' = core s c' := rfl
@[simp] theorem updProof_unitsOf (p : Nat) (f : Proof → Proof) (c' : Nat) : unitsOf (updProof s p f) c' = unitsOf s c' := rfl
@[simp] theorem updProof_port (p : Nat) (f : Proof → Proof) (j' : Nat) : port (updProof s p f) j' = port s j' := rfl
@[simp] theorem updProof_stack (p : Nat) (f : Proof → Proof) (k' : Nat) : stack (updProof s p f) k' = stack s k' := rfl
@[simp] theorem updProof_channel (p : Nat) (f : Proof → Proof) (i' : Nat) : channel (updProof s p f) i' = channel s i' := rfl

/-! ### updXport -/

@[simp] theorem updXport_pmode (p : Nat) (f : Xport → Xport) : (updXport s p f).pmode = s.pmode := rfl
@[simp] theorem updXport_ticks (p : Nat) (f : Xport → Xport) : (updXport s p f).ticks = s.ticks := rfl
@[simp] theorem updXport_pulses (p : Nat) (f : Xport → Xport) : (updXport s p f).pulses = s.pulses := rfl
@[simp] theorem updXport_pins (p : Nat) (f : Xport → Xport) : (updXport s p f).pins = s.pins := rfl
@[simp] theorem updXport_fuses (p : Nat) (f : Xport → Xport) : (updXport s p f).fuses = s.fuses := rfl
@[simp] theorem updXport_regs (p : Nat) (f : Xport → Xport) : (updXport s p f).regs = s.regs := rfl
@[simp] theorem updXport_cores (p : Nat) (f : Xport → Xport) : (updXport s p f).cores = s.cores := rfl
@[simp] theorem updXport_units (p : Nat) (f : Xport → Xport) : (updXport s p f).units = s.units := rfl
@[simp] theorem updXport_coreMap (p : Nat) (f : Xport → Xport) : (updXport s p f).coreMap = s.coreMap := rfl
@[simp] theorem updXport_retiredCores (p : Nat) (f : Xport → Xport) : (updXport s p f).retiredCores = s.retiredCores := rfl
@[simp] theorem updXport_frozenCores (p : Nat) (f : Xport → Xport) : (updXport s p f).frozenCores = s.frozenCores := rfl
@[simp] theorem updXport_launches (p : Nat) (f : Xport → Xport) : (updXport s p f).launches = s.launches := rfl
@[simp] theorem updXport_nextLaunch (p : Nat) (f : Xport → Xport) : (updXport s p f).nextLaunch = s.nextLaunch := rfl
@[simp] theorem updXport_ms (p : Nat) (f : Xport → Xport) : (updXport s p f).ms = s.ms := rfl
@[simp] theorem updXport_hps (p : Nat) (f : Xport → Xport) : (updXport s p f).hps = s.hps := rfl
@[simp] theorem updXport_ports (p : Nat) (f : Xport → Xport) : (updXport s p f).ports = s.ports := rfl
@[simp] theorem updXport_faults (p : Nat) (f : Xport → Xport) : (updXport s p f).faults = s.faults := rfl
@[simp] theorem updXport_power (p : Nat) (f : Xport → Xport) : (updXport s p f).power = s.power := rfl
@[simp] theorem updXport_mgmt (p : Nat) (f : Xport → Xport) : (updXport s p f).mgmt = s.mgmt := rfl
@[simp] theorem updXport_evr (p : Nat) (f : Xport → Xport) : (updXport s p f).evr = s.evr := rfl
@[simp] theorem updXport_hostMem (p : Nat) (f : Xport → Xport) : (updXport s p f).hostMem = s.hostMem := rfl
@[simp] theorem updXport_hostFail (p : Nat) (f : Xport → Xport) : (updXport s p f).hostFail = s.hostFail := rfl
@[simp] theorem updXport_errors (p : Nat) (f : Xport → Xport) : (updXport s p f).errors = s.errors := rfl
@[simp] theorem updXport_out (p : Nat) (f : Xport → Xport) : (updXport s p f).out = s.out := rfl
@[simp] theorem updXport_raised (p : Nat) (f : Xport → Xport) : (updXport s p f).raised = s.raised := rfl
@[simp] theorem updXport_freeCtr (p : Nat) (f : Xport → Xport) : (updXport s p f).freeCtr = s.freeCtr := rfl
@[simp] theorem updXport_pending (p : Nat) (f : Xport → Xport) : (updXport s p f).pending = s.pending := rfl
@[simp] theorem updXport_hport (p : Nat) (f : Xport → Xport) (h' : Nat) : hport (updXport s p f) h' = hport s h' := rfl
@[simp] theorem updXport_queue (p : Nat) (f : Xport → Xport) (h' q' : Nat) : queue (updXport s p f) h' q' = queue s h' q' := rfl
@[simp] theorem updXport_core (p : Nat) (f : Xport → Xport) (c' : Nat) : core (updXport s p f) c' = core s c' := rfl
@[simp] theorem updXport_unitsOf (p : Nat) (f : Xport → Xport) (c' : Nat) : unitsOf (updXport s p f) c' = unitsOf s c' := rfl
@[simp] theorem updXport_port (p : Nat) (f : Xport → Xport) (j' : Nat) : port (updXport s p f) j' = port s j' := rfl
@[simp] theorem updXport_stack (p : Nat) (f : Xport → Xport) (k' : Nat) : stack (updXport s p f) k' = stack s k' := rfl
@[simp] theorem updXport_channel (p : Nat) (f : Xport → Xport) (i' : Nat) : channel (updXport s p f) i' = channel s i' := rfl

/-! ### updMirror -/

@[simp] theorem updMirror_pmode (p : Nat) (f : Mirror → Mirror) : (updMirror s p f).pmode = s.pmode := rfl
@[simp] theorem updMirror_ticks (p : Nat) (f : Mirror → Mirror) : (updMirror s p f).ticks = s.ticks := rfl
@[simp] theorem updMirror_pulses (p : Nat) (f : Mirror → Mirror) : (updMirror s p f).pulses = s.pulses := rfl
@[simp] theorem updMirror_pins (p : Nat) (f : Mirror → Mirror) : (updMirror s p f).pins = s.pins := rfl
@[simp] theorem updMirror_fuses (p : Nat) (f : Mirror → Mirror) : (updMirror s p f).fuses = s.fuses := rfl
@[simp] theorem updMirror_regs (p : Nat) (f : Mirror → Mirror) : (updMirror s p f).regs = s.regs := rfl
@[simp] theorem updMirror_cores (p : Nat) (f : Mirror → Mirror) : (updMirror s p f).cores = s.cores := rfl
@[simp] theorem updMirror_units (p : Nat) (f : Mirror → Mirror) : (updMirror s p f).units = s.units := rfl
@[simp] theorem updMirror_coreMap (p : Nat) (f : Mirror → Mirror) : (updMirror s p f).coreMap = s.coreMap := rfl
@[simp] theorem updMirror_retiredCores (p : Nat) (f : Mirror → Mirror) : (updMirror s p f).retiredCores = s.retiredCores := rfl
@[simp] theorem updMirror_frozenCores (p : Nat) (f : Mirror → Mirror) : (updMirror s p f).frozenCores = s.frozenCores := rfl
@[simp] theorem updMirror_launches (p : Nat) (f : Mirror → Mirror) : (updMirror s p f).launches = s.launches := rfl
@[simp] theorem updMirror_nextLaunch (p : Nat) (f : Mirror → Mirror) : (updMirror s p f).nextLaunch = s.nextLaunch := rfl
@[simp] theorem updMirror_ms (p : Nat) (f : Mirror → Mirror) : (updMirror s p f).ms = s.ms := rfl
@[simp] theorem updMirror_hps (p : Nat) (f : Mirror → Mirror) : (updMirror s p f).hps = s.hps := rfl
@[simp] theorem updMirror_ports (p : Nat) (f : Mirror → Mirror) : (updMirror s p f).ports = s.ports := rfl
@[simp] theorem updMirror_faults (p : Nat) (f : Mirror → Mirror) : (updMirror s p f).faults = s.faults := rfl
@[simp] theorem updMirror_power (p : Nat) (f : Mirror → Mirror) : (updMirror s p f).power = s.power := rfl
@[simp] theorem updMirror_mgmt (p : Nat) (f : Mirror → Mirror) : (updMirror s p f).mgmt = s.mgmt := rfl
@[simp] theorem updMirror_evr (p : Nat) (f : Mirror → Mirror) : (updMirror s p f).evr = s.evr := rfl
@[simp] theorem updMirror_hostMem (p : Nat) (f : Mirror → Mirror) : (updMirror s p f).hostMem = s.hostMem := rfl
@[simp] theorem updMirror_hostFail (p : Nat) (f : Mirror → Mirror) : (updMirror s p f).hostFail = s.hostFail := rfl
@[simp] theorem updMirror_errors (p : Nat) (f : Mirror → Mirror) : (updMirror s p f).errors = s.errors := rfl
@[simp] theorem updMirror_out (p : Nat) (f : Mirror → Mirror) : (updMirror s p f).out = s.out := rfl
@[simp] theorem updMirror_raised (p : Nat) (f : Mirror → Mirror) : (updMirror s p f).raised = s.raised := rfl
@[simp] theorem updMirror_freeCtr (p : Nat) (f : Mirror → Mirror) : (updMirror s p f).freeCtr = s.freeCtr := rfl
@[simp] theorem updMirror_pending (p : Nat) (f : Mirror → Mirror) : (updMirror s p f).pending = s.pending := rfl
@[simp] theorem updMirror_hport (p : Nat) (f : Mirror → Mirror) (h' : Nat) : hport (updMirror s p f) h' = hport s h' := rfl
@[simp] theorem updMirror_queue (p : Nat) (f : Mirror → Mirror) (h' q' : Nat) : queue (updMirror s p f) h' q' = queue s h' q' := rfl
@[simp] theorem updMirror_core (p : Nat) (f : Mirror → Mirror) (c' : Nat) : core (updMirror s p f) c' = core s c' := rfl
@[simp] theorem updMirror_unitsOf (p : Nat) (f : Mirror → Mirror) (c' : Nat) : unitsOf (updMirror s p f) c' = unitsOf s c' := rfl
@[simp] theorem updMirror_port (p : Nat) (f : Mirror → Mirror) (j' : Nat) : port (updMirror s p f) j' = port s j' := rfl
@[simp] theorem updMirror_stack (p : Nat) (f : Mirror → Mirror) (k' : Nat) : stack (updMirror s p f) k' = stack s k' := rfl
@[simp] theorem updMirror_channel (p : Nat) (f : Mirror → Mirror) (i' : Nat) : channel (updMirror s p f) i' = channel s i' := rfl

/-! ### updSnap -/

@[simp] theorem updSnap_pmode (p : Nat) (f : Snap → Snap) : (updSnap s p f).pmode = s.pmode := rfl
@[simp] theorem updSnap_ticks (p : Nat) (f : Snap → Snap) : (updSnap s p f).ticks = s.ticks := rfl
@[simp] theorem updSnap_pulses (p : Nat) (f : Snap → Snap) : (updSnap s p f).pulses = s.pulses := rfl
@[simp] theorem updSnap_pins (p : Nat) (f : Snap → Snap) : (updSnap s p f).pins = s.pins := rfl
@[simp] theorem updSnap_fuses (p : Nat) (f : Snap → Snap) : (updSnap s p f).fuses = s.fuses := rfl
@[simp] theorem updSnap_regs (p : Nat) (f : Snap → Snap) : (updSnap s p f).regs = s.regs := rfl
@[simp] theorem updSnap_cores (p : Nat) (f : Snap → Snap) : (updSnap s p f).cores = s.cores := rfl
@[simp] theorem updSnap_units (p : Nat) (f : Snap → Snap) : (updSnap s p f).units = s.units := rfl
@[simp] theorem updSnap_coreMap (p : Nat) (f : Snap → Snap) : (updSnap s p f).coreMap = s.coreMap := rfl
@[simp] theorem updSnap_retiredCores (p : Nat) (f : Snap → Snap) : (updSnap s p f).retiredCores = s.retiredCores := rfl
@[simp] theorem updSnap_frozenCores (p : Nat) (f : Snap → Snap) : (updSnap s p f).frozenCores = s.frozenCores := rfl
@[simp] theorem updSnap_launches (p : Nat) (f : Snap → Snap) : (updSnap s p f).launches = s.launches := rfl
@[simp] theorem updSnap_nextLaunch (p : Nat) (f : Snap → Snap) : (updSnap s p f).nextLaunch = s.nextLaunch := rfl
@[simp] theorem updSnap_ms (p : Nat) (f : Snap → Snap) : (updSnap s p f).ms = s.ms := rfl
@[simp] theorem updSnap_hps (p : Nat) (f : Snap → Snap) : (updSnap s p f).hps = s.hps := rfl
@[simp] theorem updSnap_ports (p : Nat) (f : Snap → Snap) : (updSnap s p f).ports = s.ports := rfl
@[simp] theorem updSnap_faults (p : Nat) (f : Snap → Snap) : (updSnap s p f).faults = s.faults := rfl
@[simp] theorem updSnap_power (p : Nat) (f : Snap → Snap) : (updSnap s p f).power = s.power := rfl
@[simp] theorem updSnap_mgmt (p : Nat) (f : Snap → Snap) : (updSnap s p f).mgmt = s.mgmt := rfl
@[simp] theorem updSnap_evr (p : Nat) (f : Snap → Snap) : (updSnap s p f).evr = s.evr := rfl
@[simp] theorem updSnap_hostMem (p : Nat) (f : Snap → Snap) : (updSnap s p f).hostMem = s.hostMem := rfl
@[simp] theorem updSnap_hostFail (p : Nat) (f : Snap → Snap) : (updSnap s p f).hostFail = s.hostFail := rfl
@[simp] theorem updSnap_errors (p : Nat) (f : Snap → Snap) : (updSnap s p f).errors = s.errors := rfl
@[simp] theorem updSnap_out (p : Nat) (f : Snap → Snap) : (updSnap s p f).out = s.out := rfl
@[simp] theorem updSnap_raised (p : Nat) (f : Snap → Snap) : (updSnap s p f).raised = s.raised := rfl
@[simp] theorem updSnap_freeCtr (p : Nat) (f : Snap → Snap) : (updSnap s p f).freeCtr = s.freeCtr := rfl
@[simp] theorem updSnap_pending (p : Nat) (f : Snap → Snap) : (updSnap s p f).pending = s.pending := rfl
@[simp] theorem updSnap_hport (p : Nat) (f : Snap → Snap) (h' : Nat) : hport (updSnap s p f) h' = hport s h' := rfl
@[simp] theorem updSnap_queue (p : Nat) (f : Snap → Snap) (h' q' : Nat) : queue (updSnap s p f) h' q' = queue s h' q' := rfl
@[simp] theorem updSnap_core (p : Nat) (f : Snap → Snap) (c' : Nat) : core (updSnap s p f) c' = core s c' := rfl
@[simp] theorem updSnap_unitsOf (p : Nat) (f : Snap → Snap) (c' : Nat) : unitsOf (updSnap s p f) c' = unitsOf s c' := rfl
@[simp] theorem updSnap_port (p : Nat) (f : Snap → Snap) (j' : Nat) : port (updSnap s p f) j' = port s j' := rfl
@[simp] theorem updSnap_stack (p : Nat) (f : Snap → Snap) (k' : Nat) : stack (updSnap s p f) k' = stack s k' := rfl
@[simp] theorem updSnap_channel (p : Nat) (f : Snap → Snap) (i' : Nat) : channel (updSnap s p f) i' = channel s i' := rfl

/-! ### updHp -/

@[simp] theorem updHp_pmode (h : Nat) (f : HostPort → HostPort) : (updHp s h f).pmode = s.pmode := rfl
@[simp] theorem updHp_ticks (h : Nat) (f : HostPort → HostPort) : (updHp s h f).ticks = s.ticks := rfl
@[simp] theorem updHp_pulses (h : Nat) (f : HostPort → HostPort) : (updHp s h f).pulses = s.pulses := rfl
@[simp] theorem updHp_pins (h : Nat) (f : HostPort → HostPort) : (updHp s h f).pins = s.pins := rfl
@[simp] theorem updHp_fuses (h : Nat) (f : HostPort → HostPort) : (updHp s h f).fuses = s.fuses := rfl
@[simp] theorem updHp_regs (h : Nat) (f : HostPort → HostPort) : (updHp s h f).regs = s.regs := rfl
@[simp] theorem updHp_cores (h : Nat) (f : HostPort → HostPort) : (updHp s h f).cores = s.cores := rfl
@[simp] theorem updHp_units (h : Nat) (f : HostPort → HostPort) : (updHp s h f).units = s.units := rfl
@[simp] theorem updHp_coreMap (h : Nat) (f : HostPort → HostPort) : (updHp s h f).coreMap = s.coreMap := rfl
@[simp] theorem updHp_retiredCores (h : Nat) (f : HostPort → HostPort) : (updHp s h f).retiredCores = s.retiredCores := rfl
@[simp] theorem updHp_frozenCores (h : Nat) (f : HostPort → HostPort) : (updHp s h f).frozenCores = s.frozenCores := rfl
@[simp] theorem updHp_launches (h : Nat) (f : HostPort → HostPort) : (updHp s h f).launches = s.launches := rfl
@[simp] theorem updHp_nextLaunch (h : Nat) (f : HostPort → HostPort) : (updHp s h f).nextLaunch = s.nextLaunch := rfl
@[simp] theorem updHp_ms (h : Nat) (f : HostPort → HostPort) : (updHp s h f).ms = s.ms := rfl
@[simp] theorem updHp_parts (h : Nat) (f : HostPort → HostPort) : (updHp s h f).parts = s.parts := rfl
@[simp] theorem updHp_ports (h : Nat) (f : HostPort → HostPort) : (updHp s h f).ports = s.ports := rfl
@[simp] theorem updHp_faults (h : Nat) (f : HostPort → HostPort) : (updHp s h f).faults = s.faults := rfl
@[simp] theorem updHp_power (h : Nat) (f : HostPort → HostPort) : (updHp s h f).power = s.power := rfl
@[simp] theorem updHp_mgmt (h : Nat) (f : HostPort → HostPort) : (updHp s h f).mgmt = s.mgmt := rfl
@[simp] theorem updHp_evr (h : Nat) (f : HostPort → HostPort) : (updHp s h f).evr = s.evr := rfl
@[simp] theorem updHp_hostMem (h : Nat) (f : HostPort → HostPort) : (updHp s h f).hostMem = s.hostMem := rfl
@[simp] theorem updHp_hostFail (h : Nat) (f : HostPort → HostPort) : (updHp s h f).hostFail = s.hostFail := rfl
@[simp] theorem updHp_errors (h : Nat) (f : HostPort → HostPort) : (updHp s h f).errors = s.errors := rfl
@[simp] theorem updHp_out (h : Nat) (f : HostPort → HostPort) : (updHp s h f).out = s.out := rfl
@[simp] theorem updHp_raised (h : Nat) (f : HostPort → HostPort) : (updHp s h f).raised = s.raised := rfl
@[simp] theorem updHp_freeCtr (h : Nat) (f : HostPort → HostPort) : (updHp s h f).freeCtr = s.freeCtr := rfl
@[simp] theorem updHp_pending (h : Nat) (f : HostPort → HostPort) : (updHp s h f).pending = s.pending := rfl
@[simp] theorem updHp_part (h : Nat) (f : HostPort → HostPort) (p' : Nat) : part (updHp s h f) p' = part s p' := rfl
@[simp] theorem updHp_proof (h : Nat) (f : HostPort → HostPort) (p' : Nat) : proof (updHp s h f) p' = proof s p' := rfl
@[simp] theorem updHp_xport (h : Nat) (f : HostPort → HostPort) (p' : Nat) : xport (updHp s h f) p' = xport s p' := rfl
@[simp] theorem updHp_mirror (h : Nat) (f : HostPort → HostPort) (p' : Nat) : mirror (updHp s h f) p' = mirror s p' := rfl
@[simp] theorem updHp_snap (h : Nat) (f : HostPort → HostPort) (p' : Nat) : snap (updHp s h f) p' = snap s p' := rfl
@[simp] theorem updHp_core (h : Nat) (f : HostPort → HostPort) (c' : Nat) : core (updHp s h f) c' = core s c' := rfl
@[simp] theorem updHp_unitsOf (h : Nat) (f : HostPort → HostPort) (c' : Nat) : unitsOf (updHp s h f) c' = unitsOf s c' := rfl
@[simp] theorem updHp_port (h : Nat) (f : HostPort → HostPort) (j' : Nat) : port (updHp s h f) j' = port s j' := rfl
@[simp] theorem updHp_stack (h : Nat) (f : HostPort → HostPort) (k' : Nat) : stack (updHp s h f) k' = stack s k' := rfl
@[simp] theorem updHp_channel (h : Nat) (f : HostPort → HostPort) (i' : Nat) : channel (updHp s h f) i' = channel s i' := rfl

/-! ### updQueue -/

@[simp] theorem updQueue_pmode (h q : Nat) (f : Queue → Queue) : (updQueue s h q f).pmode = s.pmode := rfl
@[simp] theorem updQueue_ticks (h q : Nat) (f : Queue → Queue) : (updQueue s h q f).ticks = s.ticks := rfl
@[simp] theorem updQueue_pulses (h q : Nat) (f : Queue → Queue) : (updQueue s h q f).pulses = s.pulses := rfl
@[simp] theorem updQueue_pins (h q : Nat) (f : Queue → Queue) : (updQueue s h q f).pins = s.pins := rfl
@[simp] theorem updQueue_fuses (h q : Nat) (f : Queue → Queue) : (updQueue s h q f).fuses = s.fuses := rfl
@[simp] theorem updQueue_regs (h q : Nat) (f : Queue → Queue) : (updQueue s h q f).regs = s.regs := rfl
@[simp] theorem updQueue_cores (h q : Nat) (f : Queue → Queue) : (updQueue s h q f).cores = s.cores := rfl
@[simp] theorem updQueue_units (h q : Nat) (f : Queue → Queue) : (updQueue s h q f).units = s.units := rfl
@[simp] theorem updQueue_coreMap (h q : Nat) (f : Queue → Queue) : (updQueue s h q f).coreMap = s.coreMap := rfl
@[simp] theorem updQueue_retiredCores (h q : Nat) (f : Queue → Queue) : (updQueue s h q f).retiredCores = s.retiredCores := rfl
@[simp] theorem updQueue_frozenCores (h q : Nat) (f : Queue → Queue) : (updQueue s h q f).frozenCores = s.frozenCores := rfl
@[simp] theorem updQueue_launches (h q : Nat) (f : Queue → Queue) : (updQueue s h q f).launches = s.launches := rfl
@[simp] theorem updQueue_nextLaunch (h q : Nat) (f : Queue → Queue) : (updQueue s h q f).nextLaunch = s.nextLaunch := rfl
@[simp] theorem updQueue_ms (h q : Nat) (f : Queue → Queue) : (updQueue s h q f).ms = s.ms := rfl
@[simp] theorem updQueue_parts (h q : Nat) (f : Queue → Queue) : (updQueue s h q f).parts = s.parts := rfl
@[simp] theorem updQueue_ports (h q : Nat) (f : Queue → Queue) : (updQueue s h q f).ports = s.ports := rfl
@[simp] theorem updQueue_faults (h q : Nat) (f : Queue → Queue) : (updQueue s h q f).faults = s.faults := rfl
@[simp] theorem updQueue_power (h q : Nat) (f : Queue → Queue) : (updQueue s h q f).power = s.power := rfl
@[simp] theorem updQueue_mgmt (h q : Nat) (f : Queue → Queue) : (updQueue s h q f).mgmt = s.mgmt := rfl
@[simp] theorem updQueue_evr (h q : Nat) (f : Queue → Queue) : (updQueue s h q f).evr = s.evr := rfl
@[simp] theorem updQueue_hostMem (h q : Nat) (f : Queue → Queue) : (updQueue s h q f).hostMem = s.hostMem := rfl
@[simp] theorem updQueue_hostFail (h q : Nat) (f : Queue → Queue) : (updQueue s h q f).hostFail = s.hostFail := rfl
@[simp] theorem updQueue_errors (h q : Nat) (f : Queue → Queue) : (updQueue s h q f).errors = s.errors := rfl
@[simp] theorem updQueue_out (h q : Nat) (f : Queue → Queue) : (updQueue s h q f).out = s.out := rfl
@[simp] theorem updQueue_raised (h q : Nat) (f : Queue → Queue) : (updQueue s h q f).raised = s.raised := rfl
@[simp] theorem updQueue_freeCtr (h q : Nat) (f : Queue → Queue) : (updQueue s h q f).freeCtr = s.freeCtr := rfl
@[simp] theorem updQueue_pending (h q : Nat) (f : Queue → Queue) : (updQueue s h q f).pending = s.pending := rfl
@[simp] theorem updQueue_part (h q : Nat) (f : Queue → Queue) (p' : Nat) : part (updQueue s h q f) p' = part s p' := rfl
@[simp] theorem updQueue_proof (h q : Nat) (f : Queue → Queue) (p' : Nat) : proof (updQueue s h q f) p' = proof s p' := rfl
@[simp] theorem updQueue_xport (h q : Nat) (f : Queue → Queue) (p' : Nat) : xport (updQueue s h q f) p' = xport s p' := rfl
@[simp] theorem updQueue_mirror (h q : Nat) (f : Queue → Queue) (p' : Nat) : mirror (updQueue s h q f) p' = mirror s p' := rfl
@[simp] theorem updQueue_snap (h q : Nat) (f : Queue → Queue) (p' : Nat) : snap (updQueue s h q f) p' = snap s p' := rfl
@[simp] theorem updQueue_core (h q : Nat) (f : Queue → Queue) (c' : Nat) : core (updQueue s h q f) c' = core s c' := rfl
@[simp] theorem updQueue_unitsOf (h q : Nat) (f : Queue → Queue) (c' : Nat) : unitsOf (updQueue s h q f) c' = unitsOf s c' := rfl
@[simp] theorem updQueue_port (h q : Nat) (f : Queue → Queue) (j' : Nat) : port (updQueue s h q f) j' = port s j' := rfl
@[simp] theorem updQueue_stack (h q : Nat) (f : Queue → Queue) (k' : Nat) : stack (updQueue s h q f) k' = stack s k' := rfl
@[simp] theorem updQueue_channel (h q : Nat) (f : Queue → Queue) (i' : Nat) : channel (updQueue s h q f) i' = channel s i' := rfl

/-! ### updCore -/

@[simp] theorem updCore_pmode (c : Nat) (f : Core → Core) : (updCore s c f).pmode = s.pmode := rfl
@[simp] theorem updCore_ticks (c : Nat) (f : Core → Core) : (updCore s c f).ticks = s.ticks := rfl
@[simp] theorem updCore_pulses (c : Nat) (f : Core → Core) : (updCore s c f).pulses = s.pulses := rfl
@[simp] theorem updCore_pins (c : Nat) (f : Core → Core) : (updCore s c f).pins = s.pins := rfl
@[simp] theorem updCore_fuses (c : Nat) (f : Core → Core) : (updCore s c f).fuses = s.fuses := rfl
@[simp] theorem updCore_regs (c : Nat) (f : Core → Core) : (updCore s c f).regs = s.regs := rfl
@[simp] theorem updCore_units (c : Nat) (f : Core → Core) : (updCore s c f).units = s.units := rfl
@[simp] theorem updCore_coreMap (c : Nat) (f : Core → Core) : (updCore s c f).coreMap = s.coreMap := rfl
@[simp] theorem updCore_retiredCores (c : Nat) (f : Core → Core) : (updCore s c f).retiredCores = s.retiredCores := rfl
@[simp] theorem updCore_frozenCores (c : Nat) (f : Core → Core) : (updCore s c f).frozenCores = s.frozenCores := rfl
@[simp] theorem updCore_launches (c : Nat) (f : Core → Core) : (updCore s c f).launches = s.launches := rfl
@[simp] theorem updCore_nextLaunch (c : Nat) (f : Core → Core) : (updCore s c f).nextLaunch = s.nextLaunch := rfl
@[simp] theorem updCore_ms (c : Nat) (f : Core → Core) : (updCore s c f).ms = s.ms := rfl
@[simp] theorem updCore_hps (c : Nat) (f : Core → Core) : (updCore s c f).hps = s.hps := rfl
@[simp] theorem updCore_parts (c : Nat) (f : Core → Core) : (updCore s c f).parts = s.parts := rfl
@[simp] theorem updCore_ports (c : Nat) (f : Core → Core) : (updCore s c f).ports = s.ports := rfl
@[simp] theorem updCore_faults (c : Nat) (f : Core → Core) : (updCore s c f).faults = s.faults := rfl
@[simp] theorem updCore_power (c : Nat) (f : Core → Core) : (updCore s c f).power = s.power := rfl
@[simp] theorem updCore_mgmt (c : Nat) (f : Core → Core) : (updCore s c f).mgmt = s.mgmt := rfl
@[simp] theorem updCore_evr (c : Nat) (f : Core → Core) : (updCore s c f).evr = s.evr := rfl
@[simp] theorem updCore_hostMem (c : Nat) (f : Core → Core) : (updCore s c f).hostMem = s.hostMem := rfl
@[simp] theorem updCore_hostFail (c : Nat) (f : Core → Core) : (updCore s c f).hostFail = s.hostFail := rfl
@[simp] theorem updCore_errors (c : Nat) (f : Core → Core) : (updCore s c f).errors = s.errors := rfl
@[simp] theorem updCore_out (c : Nat) (f : Core → Core) : (updCore s c f).out = s.out := rfl
@[simp] theorem updCore_raised (c : Nat) (f : Core → Core) : (updCore s c f).raised = s.raised := rfl
@[simp] theorem updCore_freeCtr (c : Nat) (f : Core → Core) : (updCore s c f).freeCtr = s.freeCtr := rfl
@[simp] theorem updCore_pending (c : Nat) (f : Core → Core) : (updCore s c f).pending = s.pending := rfl
@[simp] theorem updCore_part (c : Nat) (f : Core → Core) (p' : Nat) : part (updCore s c f) p' = part s p' := rfl
@[simp] theorem updCore_proof (c : Nat) (f : Core → Core) (p' : Nat) : proof (updCore s c f) p' = proof s p' := rfl
@[simp] theorem updCore_xport (c : Nat) (f : Core → Core) (p' : Nat) : xport (updCore s c f) p' = xport s p' := rfl
@[simp] theorem updCore_mirror (c : Nat) (f : Core → Core) (p' : Nat) : mirror (updCore s c f) p' = mirror s p' := rfl
@[simp] theorem updCore_snap (c : Nat) (f : Core → Core) (p' : Nat) : snap (updCore s c f) p' = snap s p' := rfl
@[simp] theorem updCore_hport (c : Nat) (f : Core → Core) (h' : Nat) : hport (updCore s c f) h' = hport s h' := rfl
@[simp] theorem updCore_queue (c : Nat) (f : Core → Core) (h' q' : Nat) : queue (updCore s c f) h' q' = queue s h' q' := rfl
@[simp] theorem updCore_unitsOf (c : Nat) (f : Core → Core) (c' : Nat) : unitsOf (updCore s c f) c' = unitsOf s c' := rfl
@[simp] theorem updCore_port (c : Nat) (f : Core → Core) (j' : Nat) : port (updCore s c f) j' = port s j' := rfl
@[simp] theorem updCore_stack (c : Nat) (f : Core → Core) (k' : Nat) : stack (updCore s c f) k' = stack s k' := rfl
@[simp] theorem updCore_channel (c : Nat) (f : Core → Core) (i' : Nat) : channel (updCore s c f) i' = channel s i' := rfl

/-! ### updUnits -/

@[simp] theorem updUnits_pmode (c : Nat) (f : Units → Units) : (updUnits s c f).pmode = s.pmode := rfl
@[simp] theorem updUnits_ticks (c : Nat) (f : Units → Units) : (updUnits s c f).ticks = s.ticks := rfl
@[simp] theorem updUnits_pulses (c : Nat) (f : Units → Units) : (updUnits s c f).pulses = s.pulses := rfl
@[simp] theorem updUnits_pins (c : Nat) (f : Units → Units) : (updUnits s c f).pins = s.pins := rfl
@[simp] theorem updUnits_fuses (c : Nat) (f : Units → Units) : (updUnits s c f).fuses = s.fuses := rfl
@[simp] theorem updUnits_regs (c : Nat) (f : Units → Units) : (updUnits s c f).regs = s.regs := rfl
@[simp] theorem updUnits_cores (c : Nat) (f : Units → Units) : (updUnits s c f).cores = s.cores := rfl
@[simp] theorem updUnits_coreMap (c : Nat) (f : Units → Units) : (updUnits s c f).coreMap = s.coreMap := rfl
@[simp] theorem updUnits_retiredCores (c : Nat) (f : Units → Units) : (updUnits s c f).retiredCores = s.retiredCores := rfl
@[simp] theorem updUnits_frozenCores (c : Nat) (f : Units → Units) : (updUnits s c f).frozenCores = s.frozenCores := rfl
@[simp] theorem updUnits_launches (c : Nat) (f : Units → Units) : (updUnits s c f).launches = s.launches := rfl
@[simp] theorem updUnits_nextLaunch (c : Nat) (f : Units → Units) : (updUnits s c f).nextLaunch = s.nextLaunch := rfl
@[simp] theorem updUnits_ms (c : Nat) (f : Units → Units) : (updUnits s c f).ms = s.ms := rfl
@[simp] theorem updUnits_hps (c : Nat) (f : Units → Units) : (updUnits s c f).hps = s.hps := rfl
@[simp] theorem updUnits_parts (c : Nat) (f : Units → Units) : (updUnits s c f).parts = s.parts := rfl
@[simp] theorem updUnits_ports (c : Nat) (f : Units → Units) : (updUnits s c f).ports = s.ports := rfl
@[simp] theorem updUnits_faults (c : Nat) (f : Units → Units) : (updUnits s c f).faults = s.faults := rfl
@[simp] theorem updUnits_power (c : Nat) (f : Units → Units) : (updUnits s c f).power = s.power := rfl
@[simp] theorem updUnits_mgmt (c : Nat) (f : Units → Units) : (updUnits s c f).mgmt = s.mgmt := rfl
@[simp] theorem updUnits_evr (c : Nat) (f : Units → Units) : (updUnits s c f).evr = s.evr := rfl
@[simp] theorem updUnits_hostMem (c : Nat) (f : Units → Units) : (updUnits s c f).hostMem = s.hostMem := rfl
@[simp] theorem updUnits_hostFail (c : Nat) (f : Units → Units) : (updUnits s c f).hostFail = s.hostFail := rfl
@[simp] theorem updUnits_errors (c : Nat) (f : Units → Units) : (updUnits s c f).errors = s.errors := rfl
@[simp] theorem updUnits_out (c : Nat) (f : Units → Units) : (updUnits s c f).out = s.out := rfl
@[simp] theorem updUnits_raised (c : Nat) (f : Units → Units) : (updUnits s c f).raised = s.raised := rfl
@[simp] theorem updUnits_freeCtr (c : Nat) (f : Units → Units) : (updUnits s c f).freeCtr = s.freeCtr := rfl
@[simp] theorem updUnits_pending (c : Nat) (f : Units → Units) : (updUnits s c f).pending = s.pending := rfl
@[simp] theorem updUnits_part (c : Nat) (f : Units → Units) (p' : Nat) : part (updUnits s c f) p' = part s p' := rfl
@[simp] theorem updUnits_proof (c : Nat) (f : Units → Units) (p' : Nat) : proof (updUnits s c f) p' = proof s p' := rfl
@[simp] theorem updUnits_xport (c : Nat) (f : Units → Units) (p' : Nat) : xport (updUnits s c f) p' = xport s p' := rfl
@[simp] theorem updUnits_mirror (c : Nat) (f : Units → Units) (p' : Nat) : mirror (updUnits s c f) p' = mirror s p' := rfl
@[simp] theorem updUnits_snap (c : Nat) (f : Units → Units) (p' : Nat) : snap (updUnits s c f) p' = snap s p' := rfl
@[simp] theorem updUnits_hport (c : Nat) (f : Units → Units) (h' : Nat) : hport (updUnits s c f) h' = hport s h' := rfl
@[simp] theorem updUnits_queue (c : Nat) (f : Units → Units) (h' q' : Nat) : queue (updUnits s c f) h' q' = queue s h' q' := rfl
@[simp] theorem updUnits_core (c : Nat) (f : Units → Units) (c' : Nat) : core (updUnits s c f) c' = core s c' := rfl
@[simp] theorem updUnits_port (c : Nat) (f : Units → Units) (j' : Nat) : port (updUnits s c f) j' = port s j' := rfl
@[simp] theorem updUnits_stack (c : Nat) (f : Units → Units) (k' : Nat) : stack (updUnits s c f) k' = stack s k' := rfl
@[simp] theorem updUnits_channel (c : Nat) (f : Units → Units) (i' : Nat) : channel (updUnits s c f) i' = channel s i' := rfl

/-! ### updPort -/

@[simp] theorem updPort_pmode (j : Nat) (f : Port → Port) : (updPort s j f).pmode = s.pmode := rfl
@[simp] theorem updPort_ticks (j : Nat) (f : Port → Port) : (updPort s j f).ticks = s.ticks := rfl
@[simp] theorem updPort_pulses (j : Nat) (f : Port → Port) : (updPort s j f).pulses = s.pulses := rfl
@[simp] theorem updPort_pins (j : Nat) (f : Port → Port) : (updPort s j f).pins = s.pins := rfl
@[simp] theorem updPort_fuses (j : Nat) (f : Port → Port) : (updPort s j f).fuses = s.fuses := rfl
@[simp] theorem updPort_regs (j : Nat) (f : Port → Port) : (updPort s j f).regs = s.regs := rfl
@[simp] theorem updPort_cores (j : Nat) (f : Port → Port) : (updPort s j f).cores = s.cores := rfl
@[simp] theorem updPort_units (j : Nat) (f : Port → Port) : (updPort s j f).units = s.units := rfl
@[simp] theorem updPort_coreMap (j : Nat) (f : Port → Port) : (updPort s j f).coreMap = s.coreMap := rfl
@[simp] theorem updPort_retiredCores (j : Nat) (f : Port → Port) : (updPort s j f).retiredCores = s.retiredCores := rfl
@[simp] theorem updPort_frozenCores (j : Nat) (f : Port → Port) : (updPort s j f).frozenCores = s.frozenCores := rfl
@[simp] theorem updPort_launches (j : Nat) (f : Port → Port) : (updPort s j f).launches = s.launches := rfl
@[simp] theorem updPort_nextLaunch (j : Nat) (f : Port → Port) : (updPort s j f).nextLaunch = s.nextLaunch := rfl
@[simp] theorem updPort_ms (j : Nat) (f : Port → Port) : (updPort s j f).ms = s.ms := rfl
@[simp] theorem updPort_hps (j : Nat) (f : Port → Port) : (updPort s j f).hps = s.hps := rfl
@[simp] theorem updPort_parts (j : Nat) (f : Port → Port) : (updPort s j f).parts = s.parts := rfl
@[simp] theorem updPort_faults (j : Nat) (f : Port → Port) : (updPort s j f).faults = s.faults := rfl
@[simp] theorem updPort_power (j : Nat) (f : Port → Port) : (updPort s j f).power = s.power := rfl
@[simp] theorem updPort_mgmt (j : Nat) (f : Port → Port) : (updPort s j f).mgmt = s.mgmt := rfl
@[simp] theorem updPort_evr (j : Nat) (f : Port → Port) : (updPort s j f).evr = s.evr := rfl
@[simp] theorem updPort_hostMem (j : Nat) (f : Port → Port) : (updPort s j f).hostMem = s.hostMem := rfl
@[simp] theorem updPort_hostFail (j : Nat) (f : Port → Port) : (updPort s j f).hostFail = s.hostFail := rfl
@[simp] theorem updPort_errors (j : Nat) (f : Port → Port) : (updPort s j f).errors = s.errors := rfl
@[simp] theorem updPort_out (j : Nat) (f : Port → Port) : (updPort s j f).out = s.out := rfl
@[simp] theorem updPort_raised (j : Nat) (f : Port → Port) : (updPort s j f).raised = s.raised := rfl
@[simp] theorem updPort_freeCtr (j : Nat) (f : Port → Port) : (updPort s j f).freeCtr = s.freeCtr := rfl
@[simp] theorem updPort_pending (j : Nat) (f : Port → Port) : (updPort s j f).pending = s.pending := rfl
@[simp] theorem updPort_part (j : Nat) (f : Port → Port) (p' : Nat) : part (updPort s j f) p' = part s p' := rfl
@[simp] theorem updPort_proof (j : Nat) (f : Port → Port) (p' : Nat) : proof (updPort s j f) p' = proof s p' := rfl
@[simp] theorem updPort_xport (j : Nat) (f : Port → Port) (p' : Nat) : xport (updPort s j f) p' = xport s p' := rfl
@[simp] theorem updPort_mirror (j : Nat) (f : Port → Port) (p' : Nat) : mirror (updPort s j f) p' = mirror s p' := rfl
@[simp] theorem updPort_snap (j : Nat) (f : Port → Port) (p' : Nat) : snap (updPort s j f) p' = snap s p' := rfl
@[simp] theorem updPort_hport (j : Nat) (f : Port → Port) (h' : Nat) : hport (updPort s j f) h' = hport s h' := rfl
@[simp] theorem updPort_queue (j : Nat) (f : Port → Port) (h' q' : Nat) : queue (updPort s j f) h' q' = queue s h' q' := rfl
@[simp] theorem updPort_core (j : Nat) (f : Port → Port) (c' : Nat) : core (updPort s j f) c' = core s c' := rfl
@[simp] theorem updPort_unitsOf (j : Nat) (f : Port → Port) (c' : Nat) : unitsOf (updPort s j f) c' = unitsOf s c' := rfl
@[simp] theorem updPort_stack (j : Nat) (f : Port → Port) (k' : Nat) : stack (updPort s j f) k' = stack s k' := rfl
@[simp] theorem updPort_channel (j : Nat) (f : Port → Port) (i' : Nat) : channel (updPort s j f) i' = channel s i' := rfl

/-! ### updLink -/

@[simp] theorem updLink_pmode (j : Nat) (f : Link → Link) : (updLink s j f).pmode = s.pmode := rfl
@[simp] theorem updLink_ticks (j : Nat) (f : Link → Link) : (updLink s j f).ticks = s.ticks := rfl
@[simp] theorem updLink_pulses (j : Nat) (f : Link → Link) : (updLink s j f).pulses = s.pulses := rfl
@[simp] theorem updLink_pins (j : Nat) (f : Link → Link) : (updLink s j f).pins = s.pins := rfl
@[simp] theorem updLink_fuses (j : Nat) (f : Link → Link) : (updLink s j f).fuses = s.fuses := rfl
@[simp] theorem updLink_regs (j : Nat) (f : Link → Link) : (updLink s j f).regs = s.regs := rfl
@[simp] theorem updLink_cores (j : Nat) (f : Link → Link) : (updLink s j f).cores = s.cores := rfl
@[simp] theorem updLink_units (j : Nat) (f : Link → Link) : (updLink s j f).units = s.units := rfl
@[simp] theorem updLink_coreMap (j : Nat) (f : Link → Link) : (updLink s j f).coreMap = s.coreMap := rfl
@[simp] theorem updLink_retiredCores (j : Nat) (f : Link → Link) : (updLink s j f).retiredCores = s.retiredCores := rfl
@[simp] theorem updLink_frozenCores (j : Nat) (f : Link → Link) : (updLink s j f).frozenCores = s.frozenCores := rfl
@[simp] theorem updLink_launches (j : Nat) (f : Link → Link) : (updLink s j f).launches = s.launches := rfl
@[simp] theorem updLink_nextLaunch (j : Nat) (f : Link → Link) : (updLink s j f).nextLaunch = s.nextLaunch := rfl
@[simp] theorem updLink_ms (j : Nat) (f : Link → Link) : (updLink s j f).ms = s.ms := rfl
@[simp] theorem updLink_hps (j : Nat) (f : Link → Link) : (updLink s j f).hps = s.hps := rfl
@[simp] theorem updLink_parts (j : Nat) (f : Link → Link) : (updLink s j f).parts = s.parts := rfl
@[simp] theorem updLink_faults (j : Nat) (f : Link → Link) : (updLink s j f).faults = s.faults := rfl
@[simp] theorem updLink_power (j : Nat) (f : Link → Link) : (updLink s j f).power = s.power := rfl
@[simp] theorem updLink_mgmt (j : Nat) (f : Link → Link) : (updLink s j f).mgmt = s.mgmt := rfl
@[simp] theorem updLink_evr (j : Nat) (f : Link → Link) : (updLink s j f).evr = s.evr := rfl
@[simp] theorem updLink_hostMem (j : Nat) (f : Link → Link) : (updLink s j f).hostMem = s.hostMem := rfl
@[simp] theorem updLink_hostFail (j : Nat) (f : Link → Link) : (updLink s j f).hostFail = s.hostFail := rfl
@[simp] theorem updLink_errors (j : Nat) (f : Link → Link) : (updLink s j f).errors = s.errors := rfl
@[simp] theorem updLink_out (j : Nat) (f : Link → Link) : (updLink s j f).out = s.out := rfl
@[simp] theorem updLink_raised (j : Nat) (f : Link → Link) : (updLink s j f).raised = s.raised := rfl
@[simp] theorem updLink_freeCtr (j : Nat) (f : Link → Link) : (updLink s j f).freeCtr = s.freeCtr := rfl
@[simp] theorem updLink_pending (j : Nat) (f : Link → Link) : (updLink s j f).pending = s.pending := rfl
@[simp] theorem updLink_part (j : Nat) (f : Link → Link) (p' : Nat) : part (updLink s j f) p' = part s p' := rfl
@[simp] theorem updLink_proof (j : Nat) (f : Link → Link) (p' : Nat) : proof (updLink s j f) p' = proof s p' := rfl
@[simp] theorem updLink_xport (j : Nat) (f : Link → Link) (p' : Nat) : xport (updLink s j f) p' = xport s p' := rfl
@[simp] theorem updLink_mirror (j : Nat) (f : Link → Link) (p' : Nat) : mirror (updLink s j f) p' = mirror s p' := rfl
@[simp] theorem updLink_snap (j : Nat) (f : Link → Link) (p' : Nat) : snap (updLink s j f) p' = snap s p' := rfl
@[simp] theorem updLink_hport (j : Nat) (f : Link → Link) (h' : Nat) : hport (updLink s j f) h' = hport s h' := rfl
@[simp] theorem updLink_queue (j : Nat) (f : Link → Link) (h' q' : Nat) : queue (updLink s j f) h' q' = queue s h' q' := rfl
@[simp] theorem updLink_core (j : Nat) (f : Link → Link) (c' : Nat) : core (updLink s j f) c' = core s c' := rfl
@[simp] theorem updLink_unitsOf (j : Nat) (f : Link → Link) (c' : Nat) : unitsOf (updLink s j f) c' = unitsOf s c' := rfl
@[simp] theorem updLink_stack (j : Nat) (f : Link → Link) (k' : Nat) : stack (updLink s j f) k' = stack s k' := rfl
@[simp] theorem updLink_channel (j : Nat) (f : Link → Link) (i' : Nat) : channel (updLink s j f) i' = channel s i' := rfl

/-! ### updMs -/

@[simp] theorem updMs_pmode (f : MemSys → MemSys) : (updMs s f).pmode = s.pmode := rfl
@[simp] theorem updMs_ticks (f : MemSys → MemSys) : (updMs s f).ticks = s.ticks := rfl
@[simp] theorem updMs_pulses (f : MemSys → MemSys) : (updMs s f).pulses = s.pulses := rfl
@[simp] theorem updMs_pins (f : MemSys → MemSys) : (updMs s f).pins = s.pins := rfl
@[simp] theorem updMs_fuses (f : MemSys → MemSys) : (updMs s f).fuses = s.fuses := rfl
@[simp] theorem updMs_regs (f : MemSys → MemSys) : (updMs s f).regs = s.regs := rfl
@[simp] theorem updMs_cores (f : MemSys → MemSys) : (updMs s f).cores = s.cores := rfl
@[simp] theorem updMs_units (f : MemSys → MemSys) : (updMs s f).units = s.units := rfl
@[simp] theorem updMs_coreMap (f : MemSys → MemSys) : (updMs s f).coreMap = s.coreMap := rfl
@[simp] theorem updMs_retiredCores (f : MemSys → MemSys) : (updMs s f).retiredCores = s.retiredCores := rfl
@[simp] theorem updMs_frozenCores (f : MemSys → MemSys) : (updMs s f).frozenCores = s.frozenCores := rfl
@[simp] theorem updMs_launches (f : MemSys → MemSys) : (updMs s f).launches = s.launches := rfl
@[simp] theorem updMs_nextLaunch (f : MemSys → MemSys) : (updMs s f).nextLaunch = s.nextLaunch := rfl
@[simp] theorem updMs_hps (f : MemSys → MemSys) : (updMs s f).hps = s.hps := rfl
@[simp] theorem updMs_parts (f : MemSys → MemSys) : (updMs s f).parts = s.parts := rfl
@[simp] theorem updMs_ports (f : MemSys → MemSys) : (updMs s f).ports = s.ports := rfl
@[simp] theorem updMs_faults (f : MemSys → MemSys) : (updMs s f).faults = s.faults := rfl
@[simp] theorem updMs_power (f : MemSys → MemSys) : (updMs s f).power = s.power := rfl
@[simp] theorem updMs_mgmt (f : MemSys → MemSys) : (updMs s f).mgmt = s.mgmt := rfl
@[simp] theorem updMs_evr (f : MemSys → MemSys) : (updMs s f).evr = s.evr := rfl
@[simp] theorem updMs_hostMem (f : MemSys → MemSys) : (updMs s f).hostMem = s.hostMem := rfl
@[simp] theorem updMs_hostFail (f : MemSys → MemSys) : (updMs s f).hostFail = s.hostFail := rfl
@[simp] theorem updMs_errors (f : MemSys → MemSys) : (updMs s f).errors = s.errors := rfl
@[simp] theorem updMs_out (f : MemSys → MemSys) : (updMs s f).out = s.out := rfl
@[simp] theorem updMs_raised (f : MemSys → MemSys) : (updMs s f).raised = s.raised := rfl
@[simp] theorem updMs_freeCtr (f : MemSys → MemSys) : (updMs s f).freeCtr = s.freeCtr := rfl
@[simp] theorem updMs_pending (f : MemSys → MemSys) : (updMs s f).pending = s.pending := rfl
@[simp] theorem updMs_part (f : MemSys → MemSys) (p' : Nat) : part (updMs s f) p' = part s p' := rfl
@[simp] theorem updMs_proof (f : MemSys → MemSys) (p' : Nat) : proof (updMs s f) p' = proof s p' := rfl
@[simp] theorem updMs_xport (f : MemSys → MemSys) (p' : Nat) : xport (updMs s f) p' = xport s p' := rfl
@[simp] theorem updMs_mirror (f : MemSys → MemSys) (p' : Nat) : mirror (updMs s f) p' = mirror s p' := rfl
@[simp] theorem updMs_snap (f : MemSys → MemSys) (p' : Nat) : snap (updMs s f) p' = snap s p' := rfl
@[simp] theorem updMs_hport (f : MemSys → MemSys) (h' : Nat) : hport (updMs s f) h' = hport s h' := rfl
@[simp] theorem updMs_queue (f : MemSys → MemSys) (h' q' : Nat) : queue (updMs s f) h' q' = queue s h' q' := rfl
@[simp] theorem updMs_core (f : MemSys → MemSys) (c' : Nat) : core (updMs s f) c' = core s c' := rfl
@[simp] theorem updMs_unitsOf (f : MemSys → MemSys) (c' : Nat) : unitsOf (updMs s f) c' = unitsOf s c' := rfl
@[simp] theorem updMs_port (f : MemSys → MemSys) (j' : Nat) : port (updMs s f) j' = port s j' := rfl

/-! ### updStack -/

@[simp] theorem updStack_pmode (k : Nat) (f : Stack → Stack) : (updStack s k f).pmode = s.pmode := rfl
@[simp] theorem updStack_ticks (k : Nat) (f : Stack → Stack) : (updStack s k f).ticks = s.ticks := rfl
@[simp] theorem updStack_pulses (k : Nat) (f : Stack → Stack) : (updStack s k f).pulses = s.pulses := rfl
@[simp] theorem updStack_pins (k : Nat) (f : Stack → Stack) : (updStack s k f).pins = s.pins := rfl
@[simp] theorem updStack_fuses (k : Nat) (f : Stack → Stack) : (updStack s k f).fuses = s.fuses := rfl
@[simp] theorem updStack_regs (k : Nat) (f : Stack → Stack) : (updStack s k f).regs = s.regs := rfl
@[simp] theorem updStack_cores (k : Nat) (f : Stack → Stack) : (updStack s k f).cores = s.cores := rfl
@[simp] theorem updStack_units (k : Nat) (f : Stack → Stack) : (updStack s k f).units = s.units := rfl
@[simp] theorem updStack_coreMap (k : Nat) (f : Stack → Stack) : (updStack s k f).coreMap = s.coreMap := rfl
@[simp] theorem updStack_retiredCores (k : Nat) (f : Stack → Stack) : (updStack s k f).retiredCores = s.retiredCores := rfl
@[simp] theorem updStack_frozenCores (k : Nat) (f : Stack → Stack) : (updStack s k f).frozenCores = s.frozenCores := rfl
@[simp] theorem updStack_launches (k : Nat) (f : Stack → Stack) : (updStack s k f).launches = s.launches := rfl
@[simp] theorem updStack_nextLaunch (k : Nat) (f : Stack → Stack) : (updStack s k f).nextLaunch = s.nextLaunch := rfl
@[simp] theorem updStack_hps (k : Nat) (f : Stack → Stack) : (updStack s k f).hps = s.hps := rfl
@[simp] theorem updStack_parts (k : Nat) (f : Stack → Stack) : (updStack s k f).parts = s.parts := rfl
@[simp] theorem updStack_ports (k : Nat) (f : Stack → Stack) : (updStack s k f).ports = s.ports := rfl
@[simp] theorem updStack_faults (k : Nat) (f : Stack → Stack) : (updStack s k f).faults = s.faults := rfl
@[simp] theorem updStack_power (k : Nat) (f : Stack → Stack) : (updStack s k f).power = s.power := rfl
@[simp] theorem updStack_mgmt (k : Nat) (f : Stack → Stack) : (updStack s k f).mgmt = s.mgmt := rfl
@[simp] theorem updStack_evr (k : Nat) (f : Stack → Stack) : (updStack s k f).evr = s.evr := rfl
@[simp] theorem updStack_hostMem (k : Nat) (f : Stack → Stack) : (updStack s k f).hostMem = s.hostMem := rfl
@[simp] theorem updStack_hostFail (k : Nat) (f : Stack → Stack) : (updStack s k f).hostFail = s.hostFail := rfl
@[simp] theorem updStack_errors (k : Nat) (f : Stack → Stack) : (updStack s k f).errors = s.errors := rfl
@[simp] theorem updStack_out (k : Nat) (f : Stack → Stack) : (updStack s k f).out = s.out := rfl
@[simp] theorem updStack_raised (k : Nat) (f : Stack → Stack) : (updStack s k f).raised = s.raised := rfl
@[simp] theorem updStack_freeCtr (k : Nat) (f : Stack → Stack) : (updStack s k f).freeCtr = s.freeCtr := rfl
@[simp] theorem updStack_pending (k : Nat) (f : Stack → Stack) : (updStack s k f).pending = s.pending := rfl
@[simp] theorem updStack_part (k : Nat) (f : Stack → Stack) (p' : Nat) : part (updStack s k f) p' = part s p' := rfl
@[simp] theorem updStack_proof (k : Nat) (f : Stack → Stack) (p' : Nat) : proof (updStack s k f) p' = proof s p' := rfl
@[simp] theorem updStack_xport (k : Nat) (f : Stack → Stack) (p' : Nat) : xport (updStack s k f) p' = xport s p' := rfl
@[simp] theorem updStack_mirror (k : Nat) (f : Stack → Stack) (p' : Nat) : mirror (updStack s k f) p' = mirror s p' := rfl
@[simp] theorem updStack_snap (k : Nat) (f : Stack → Stack) (p' : Nat) : snap (updStack s k f) p' = snap s p' := rfl
@[simp] theorem updStack_hport (k : Nat) (f : Stack → Stack) (h' : Nat) : hport (updStack s k f) h' = hport s h' := rfl
@[simp] theorem updStack_queue (k : Nat) (f : Stack → Stack) (h' q' : Nat) : queue (updStack s k f) h' q' = queue s h' q' := rfl
@[simp] theorem updStack_core (k : Nat) (f : Stack → Stack) (c' : Nat) : core (updStack s k f) c' = core s c' := rfl
@[simp] theorem updStack_unitsOf (k : Nat) (f : Stack → Stack) (c' : Nat) : unitsOf (updStack s k f) c' = unitsOf s c' := rfl
@[simp] theorem updStack_port (k : Nat) (f : Stack → Stack) (j' : Nat) : port (updStack s k f) j' = port s j' := rfl

/-! ### updChannel -/

@[simp] theorem updChannel_pmode (i : Nat) (f : Channel → Channel) : (updChannel s i f).pmode = s.pmode := rfl
@[simp] theorem updChannel_ticks (i : Nat) (f : Channel → Channel) : (updChannel s i f).ticks = s.ticks := rfl
@[simp] theorem updChannel_pulses (i : Nat) (f : Channel → Channel) : (updChannel s i f).pulses = s.pulses := rfl
@[simp] theorem updChannel_pins (i : Nat) (f : Channel → Channel) : (updChannel s i f).pins = s.pins := rfl
@[simp] theorem updChannel_fuses (i : Nat) (f : Channel → Channel) : (updChannel s i f).fuses = s.fuses := rfl
@[simp] theorem updChannel_regs (i : Nat) (f : Channel → Channel) : (updChannel s i f).regs = s.regs := rfl
@[simp] theorem updChannel_cores (i : Nat) (f : Channel → Channel) : (updChannel s i f).cores = s.cores := rfl
@[simp] theorem updChannel_units (i : Nat) (f : Channel → Channel) : (updChannel s i f).units = s.units := rfl
@[simp] theorem updChannel_coreMap (i : Nat) (f : Channel → Channel) : (updChannel s i f).coreMap = s.coreMap := rfl
@[simp] theorem updChannel_retiredCores (i : Nat) (f : Channel → Channel) : (updChannel s i f).retiredCores = s.retiredCores := rfl
@[simp] theorem updChannel_frozenCores (i : Nat) (f : Channel → Channel) : (updChannel s i f).frozenCores = s.frozenCores := rfl
@[simp] theorem updChannel_launches (i : Nat) (f : Channel → Channel) : (updChannel s i f).launches = s.launches := rfl
@[simp] theorem updChannel_nextLaunch (i : Nat) (f : Channel → Channel) : (updChannel s i f).nextLaunch = s.nextLaunch := rfl
@[simp] theorem updChannel_hps (i : Nat) (f : Channel → Channel) : (updChannel s i f).hps = s.hps := rfl
@[simp] theorem updChannel_parts (i : Nat) (f : Channel → Channel) : (updChannel s i f).parts = s.parts := rfl
@[simp] theorem updChannel_ports (i : Nat) (f : Channel → Channel) : (updChannel s i f).ports = s.ports := rfl
@[simp] theorem updChannel_faults (i : Nat) (f : Channel → Channel) : (updChannel s i f).faults = s.faults := rfl
@[simp] theorem updChannel_power (i : Nat) (f : Channel → Channel) : (updChannel s i f).power = s.power := rfl
@[simp] theorem updChannel_mgmt (i : Nat) (f : Channel → Channel) : (updChannel s i f).mgmt = s.mgmt := rfl
@[simp] theorem updChannel_evr (i : Nat) (f : Channel → Channel) : (updChannel s i f).evr = s.evr := rfl
@[simp] theorem updChannel_hostMem (i : Nat) (f : Channel → Channel) : (updChannel s i f).hostMem = s.hostMem := rfl
@[simp] theorem updChannel_hostFail (i : Nat) (f : Channel → Channel) : (updChannel s i f).hostFail = s.hostFail := rfl
@[simp] theorem updChannel_errors (i : Nat) (f : Channel → Channel) : (updChannel s i f).errors = s.errors := rfl
@[simp] theorem updChannel_out (i : Nat) (f : Channel → Channel) : (updChannel s i f).out = s.out := rfl
@[simp] theorem updChannel_raised (i : Nat) (f : Channel → Channel) : (updChannel s i f).raised = s.raised := rfl
@[simp] theorem updChannel_freeCtr (i : Nat) (f : Channel → Channel) : (updChannel s i f).freeCtr = s.freeCtr := rfl
@[simp] theorem updChannel_pending (i : Nat) (f : Channel → Channel) : (updChannel s i f).pending = s.pending := rfl
@[simp] theorem updChannel_part (i : Nat) (f : Channel → Channel) (p' : Nat) : part (updChannel s i f) p' = part s p' := rfl
@[simp] theorem updChannel_proof (i : Nat) (f : Channel → Channel) (p' : Nat) : proof (updChannel s i f) p' = proof s p' := rfl
@[simp] theorem updChannel_xport (i : Nat) (f : Channel → Channel) (p' : Nat) : xport (updChannel s i f) p' = xport s p' := rfl
@[simp] theorem updChannel_mirror (i : Nat) (f : Channel → Channel) (p' : Nat) : mirror (updChannel s i f) p' = mirror s p' := rfl
@[simp] theorem updChannel_snap (i : Nat) (f : Channel → Channel) (p' : Nat) : snap (updChannel s i f) p' = snap s p' := rfl
@[simp] theorem updChannel_hport (i : Nat) (f : Channel → Channel) (h' : Nat) : hport (updChannel s i f) h' = hport s h' := rfl
@[simp] theorem updChannel_queue (i : Nat) (f : Channel → Channel) (h' q' : Nat) : queue (updChannel s i f) h' q' = queue s h' q' := rfl
@[simp] theorem updChannel_core (i : Nat) (f : Channel → Channel) (c' : Nat) : core (updChannel s i f) c' = core s c' := rfl
@[simp] theorem updChannel_unitsOf (i : Nat) (f : Channel → Channel) (c' : Nat) : unitsOf (updChannel s i f) c' = unitsOf s c' := rfl
@[simp] theorem updChannel_port (i : Nat) (f : Channel → Channel) (j' : Nat) : port (updChannel s i f) j' = port s j' := rfl

/-! ### updPower -/

@[simp] theorem updPower_pmode (f : Power → Power) : (updPower s f).pmode = s.pmode := rfl
@[simp] theorem updPower_ticks (f : Power → Power) : (updPower s f).ticks = s.ticks := rfl
@[simp] theorem updPower_pulses (f : Power → Power) : (updPower s f).pulses = s.pulses := rfl
@[simp] theorem updPower_pins (f : Power → Power) : (updPower s f).pins = s.pins := rfl
@[simp] theorem updPower_fuses (f : Power → Power) : (updPower s f).fuses = s.fuses := rfl
@[simp] theorem updPower_regs (f : Power → Power) : (updPower s f).regs = s.regs := rfl
@[simp] theorem updPower_cores (f : Power → Power) : (updPower s f).cores = s.cores := rfl
@[simp] theorem updPower_units (f : Power → Power) : (updPower s f).units = s.units := rfl
@[simp] theorem updPower_coreMap (f : Power → Power) : (updPower s f).coreMap = s.coreMap := rfl
@[simp] theorem updPower_retiredCores (f : Power → Power) : (updPower s f).retiredCores = s.retiredCores := rfl
@[simp] theorem updPower_frozenCores (f : Power → Power) : (updPower s f).frozenCores = s.frozenCores := rfl
@[simp] theorem updPower_launches (f : Power → Power) : (updPower s f).launches = s.launches := rfl
@[simp] theorem updPower_nextLaunch (f : Power → Power) : (updPower s f).nextLaunch = s.nextLaunch := rfl
@[simp] theorem updPower_ms (f : Power → Power) : (updPower s f).ms = s.ms := rfl
@[simp] theorem updPower_hps (f : Power → Power) : (updPower s f).hps = s.hps := rfl
@[simp] theorem updPower_parts (f : Power → Power) : (updPower s f).parts = s.parts := rfl
@[simp] theorem updPower_ports (f : Power → Power) : (updPower s f).ports = s.ports := rfl
@[simp] theorem updPower_faults (f : Power → Power) : (updPower s f).faults = s.faults := rfl
@[simp] theorem updPower_mgmt (f : Power → Power) : (updPower s f).mgmt = s.mgmt := rfl
@[simp] theorem updPower_evr (f : Power → Power) : (updPower s f).evr = s.evr := rfl
@[simp] theorem updPower_hostMem (f : Power → Power) : (updPower s f).hostMem = s.hostMem := rfl
@[simp] theorem updPower_hostFail (f : Power → Power) : (updPower s f).hostFail = s.hostFail := rfl
@[simp] theorem updPower_errors (f : Power → Power) : (updPower s f).errors = s.errors := rfl
@[simp] theorem updPower_out (f : Power → Power) : (updPower s f).out = s.out := rfl
@[simp] theorem updPower_raised (f : Power → Power) : (updPower s f).raised = s.raised := rfl
@[simp] theorem updPower_freeCtr (f : Power → Power) : (updPower s f).freeCtr = s.freeCtr := rfl
@[simp] theorem updPower_pending (f : Power → Power) : (updPower s f).pending = s.pending := rfl
@[simp] theorem updPower_part (f : Power → Power) (p' : Nat) : part (updPower s f) p' = part s p' := rfl
@[simp] theorem updPower_proof (f : Power → Power) (p' : Nat) : proof (updPower s f) p' = proof s p' := rfl
@[simp] theorem updPower_xport (f : Power → Power) (p' : Nat) : xport (updPower s f) p' = xport s p' := rfl
@[simp] theorem updPower_mirror (f : Power → Power) (p' : Nat) : mirror (updPower s f) p' = mirror s p' := rfl
@[simp] theorem updPower_snap (f : Power → Power) (p' : Nat) : snap (updPower s f) p' = snap s p' := rfl
@[simp] theorem updPower_hport (f : Power → Power) (h' : Nat) : hport (updPower s f) h' = hport s h' := rfl
@[simp] theorem updPower_queue (f : Power → Power) (h' q' : Nat) : queue (updPower s f) h' q' = queue s h' q' := rfl
@[simp] theorem updPower_core (f : Power → Power) (c' : Nat) : core (updPower s f) c' = core s c' := rfl
@[simp] theorem updPower_unitsOf (f : Power → Power) (c' : Nat) : unitsOf (updPower s f) c' = unitsOf s c' := rfl
@[simp] theorem updPower_port (f : Power → Power) (j' : Nat) : port (updPower s f) j' = port s j' := rfl
@[simp] theorem updPower_stack (f : Power → Power) (k' : Nat) : stack (updPower s f) k' = stack s k' := rfl
@[simp] theorem updPower_channel (f : Power → Power) (i' : Nat) : channel (updPower s f) i' = channel s i' := rfl

/-! ### updMgmt -/

@[simp] theorem updMgmt_pmode (f : Mgmt → Mgmt) : (updMgmt s f).pmode = s.pmode := rfl
@[simp] theorem updMgmt_ticks (f : Mgmt → Mgmt) : (updMgmt s f).ticks = s.ticks := rfl
@[simp] theorem updMgmt_pulses (f : Mgmt → Mgmt) : (updMgmt s f).pulses = s.pulses := rfl
@[simp] theorem updMgmt_pins (f : Mgmt → Mgmt) : (updMgmt s f).pins = s.pins := rfl
@[simp] theorem updMgmt_fuses (f : Mgmt → Mgmt) : (updMgmt s f).fuses = s.fuses := rfl
@[simp] theorem updMgmt_regs (f : Mgmt → Mgmt) : (updMgmt s f).regs = s.regs := rfl
@[simp] theorem updMgmt_cores (f : Mgmt → Mgmt) : (updMgmt s f).cores = s.cores := rfl
@[simp] theorem updMgmt_units (f : Mgmt → Mgmt) : (updMgmt s f).units = s.units := rfl
@[simp] theorem updMgmt_coreMap (f : Mgmt → Mgmt) : (updMgmt s f).coreMap = s.coreMap := rfl
@[simp] theorem updMgmt_retiredCores (f : Mgmt → Mgmt) : (updMgmt s f).retiredCores = s.retiredCores := rfl
@[simp] theorem updMgmt_frozenCores (f : Mgmt → Mgmt) : (updMgmt s f).frozenCores = s.frozenCores := rfl
@[simp] theorem updMgmt_launches (f : Mgmt → Mgmt) : (updMgmt s f).launches = s.launches := rfl
@[simp] theorem updMgmt_nextLaunch (f : Mgmt → Mgmt) : (updMgmt s f).nextLaunch = s.nextLaunch := rfl
@[simp] theorem updMgmt_ms (f : Mgmt → Mgmt) : (updMgmt s f).ms = s.ms := rfl
@[simp] theorem updMgmt_hps (f : Mgmt → Mgmt) : (updMgmt s f).hps = s.hps := rfl
@[simp] theorem updMgmt_parts (f : Mgmt → Mgmt) : (updMgmt s f).parts = s.parts := rfl
@[simp] theorem updMgmt_ports (f : Mgmt → Mgmt) : (updMgmt s f).ports = s.ports := rfl
@[simp] theorem updMgmt_faults (f : Mgmt → Mgmt) : (updMgmt s f).faults = s.faults := rfl
@[simp] theorem updMgmt_power (f : Mgmt → Mgmt) : (updMgmt s f).power = s.power := rfl
@[simp] theorem updMgmt_evr (f : Mgmt → Mgmt) : (updMgmt s f).evr = s.evr := rfl
@[simp] theorem updMgmt_hostMem (f : Mgmt → Mgmt) : (updMgmt s f).hostMem = s.hostMem := rfl
@[simp] theorem updMgmt_hostFail (f : Mgmt → Mgmt) : (updMgmt s f).hostFail = s.hostFail := rfl
@[simp] theorem updMgmt_errors (f : Mgmt → Mgmt) : (updMgmt s f).errors = s.errors := rfl
@[simp] theorem updMgmt_out (f : Mgmt → Mgmt) : (updMgmt s f).out = s.out := rfl
@[simp] theorem updMgmt_raised (f : Mgmt → Mgmt) : (updMgmt s f).raised = s.raised := rfl
@[simp] theorem updMgmt_freeCtr (f : Mgmt → Mgmt) : (updMgmt s f).freeCtr = s.freeCtr := rfl
@[simp] theorem updMgmt_pending (f : Mgmt → Mgmt) : (updMgmt s f).pending = s.pending := rfl
@[simp] theorem updMgmt_part (f : Mgmt → Mgmt) (p' : Nat) : part (updMgmt s f) p' = part s p' := rfl
@[simp] theorem updMgmt_proof (f : Mgmt → Mgmt) (p' : Nat) : proof (updMgmt s f) p' = proof s p' := rfl
@[simp] theorem updMgmt_xport (f : Mgmt → Mgmt) (p' : Nat) : xport (updMgmt s f) p' = xport s p' := rfl
@[simp] theorem updMgmt_mirror (f : Mgmt → Mgmt) (p' : Nat) : mirror (updMgmt s f) p' = mirror s p' := rfl
@[simp] theorem updMgmt_snap (f : Mgmt → Mgmt) (p' : Nat) : snap (updMgmt s f) p' = snap s p' := rfl
@[simp] theorem updMgmt_hport (f : Mgmt → Mgmt) (h' : Nat) : hport (updMgmt s f) h' = hport s h' := rfl
@[simp] theorem updMgmt_queue (f : Mgmt → Mgmt) (h' q' : Nat) : queue (updMgmt s f) h' q' = queue s h' q' := rfl
@[simp] theorem updMgmt_core (f : Mgmt → Mgmt) (c' : Nat) : core (updMgmt s f) c' = core s c' := rfl
@[simp] theorem updMgmt_unitsOf (f : Mgmt → Mgmt) (c' : Nat) : unitsOf (updMgmt s f) c' = unitsOf s c' := rfl
@[simp] theorem updMgmt_port (f : Mgmt → Mgmt) (j' : Nat) : port (updMgmt s f) j' = port s j' := rfl
@[simp] theorem updMgmt_stack (f : Mgmt → Mgmt) (k' : Nat) : stack (updMgmt s f) k' = stack s k' := rfl
@[simp] theorem updMgmt_channel (f : Mgmt → Mgmt) (i' : Nat) : channel (updMgmt s f) i' = channel s i' := rfl

/-! ### updFaults -/

@[simp] theorem updFaults_pmode (f : Faults → Faults) : (updFaults s f).pmode = s.pmode := rfl
@[simp] theorem updFaults_ticks (f : Faults → Faults) : (updFaults s f).ticks = s.ticks := rfl
@[simp] theorem updFaults_pulses (f : Faults → Faults) : (updFaults s f).pulses = s.pulses := rfl
@[simp] theorem updFaults_pins (f : Faults → Faults) : (updFaults s f).pins = s.pins := rfl
@[simp] theorem updFaults_fuses (f : Faults → Faults) : (updFaults s f).fuses = s.fuses := rfl
@[simp] theorem updFaults_regs (f : Faults → Faults) : (updFaults s f).regs = s.regs := rfl
@[simp] theorem updFaults_cores (f : Faults → Faults) : (updFaults s f).cores = s.cores := rfl
@[simp] theorem updFaults_units (f : Faults → Faults) : (updFaults s f).units = s.units := rfl
@[simp] theorem updFaults_coreMap (f : Faults → Faults) : (updFaults s f).coreMap = s.coreMap := rfl
@[simp] theorem updFaults_retiredCores (f : Faults → Faults) : (updFaults s f).retiredCores = s.retiredCores := rfl
@[simp] theorem updFaults_frozenCores (f : Faults → Faults) : (updFaults s f).frozenCores = s.frozenCores := rfl
@[simp] theorem updFaults_launches (f : Faults → Faults) : (updFaults s f).launches = s.launches := rfl
@[simp] theorem updFaults_nextLaunch (f : Faults → Faults) : (updFaults s f).nextLaunch = s.nextLaunch := rfl
@[simp] theorem updFaults_ms (f : Faults → Faults) : (updFaults s f).ms = s.ms := rfl
@[simp] theorem updFaults_hps (f : Faults → Faults) : (updFaults s f).hps = s.hps := rfl
@[simp] theorem updFaults_parts (f : Faults → Faults) : (updFaults s f).parts = s.parts := rfl
@[simp] theorem updFaults_ports (f : Faults → Faults) : (updFaults s f).ports = s.ports := rfl
@[simp] theorem updFaults_power (f : Faults → Faults) : (updFaults s f).power = s.power := rfl
@[simp] theorem updFaults_mgmt (f : Faults → Faults) : (updFaults s f).mgmt = s.mgmt := rfl
@[simp] theorem updFaults_evr (f : Faults → Faults) : (updFaults s f).evr = s.evr := rfl
@[simp] theorem updFaults_hostMem (f : Faults → Faults) : (updFaults s f).hostMem = s.hostMem := rfl
@[simp] theorem updFaults_hostFail (f : Faults → Faults) : (updFaults s f).hostFail = s.hostFail := rfl
@[simp] theorem updFaults_errors (f : Faults → Faults) : (updFaults s f).errors = s.errors := rfl
@[simp] theorem updFaults_out (f : Faults → Faults) : (updFaults s f).out = s.out := rfl
@[simp] theorem updFaults_raised (f : Faults → Faults) : (updFaults s f).raised = s.raised := rfl
@[simp] theorem updFaults_freeCtr (f : Faults → Faults) : (updFaults s f).freeCtr = s.freeCtr := rfl
@[simp] theorem updFaults_pending (f : Faults → Faults) : (updFaults s f).pending = s.pending := rfl
@[simp] theorem updFaults_part (f : Faults → Faults) (p' : Nat) : part (updFaults s f) p' = part s p' := rfl
@[simp] theorem updFaults_proof (f : Faults → Faults) (p' : Nat) : proof (updFaults s f) p' = proof s p' := rfl
@[simp] theorem updFaults_xport (f : Faults → Faults) (p' : Nat) : xport (updFaults s f) p' = xport s p' := rfl
@[simp] theorem updFaults_mirror (f : Faults → Faults) (p' : Nat) : mirror (updFaults s f) p' = mirror s p' := rfl
@[simp] theorem updFaults_snap (f : Faults → Faults) (p' : Nat) : snap (updFaults s f) p' = snap s p' := rfl
@[simp] theorem updFaults_hport (f : Faults → Faults) (h' : Nat) : hport (updFaults s f) h' = hport s h' := rfl
@[simp] theorem updFaults_queue (f : Faults → Faults) (h' q' : Nat) : queue (updFaults s f) h' q' = queue s h' q' := rfl
@[simp] theorem updFaults_core (f : Faults → Faults) (c' : Nat) : core (updFaults s f) c' = core s c' := rfl
@[simp] theorem updFaults_unitsOf (f : Faults → Faults) (c' : Nat) : unitsOf (updFaults s f) c' = unitsOf s c' := rfl
@[simp] theorem updFaults_port (f : Faults → Faults) (j' : Nat) : port (updFaults s f) j' = port s j' := rfl
@[simp] theorem updFaults_stack (f : Faults → Faults) (k' : Nat) : stack (updFaults s f) k' = stack s k' := rfl
@[simp] theorem updFaults_channel (f : Faults → Faults) (i' : Nat) : channel (updFaults s f) i' = channel s i' := rfl

/-! ### updEvr -/

@[simp] theorem updEvr_pmode (f : Recorder → Recorder) : (updEvr s f).pmode = s.pmode := rfl
@[simp] theorem updEvr_ticks (f : Recorder → Recorder) : (updEvr s f).ticks = s.ticks := rfl
@[simp] theorem updEvr_pulses (f : Recorder → Recorder) : (updEvr s f).pulses = s.pulses := rfl
@[simp] theorem updEvr_pins (f : Recorder → Recorder) : (updEvr s f).pins = s.pins := rfl
@[simp] theorem updEvr_fuses (f : Recorder → Recorder) : (updEvr s f).fuses = s.fuses := rfl
@[simp] theorem updEvr_regs (f : Recorder → Recorder) : (updEvr s f).regs = s.regs := rfl
@[simp] theorem updEvr_cores (f : Recorder → Recorder) : (updEvr s f).cores = s.cores := rfl
@[simp] theorem updEvr_units (f : Recorder → Recorder) : (updEvr s f).units = s.units := rfl
@[simp] theorem updEvr_coreMap (f : Recorder → Recorder) : (updEvr s f).coreMap = s.coreMap := rfl
@[simp] theorem updEvr_retiredCores (f : Recorder → Recorder) : (updEvr s f).retiredCores = s.retiredCores := rfl
@[simp] theorem updEvr_frozenCores (f : Recorder → Recorder) : (updEvr s f).frozenCores = s.frozenCores := rfl
@[simp] theorem updEvr_launches (f : Recorder → Recorder) : (updEvr s f).launches = s.launches := rfl
@[simp] theorem updEvr_nextLaunch (f : Recorder → Recorder) : (updEvr s f).nextLaunch = s.nextLaunch := rfl
@[simp] theorem updEvr_ms (f : Recorder → Recorder) : (updEvr s f).ms = s.ms := rfl
@[simp] theorem updEvr_hps (f : Recorder → Recorder) : (updEvr s f).hps = s.hps := rfl
@[simp] theorem updEvr_parts (f : Recorder → Recorder) : (updEvr s f).parts = s.parts := rfl
@[simp] theorem updEvr_ports (f : Recorder → Recorder) : (updEvr s f).ports = s.ports := rfl
@[simp] theorem updEvr_faults (f : Recorder → Recorder) : (updEvr s f).faults = s.faults := rfl
@[simp] theorem updEvr_power (f : Recorder → Recorder) : (updEvr s f).power = s.power := rfl
@[simp] theorem updEvr_mgmt (f : Recorder → Recorder) : (updEvr s f).mgmt = s.mgmt := rfl
@[simp] theorem updEvr_hostMem (f : Recorder → Recorder) : (updEvr s f).hostMem = s.hostMem := rfl
@[simp] theorem updEvr_hostFail (f : Recorder → Recorder) : (updEvr s f).hostFail = s.hostFail := rfl
@[simp] theorem updEvr_errors (f : Recorder → Recorder) : (updEvr s f).errors = s.errors := rfl
@[simp] theorem updEvr_out (f : Recorder → Recorder) : (updEvr s f).out = s.out := rfl
@[simp] theorem updEvr_raised (f : Recorder → Recorder) : (updEvr s f).raised = s.raised := rfl
@[simp] theorem updEvr_freeCtr (f : Recorder → Recorder) : (updEvr s f).freeCtr = s.freeCtr := rfl
@[simp] theorem updEvr_pending (f : Recorder → Recorder) : (updEvr s f).pending = s.pending := rfl
@[simp] theorem updEvr_part (f : Recorder → Recorder) (p' : Nat) : part (updEvr s f) p' = part s p' := rfl
@[simp] theorem updEvr_proof (f : Recorder → Recorder) (p' : Nat) : proof (updEvr s f) p' = proof s p' := rfl
@[simp] theorem updEvr_xport (f : Recorder → Recorder) (p' : Nat) : xport (updEvr s f) p' = xport s p' := rfl
@[simp] theorem updEvr_mirror (f : Recorder → Recorder) (p' : Nat) : mirror (updEvr s f) p' = mirror s p' := rfl
@[simp] theorem updEvr_snap (f : Recorder → Recorder) (p' : Nat) : snap (updEvr s f) p' = snap s p' := rfl
@[simp] theorem updEvr_hport (f : Recorder → Recorder) (h' : Nat) : hport (updEvr s f) h' = hport s h' := rfl
@[simp] theorem updEvr_queue (f : Recorder → Recorder) (h' q' : Nat) : queue (updEvr s f) h' q' = queue s h' q' := rfl
@[simp] theorem updEvr_core (f : Recorder → Recorder) (c' : Nat) : core (updEvr s f) c' = core s c' := rfl
@[simp] theorem updEvr_unitsOf (f : Recorder → Recorder) (c' : Nat) : unitsOf (updEvr s f) c' = unitsOf s c' := rfl
@[simp] theorem updEvr_port (f : Recorder → Recorder) (j' : Nat) : port (updEvr s f) j' = port s j' := rfl
@[simp] theorem updEvr_stack (f : Recorder → Recorder) (k' : Nat) : stack (updEvr s f) k' = stack s k' := rfl
@[simp] theorem updEvr_channel (f : Recorder → Recorder) (i' : Nat) : channel (updEvr s f) i' = channel s i' := rfl

/-! ### emit -/

@[simp] theorem emit_pmode (o : Out) : (emit s o).pmode = s.pmode := rfl
@[simp] theorem emit_ticks (o : Out) : (emit s o).ticks = s.ticks := rfl
@[simp] theorem emit_pulses (o : Out) : (emit s o).pulses = s.pulses := rfl
@[simp] theorem emit_pins (o : Out) : (emit s o).pins = s.pins := rfl
@[simp] theorem emit_fuses (o : Out) : (emit s o).fuses = s.fuses := rfl
@[simp] theorem emit_regs (o : Out) : (emit s o).regs = s.regs := rfl
@[simp] theorem emit_cores (o : Out) : (emit s o).cores = s.cores := rfl
@[simp] theorem emit_units (o : Out) : (emit s o).units = s.units := rfl
@[simp] theorem emit_coreMap (o : Out) : (emit s o).coreMap = s.coreMap := rfl
@[simp] theorem emit_retiredCores (o : Out) : (emit s o).retiredCores = s.retiredCores := rfl
@[simp] theorem emit_frozenCores (o : Out) : (emit s o).frozenCores = s.frozenCores := rfl
@[simp] theorem emit_launches (o : Out) : (emit s o).launches = s.launches := rfl
@[simp] theorem emit_nextLaunch (o : Out) : (emit s o).nextLaunch = s.nextLaunch := rfl
@[simp] theorem emit_ms (o : Out) : (emit s o).ms = s.ms := rfl
@[simp] theorem emit_hps (o : Out) : (emit s o).hps = s.hps := rfl
@[simp] theorem emit_parts (o : Out) : (emit s o).parts = s.parts := rfl
@[simp] theorem emit_ports (o : Out) : (emit s o).ports = s.ports := rfl
@[simp] theorem emit_faults (o : Out) : (emit s o).faults = s.faults := rfl
@[simp] theorem emit_power (o : Out) : (emit s o).power = s.power := rfl
@[simp] theorem emit_mgmt (o : Out) : (emit s o).mgmt = s.mgmt := rfl
@[simp] theorem emit_evr (o : Out) : (emit s o).evr = s.evr := rfl
@[simp] theorem emit_hostMem (o : Out) : (emit s o).hostMem = s.hostMem := rfl
@[simp] theorem emit_hostFail (o : Out) : (emit s o).hostFail = s.hostFail := rfl
@[simp] theorem emit_errors (o : Out) : (emit s o).errors = s.errors := rfl
@[simp] theorem emit_raised (o : Out) : (emit s o).raised = s.raised := rfl
@[simp] theorem emit_freeCtr (o : Out) : (emit s o).freeCtr = s.freeCtr := rfl
@[simp] theorem emit_pending (o : Out) : (emit s o).pending = s.pending := rfl
@[simp] theorem emit_part (o : Out) (p' : Nat) : part (emit s o) p' = part s p' := rfl
@[simp] theorem emit_proof (o : Out) (p' : Nat) : proof (emit s o) p' = proof s p' := rfl
@[simp] theorem emit_xport (o : Out) (p' : Nat) : xport (emit s o) p' = xport s p' := rfl
@[simp] theorem emit_mirror (o : Out) (p' : Nat) : mirror (emit s o) p' = mirror s p' := rfl
@[simp] theorem emit_snap (o : Out) (p' : Nat) : snap (emit s o) p' = snap s p' := rfl
@[simp] theorem emit_hport (o : Out) (h' : Nat) : hport (emit s o) h' = hport s h' := rfl
@[simp] theorem emit_queue (o : Out) (h' q' : Nat) : queue (emit s o) h' q' = queue s h' q' := rfl
@[simp] theorem emit_core (o : Out) (c' : Nat) : core (emit s o) c' = core s c' := rfl
@[simp] theorem emit_unitsOf (o : Out) (c' : Nat) : unitsOf (emit s o) c' = unitsOf s c' := rfl
@[simp] theorem emit_port (o : Out) (j' : Nat) : port (emit s o) j' = port s j' := rfl
@[simp] theorem emit_stack (o : Out) (k' : Nat) : stack (emit s o) k' = stack s k' := rfl
@[simp] theorem emit_channel (o : Out) (i' : Nat) : channel (emit s o) i' = channel s i' := rfl

/-! ### setPhys -/

@[simp] theorem setPhys_pmode (l c : Nat) : (setPhys s l c).pmode = s.pmode := rfl
@[simp] theorem setPhys_ticks (l c : Nat) : (setPhys s l c).ticks = s.ticks := rfl
@[simp] theorem setPhys_pulses (l c : Nat) : (setPhys s l c).pulses = s.pulses := rfl
@[simp] theorem setPhys_pins (l c : Nat) : (setPhys s l c).pins = s.pins := rfl
@[simp] theorem setPhys_fuses (l c : Nat) : (setPhys s l c).fuses = s.fuses := rfl
@[simp] theorem setPhys_regs (l c : Nat) : (setPhys s l c).regs = s.regs := rfl
@[simp] theorem setPhys_cores (l c : Nat) : (setPhys s l c).cores = s.cores := rfl
@[simp] theorem setPhys_units (l c : Nat) : (setPhys s l c).units = s.units := rfl
@[simp] theorem setPhys_retiredCores (l c : Nat) : (setPhys s l c).retiredCores = s.retiredCores := rfl
@[simp] theorem setPhys_frozenCores (l c : Nat) : (setPhys s l c).frozenCores = s.frozenCores := rfl
@[simp] theorem setPhys_launches (l c : Nat) : (setPhys s l c).launches = s.launches := rfl
@[simp] theorem setPhys_nextLaunch (l c : Nat) : (setPhys s l c).nextLaunch = s.nextLaunch := rfl
@[simp] theorem setPhys_ms (l c : Nat) : (setPhys s l c).ms = s.ms := rfl
@[simp] theorem setPhys_hps (l c : Nat) : (setPhys s l c).hps = s.hps := rfl
@[simp] theorem setPhys_parts (l c : Nat) : (setPhys s l c).parts = s.parts := rfl
@[simp] theorem setPhys_ports (l c : Nat) : (setPhys s l c).ports = s.ports := rfl
@[simp] theorem setPhys_faults (l c : Nat) : (setPhys s l c).faults = s.faults := rfl
@[simp] theorem setPhys_power (l c : Nat) : (setPhys s l c).power = s.power := rfl
@[simp] theorem setPhys_mgmt (l c : Nat) : (setPhys s l c).mgmt = s.mgmt := rfl
@[simp] theorem setPhys_evr (l c : Nat) : (setPhys s l c).evr = s.evr := rfl
@[simp] theorem setPhys_hostMem (l c : Nat) : (setPhys s l c).hostMem = s.hostMem := rfl
@[simp] theorem setPhys_hostFail (l c : Nat) : (setPhys s l c).hostFail = s.hostFail := rfl
@[simp] theorem setPhys_errors (l c : Nat) : (setPhys s l c).errors = s.errors := rfl
@[simp] theorem setPhys_out (l c : Nat) : (setPhys s l c).out = s.out := rfl
@[simp] theorem setPhys_raised (l c : Nat) : (setPhys s l c).raised = s.raised := rfl
@[simp] theorem setPhys_freeCtr (l c : Nat) : (setPhys s l c).freeCtr = s.freeCtr := rfl
@[simp] theorem setPhys_pending (l c : Nat) : (setPhys s l c).pending = s.pending := rfl
@[simp] theorem setPhys_part (l c : Nat) (p' : Nat) : part (setPhys s l c) p' = part s p' := rfl
@[simp] theorem setPhys_proof (l c : Nat) (p' : Nat) : proof (setPhys s l c) p' = proof s p' := rfl
@[simp] theorem setPhys_xport (l c : Nat) (p' : Nat) : xport (setPhys s l c) p' = xport s p' := rfl
@[simp] theorem setPhys_mirror (l c : Nat) (p' : Nat) : mirror (setPhys s l c) p' = mirror s p' := rfl
@[simp] theorem setPhys_snap (l c : Nat) (p' : Nat) : snap (setPhys s l c) p' = snap s p' := rfl
@[simp] theorem setPhys_hport (l c : Nat) (h' : Nat) : hport (setPhys s l c) h' = hport s h' := rfl
@[simp] theorem setPhys_queue (l c : Nat) (h' q' : Nat) : queue (setPhys s l c) h' q' = queue s h' q' := rfl
@[simp] theorem setPhys_core (l c : Nat) (c' : Nat) : core (setPhys s l c) c' = core s c' := rfl
@[simp] theorem setPhys_unitsOf (l c : Nat) (c' : Nat) : unitsOf (setPhys s l c) c' = unitsOf s c' := rfl
@[simp] theorem setPhys_port (l c : Nat) (j' : Nat) : port (setPhys s l c) j' = port s j' := rfl
@[simp] theorem setPhys_stack (l c : Nat) (k' : Nat) : stack (setPhys s l c) k' = stack s k' := rfl
@[simp] theorem setPhys_channel (l c : Nat) (i' : Nat) : channel (setPhys s l c) i' = channel s i' := rfl

/-! ### setReg -/

@[simp] theorem setReg_pmode (i : RegInst) (off v : Nat) : (setReg s i off v).pmode = s.pmode := rfl
@[simp] theorem setReg_ticks (i : RegInst) (off v : Nat) : (setReg s i off v).ticks = s.ticks := rfl
@[simp] theorem setReg_pulses (i : RegInst) (off v : Nat) : (setReg s i off v).pulses = s.pulses := rfl
@[simp] theorem setReg_pins (i : RegInst) (off v : Nat) : (setReg s i off v).pins = s.pins := rfl
@[simp] theorem setReg_fuses (i : RegInst) (off v : Nat) : (setReg s i off v).fuses = s.fuses := rfl
@[simp] theorem setReg_cores (i : RegInst) (off v : Nat) : (setReg s i off v).cores = s.cores := rfl
@[simp] theorem setReg_units (i : RegInst) (off v : Nat) : (setReg s i off v).units = s.units := rfl
@[simp] theorem setReg_coreMap (i : RegInst) (off v : Nat) : (setReg s i off v).coreMap = s.coreMap := rfl
@[simp] theorem setReg_retiredCores (i : RegInst) (off v : Nat) : (setReg s i off v).retiredCores = s.retiredCores := rfl
@[simp] theorem setReg_frozenCores (i : RegInst) (off v : Nat) : (setReg s i off v).frozenCores = s.frozenCores := rfl
@[simp] theorem setReg_launches (i : RegInst) (off v : Nat) : (setReg s i off v).launches = s.launches := rfl
@[simp] theorem setReg_nextLaunch (i : RegInst) (off v : Nat) : (setReg s i off v).nextLaunch = s.nextLaunch := rfl
@[simp] theorem setReg_ms (i : RegInst) (off v : Nat) : (setReg s i off v).ms = s.ms := rfl
@[simp] theorem setReg_hps (i : RegInst) (off v : Nat) : (setReg s i off v).hps = s.hps := rfl
@[simp] theorem setReg_parts (i : RegInst) (off v : Nat) : (setReg s i off v).parts = s.parts := rfl
@[simp] theorem setReg_ports (i : RegInst) (off v : Nat) : (setReg s i off v).ports = s.ports := rfl
@[simp] theorem setReg_faults (i : RegInst) (off v : Nat) : (setReg s i off v).faults = s.faults := rfl
@[simp] theorem setReg_power (i : RegInst) (off v : Nat) : (setReg s i off v).power = s.power := rfl
@[simp] theorem setReg_mgmt (i : RegInst) (off v : Nat) : (setReg s i off v).mgmt = s.mgmt := rfl
@[simp] theorem setReg_evr (i : RegInst) (off v : Nat) : (setReg s i off v).evr = s.evr := rfl
@[simp] theorem setReg_hostMem (i : RegInst) (off v : Nat) : (setReg s i off v).hostMem = s.hostMem := rfl
@[simp] theorem setReg_hostFail (i : RegInst) (off v : Nat) : (setReg s i off v).hostFail = s.hostFail := rfl
@[simp] theorem setReg_errors (i : RegInst) (off v : Nat) : (setReg s i off v).errors = s.errors := rfl
@[simp] theorem setReg_out (i : RegInst) (off v : Nat) : (setReg s i off v).out = s.out := rfl
@[simp] theorem setReg_raised (i : RegInst) (off v : Nat) : (setReg s i off v).raised = s.raised := rfl
@[simp] theorem setReg_freeCtr (i : RegInst) (off v : Nat) : (setReg s i off v).freeCtr = s.freeCtr := rfl
@[simp] theorem setReg_pending (i : RegInst) (off v : Nat) : (setReg s i off v).pending = s.pending := rfl
@[simp] theorem setReg_part (i : RegInst) (off v : Nat) (p' : Nat) : part (setReg s i off v) p' = part s p' := rfl
@[simp] theorem setReg_proof (i : RegInst) (off v : Nat) (p' : Nat) : proof (setReg s i off v) p' = proof s p' := rfl
@[simp] theorem setReg_xport (i : RegInst) (off v : Nat) (p' : Nat) : xport (setReg s i off v) p' = xport s p' := rfl
@[simp] theorem setReg_mirror (i : RegInst) (off v : Nat) (p' : Nat) : mirror (setReg s i off v) p' = mirror s p' := rfl
@[simp] theorem setReg_snap (i : RegInst) (off v : Nat) (p' : Nat) : snap (setReg s i off v) p' = snap s p' := rfl
@[simp] theorem setReg_hport (i : RegInst) (off v : Nat) (h' : Nat) : hport (setReg s i off v) h' = hport s h' := rfl
@[simp] theorem setReg_queue (i : RegInst) (off v : Nat) (h' q' : Nat) : queue (setReg s i off v) h' q' = queue s h' q' := rfl
@[simp] theorem setReg_core (i : RegInst) (off v : Nat) (c' : Nat) : core (setReg s i off v) c' = core s c' := rfl
@[simp] theorem setReg_unitsOf (i : RegInst) (off v : Nat) (c' : Nat) : unitsOf (setReg s i off v) c' = unitsOf s c' := rfl
@[simp] theorem setReg_port (i : RegInst) (off v : Nat) (j' : Nat) : port (setReg s i off v) j' = port s j' := rfl
@[simp] theorem setReg_stack (i : RegInst) (off v : Nat) (k' : Nat) : stack (setReg s i off v) k' = stack s k' := rfl
@[simp] theorem setReg_channel (i : RegInst) (off v : Nat) (i' : Nat) : channel (setReg s i off v) i' = channel s i' := rfl

/-! ### What is read where it was written -/

theorem part_updPart (p q : Nat) (f : Part → Part) : part (updPart s p f) q = if q = p then f (part s p) else part s q := by
  simp [part, updPart, setPart, mget_mset]

theorem part_updProof (p q : Nat) (f : Proof → Proof) :
    part (updProof s p f) q = if q = p then { part s p with proof := f (part s p).proof } else part s q := part_updPart ..

theorem part_updXport (p q : Nat) (f : Xport → Xport) :
    part (updXport s p f) q = if q = p then { part s p with xport := f (part s p).xport } else part s q := part_updPart ..

theorem part_updMirror (p q : Nat) (f : Mirror → Mirror) :
    part (updMirror s p f) q = if q = p then { part s p with mirror := f (part s p).mirror } else part s q := part_updPart ..

theorem part_updSnap (p q : Nat) (f : Snap → Snap) :
    part (updSnap s p f) q = if q = p then { part s p with snap := f (part s p).snap } else part s q := part_updPart ..

@[simp] theorem part_updPart_same (p : Nat) (f : Part → Part) : part (updPart s p f) p = f (part s p) := by simp [part_updPart]
@[simp] theorem proof_updProof_same (p : Nat) (f : Proof → Proof) : proof (updProof s p f) p = f (proof s p) := by
  simp [proof, part_updProof]
@[simp] theorem xport_updXport_same (p : Nat) (f : Xport → Xport) : xport (updXport s p f) p = f (xport s p) := by
  simp [xport, part_updXport]
@[simp] theorem mirror_updMirror_same (p : Nat) (f : Mirror → Mirror) : mirror (updMirror s p f) p = f (mirror s p) := by
  simp [mirror, part_updMirror]
@[simp] theorem snap_updSnap_same (p : Nat) (f : Snap → Snap) : snap (updSnap s p f) p = f (snap s p) := by
  simp [snap, part_updSnap]

@[simp] theorem xport_updProof (p q : Nat) (f : Proof → Proof) : xport (updProof s p f) q = xport s q := by
  by_cases h : q = p <;> simp [xport, part_updProof, h]
@[simp] theorem mirror_updProof (p q : Nat) (f : Proof → Proof) : mirror (updProof s p f) q = mirror s q := by
  by_cases h : q = p <;> simp [mirror, part_updProof, h]
@[simp] theorem snap_updProof (p q : Nat) (f : Proof → Proof) : snap (updProof s p f) q = snap s q := by
  by_cases h : q = p <;> simp [snap, part_updProof, h]
@[simp] theorem proof_updXport (p q : Nat) (f : Xport → Xport) : proof (updXport s p f) q = proof s q := by
  by_cases h : q = p <;> simp [proof, part_updXport, h]
@[simp] theorem mirror_updXport (p q : Nat) (f : Xport → Xport) : mirror (updXport s p f) q = mirror s q := by
  by_cases h : q = p <;> simp [mirror, part_updXport, h]
@[simp] theorem snap_updXport (p q : Nat) (f : Xport → Xport) : snap (updXport s p f) q = snap s q := by
  by_cases h : q = p <;> simp [snap, part_updXport, h]
@[simp] theorem proof_updMirror (p q : Nat) (f : Mirror → Mirror) : proof (updMirror s p f) q = proof s q := by
  by_cases h : q = p <;> simp [proof, part_updMirror, h]
@[simp] theorem xport_updMirror (p q : Nat) (f : Mirror → Mirror) : xport (updMirror s p f) q = xport s q := by
  by_cases h : q = p <;> simp [xport, part_updMirror, h]
@[simp] theorem snap_updMirror (p q : Nat) (f : Mirror → Mirror) : snap (updMirror s p f) q = snap s q := by
  by_cases h : q = p <;> simp [snap, part_updMirror, h]
@[simp] theorem proof_updSnap (p q : Nat) (f : Snap → Snap) : proof (updSnap s p f) q = proof s q := by
  by_cases h : q = p <;> simp [proof, part_updSnap, h]
@[simp] theorem xport_updSnap (p q : Nat) (f : Snap → Snap) : xport (updSnap s p f) q = xport s q := by
  by_cases h : q = p <;> simp [xport, part_updSnap, h]
@[simp] theorem mirror_updSnap (p q : Nat) (f : Snap → Snap) : mirror (updSnap s p f) q = mirror s q := by
  by_cases h : q = p <;> simp [mirror, part_updSnap, h]

theorem hport_updHp (h k : Nat) (f : HostPort → HostPort) : hport (updHp s h f) k = if k = h then f (hport s h) else hport s k := by
  simp [hport, updHp, mget_mset]
@[simp] theorem hport_updHp_same (h : Nat) (f : HostPort → HostPort) : hport (updHp s h f) h = f (hport s h) := by
  simp [hport_updHp]

theorem hport_updQueue (h q k : Nat) (f : Queue → Queue) :
    hport (updQueue s h q f) k =
      if k = h then { hport s h with queues := mset (hport s h).queues {} q (f (queue s h q)) } else hport s k := by
  simp [updQueue, hport_updHp, queue]

theorem queue_updQueue (h q k r : Nat) (f : Queue → Queue) :
    queue (updQueue s h q f) k r = if k = h ∧ r = q then f (queue s h q) else queue s k r := by
  unfold queue
  rw [hport_updQueue]
  by_cases hk : k = h
  · subst hk
    simp only [if_true, true_and, mget_mset]
    by_cases hr : r = q <;> simp [hr, queue]
  · simp [hk]
@[simp] theorem queue_updQueue_same (h q : Nat) (f : Queue → Queue) : queue (updQueue s h q f) h q = f (queue s h q) := by
  simp [queue_updQueue]

theorem core_updCore (c k : Nat) (f : Core → Core) : core (updCore s c f) k = if k = c then f (core s c) else core s k := by
  simp [core, updCore, mget_mset]
@[simp] theorem core_updCore_same (c : Nat) (f : Core → Core) : core (updCore s c f) c = f (core s c) := by simp [core_updCore]

theorem unitsOf_updUnits (c k : Nat) (f : Units → Units) :
    unitsOf (updUnits s c f) k = if k = c then f (unitsOf s c) else unitsOf s k := by
  simp [unitsOf, updUnits, mget_mset]
@[simp] theorem unitsOf_updUnits_same (c : Nat) (f : Units → Units) : unitsOf (updUnits s c f) c = f (unitsOf s c) := by
  simp [unitsOf_updUnits]

theorem port_updPort (j k : Nat) (f : Port → Port) : port (updPort s j f) k = if k = j then f (port s j) else port s k := by
  simp [port, updPort, mget_mset]
@[simp] theorem port_updPort_same (j : Nat) (f : Port → Port) : port (updPort s j f) j = f (port s j) := by simp [port_updPort]

@[simp] theorem regW_setReg_same (i : RegInst) (off v : Nat) : regW (setReg s i off v) i off = v % 2 ^ 32 :=
  mget_mset_same s.regs (regReset (nparts s) off) (i.key off) (v % 2 ^ 32)

end Sys2Proof.Machine
end

