-- ==== Sys2Proof/Laws/Csq.lean ====
section
/-! SUPPORT. What the shared operations of the core sequencer answer. -/

namespace Sys2Proof.Machine

@[simp] theorem sset_pc (k : Core) (r : SReg) (v : BitVec 64) : (sset k r v).pc = k.pc := by unfold sset; split <;> rfl
@[simp] theorem sset_lastPcs (k : Core) (r : SReg) (v : BitVec 64) : (sset k r v).lastPcs = k.lastPcs := by
  unfold sset; split <;> rfl

/-- A register reads as written; s0 reads as 0. -/
theorem sget_sset (k : Core) (r q : SReg) (v : BitVec 64) :
    sget (sset k r v) q = if q = 0 then 0 else if q = r then v else sget k q := by
  by_cases hq : q = 0
  · simp [sget, hq]
  · unfold sget sset
    by_cases hr : r = 0
    · have h0 : ¬ q = (0 : SReg) := hq
      simp only [hr, if_true, h0, if_false]
    · simp only [hq, hr, if_false, mget_mset]
      by_cases e : q = r
      · simp [e]
      · have : q.toNat ≠ r.toNat := fun x => e (BitVec.eq_of_toNat_eq x)
        simp [e, this]

/-- An executing sequencer does its instruction. -/
theorem csqDo_runs {s : State} {c : Nat} (h : CsqRuns s c) (f : Core → Host.Outcome State Fault Refusal) :
    csqDo s c f = f (core s c) := by
  simp [csqDo, h.1, h.2]

/-- One that does not turns its instruction away. -/
theorem csqDo_away {s : State} {c : Nat} (h : csqReady s c = false) (f : Core → Host.Outcome State Fault Refusal) :
    csqDo s c f = .next s := by
  simp [csqDo, h]

/-- An instruction that goes on inside program memory. -/
theorem goTo_next (s : State) (c : Nat) (k : Core) (t : BitVec 64) (hp : k.pc = (core s c).pc)
    (hl : k.lastPcs = (core s c).lastPcs) (h : t.toNat < 2 ^ 18) : goTo s c k t = .next (retireAt s c k t.toNat) := by
  have ht : t.toNat < pmSize := h
  simp [goTo, stepTo, ht, retireAt, traced, hp, hl]

/-- An instruction that falls through. -/
theorem advance_next (s : State) (c : Nat) (k : Core) (hp : k.pc = (core s c).pc)
    (hl : k.lastPcs = (core s c).lastPcs) (h : (core s c).pc + 4 < 2 ^ 18) : advance s c k = .next (retire s c k) := by
  have e : (pcNext k).toNat = (core s c).pc + 4 := by
    simp only [pcNext, BitVec.toNat_ofNat, hp]; omega
  unfold advance
  rw [goTo_next s c k _ hp hl (by omega), e]; rfl

/-- An instruction with a result in s[rd]. -/
theorem putReg_runs {s : State} {c : CoreId} (rd : SReg) (f : Core → BitVec 64) (h : CsqRuns s c)
    (hpc : (core s c).pc + 4 < 2 ^ 18) : putReg s c rd f = .next (retire s c (sset (core s c) rd (f (core s c)))) := by
  unfold putReg
  rw [csqDo_runs h, advance_next _ _ _ (by simp) (by simp) hpc]

end Sys2Proof.Machine
end

