-- ==== Sys2Proof/Laws/Desc.lean ====
section
/-! SUPPORT. How a descriptor row comes to its body: what starting a descriptor does and what it leaves alone. -/

namespace Sys2Proof.Machine

/-- A command of an awake device ends by settling. -/
theorem done_awake {s : State} (h : awake s = true) (u : State) : done s u = .next (finish s u) := by simp [done, h]

/-- A device held in reset takes no command. -/
theorem done_asleep {s : State} (h : awake s = false) (u : State) : done s u = .next s := by simp [done, h]

section
variable (s : State) (h p q : Nat) (d : Desc)

@[simp] theorem takeDesc_pmode : (takeDesc s h p q d).1.pmode = s.pmode := rfl
@[simp] theorem takeDesc_pins : (takeDesc s h p q d).1.pins = s.pins := rfl
@[simp] theorem takeDesc_regs : (takeDesc s h p q d).1.regs = s.regs := rfl
@[simp] theorem takeDesc_ms : (takeDesc s h p q d).1.ms = s.ms := rfl
@[simp] theorem takeDesc_faults : (takeDesc s h p q d).1.faults = s.faults := rfl
@[simp] theorem takeDesc_cores : (takeDesc s h p q d).1.cores = s.cores := rfl
@[simp] theorem takeDesc_coreMap : (takeDesc s h p q d).1.coreMap = s.coreMap := rfl
@[simp] theorem takeDesc_hostMem : (takeDesc s h p q d).1.hostMem = s.hostMem := rfl
@[simp] theorem takeDesc_launches : (takeDesc s h p q d).1.launches = s.launches := rfl
@[simp] theorem takeDesc_nextLaunch : (takeDesc s h p q d).1.nextLaunch = s.nextLaunch := rfl
@[simp] theorem takeDesc_mgmt : (takeDesc s h p q d).1.mgmt = s.mgmt := rfl
@[simp] theorem takeDesc_desc : (takeDesc s h p q d).2.desc = d := rfl
@[simp] theorem takeDesc_q : (takeDesc s h p q d).2.q = q := rfl
@[simp] theorem takeDesc_replay : (takeDesc s h p q d).2.replay = false := rfl
@[simp] theorem takeDesc_step : (takeDesc s h p q d).2.step = stepOf s p d := rfl
@[simp] theorem takeDesc_proof (p' : Nat) : proof (takeDesc s h p q d).1 p' = proof s p' := by
  by_cases e : p' = p <;> simp [takeDesc, proof, part_updPart, e]
@[simp] theorem takeDesc_xport (p' : Nat) : xport (takeDesc s h p q d).1 p' = xport s p' := by
  by_cases e : p' = p <;> simp [takeDesc, xport, part_updPart, e]
@[simp] theorem takeDesc_snap (p' : Nat) : snap (takeDesc s h p q d).1 p' = snap s p' := by
  by_cases e : p' = p <;> simp [takeDesc, snap, part_updPart, e]
@[simp] theorem takeDesc_mirror (p' : Nat) : mirror (takeDesc s h p q d).1 p' = mirror s p' := by
  by_cases e : p' = p <;> simp [takeDesc, mirror, part_updPart, e]

end

/-- The descriptor that can start does. -/
theorem startDesc_can {s : State} {h p q : Nat} {d : Desc} (hp : hpPart s h = some p)
    (hc : canStartDesc s h p q d = true) :
    startDesc s h q d = (descBody (takeDesc s h p q d).1 h p (takeDesc s h p q d).2 none).run h (takeDesc s h p q d).2 := by
  simp [startDesc, hp, hc]

/-- A row whose descriptor starts runs the body of the opcode. -/
theorem descRow_starts {s : State} {h p q : Nat} {d : Desc} {op k : Nat} (st : Starts s h p q d op)
    (hs : ∀ x, descSub s p d = some x → x = k) :
    descRow s h q d op k =
      (descBody (takeDesc s h p q d).1 h p (takeDesc s h p q d).2 none).run h (takeDesc s h p q d).2 := by
  obtain ⟨-, hp, hc, -, -, ho⟩ := st
  have : fitsRow s h d op k = true := by
    simp only [fitsRow, hp, Option.getD_some, ho, beq_self_eq_true, Bool.true_and, Bool.or_eq_true]
    right
    cases e : descSub s p d with
    | none => rfl
    | some x => simp [hs x e]
  simp [descRow, this, startDesc_can hp hc]

/-- Check 1 of a started descriptor. -/
theorem encodingOk_take {s : State} {h p q : Nat} {d : Desc} (e : encodingOk s h q d = true) :
    encodingOk (takeDesc s h p q d).1 h (takeDesc s h p q d).2.q (takeDesc s h p q d).2.desc = true := e

end Sys2Proof.Machine
end

