-- ==== Sys2Proof/WellFormed.lean ====
section
/-! DEFINITION. Which commands are well formed: every operand lies within the width the spec gives it. `exec` is total
and gives ill-formed commands a meaning too; no sender of the spec can send one. -/

namespace Sys2Proof

/-- A packet within the widths of the transport header (10 R294, R295, R297). -/
def Packet.wf (p : Packet) : Bool :=
  decide (p.vc < 8) && decide (p.sub < 256) && decide (p.src < 2 ^ 20) && decide (p.dst < 2 ^ 20) &&
  decide (p.gen < 2 ^ 24) && decide (p.group < 2 ^ 16) && decide (p.addr < 2 ^ 48) && decide (p.msg < 2 ^ 32) &&
  decide (p.imptag < 2 ^ 32) && decide (p.data.length ≤ 4096) &&
  p.poison.all (fun r => decide (r.1 + r.2 ≤ p.data.length))

/-- A management frame within the widths of its header (15 R442, R443). -/
def Frame.wf (f : Frame) : Bool :=
  decide (f.version < 256) && decide (f.srcMac < 2 ^ 48) && decide (f.vlan < 2 ^ 12) && decide (f.etype < 2 ^ 16) &&
  decide (f.header.length = 32)

/-- A register access lies in the 64 MiB of BAR0 or in the 256 KiB of BAR2, whose offsets follow (08 R221), and has bytes;
other sizes than 4 and 8 are recorded (R223). -/
def accessWf (off size : Nat) : Bool :=
  decide (1 ≤ size) && (decide (off + size ≤ 2 ^ 26) || (decide (2 ^ 26 ≤ off) && decide (off + size ≤ 2 ^ 26 + 2 ^ 18)))

/-- Whether every operand of a command lies within its width. -/
def Instr.wf (i : Instr) : Bool :=
  match i with
  | .rmaOpen _ p | .rmaGrant _ p | .rmaRefuse _ p | .rmaData _ p | .rmaAck _ p | .collReady _ p | .collData _ p
  | .planes _ p | .hsWrite _ p | .hsRead _ p | .drReady _ p | .drDurable _ p | .drCommitted _ p | .drError _ p
  | .rdData _ p | .rdEnd _ p | .stop _ p | .report _ p | .decision _ p | .poll _ p | .up _ p | .proven _ p
  | .pulse _ p | .digest _ p | .mirrorOpen _ p | .grad _ p | .mirrorDone _ p | .seal _ p | .scale _ p
  | .ownRestore _ p | .scaleRestore _ p | .mirrorFill _ p | .shadowFill _ p | .stateXferEnd _ p => p.wf
  | .mgrHb _ f | .stoppressFrame _ f | .eventReq _ f | .strike _ f | .readmit _ f | .freezeLift _ f | .dump _ f
  | .mgmtReset _ f | .takeover _ f | .bootPref _ f | .owner _ f => f.wf
  | .bar4Access _ off _ len data =>
    decide (off < 2 ^ 40) && decide (0 < len) && decide (len ≤ 4096) && decide (data.bytes.length ≤ 4096)
  | .registerWrite _ off size _ => accessWf off size && decide (size < 256)
  | .latchedRead _ a => accessWf a.off a.size && decide (a.size < 256)
  | .bitAliasWrite _ off _ => decide (2 ^ 25 ≤ off) && decide (off + 4 ≤ 2 ^ 26)
  | .patrolScrub _ _ seen => decide (seen.length ≤ 4)
  | .berWindow _ seen => decide (seen.length = 8)
  | .powerPeriod ws _ => decide (ws.length = 16)
  | .sensorRead ts => decide (ts.length = 72)
  | .pmbusPoll rs => decide (rs.length = 4)
  | .neighbourLost _ r => decide (r < 65536)
  | .stepRetire _ n => decide (n < 2 ^ 48)
  | _ => true

end Sys2Proof
end

