-- ==== Sys2Proof/Tests/Slice0.lean ====
section
/-! SUPPORT. Ill-formed commands that are refused, small tests of single commands with results worked out from the spec, and
for every statement states and operands that meet its hypotheses, at the boundary values of its clauses. -/

namespace Sys2Proof.Machine.Tests

open Sys2Proof Sys2Proof.Machine

set_option Elab.async false
set_option maxRecDepth 100000
set_option synthInstance.maxSize 8192
set_option synthInstance.maxHeartbeats 2000000

/-! ### Commands that are not well formed -/

/-- A packet of 16 bytes. -/
def packet : Packet :=
  { vc := 0, sub := 0, src := 0, dst := 0, gen := 0, group := 0, addr := 0, msg := 0, imptag := 0, data := zeros 16, poison := [] }

/-- A frame with an empty body. -/
def frame : Frame := { version := 1, srcMac := 0, vlan := 0, etype := 0, forUs := true, header := zeros 32, body := [] }

theorem test_wf_packet : (Instr.grad 0 packet).wf = true ∧
    ∀ p ∈ [{ packet with vc := 8 }, { packet with sub := 256 }, { packet with src := 2 ^ 20 }, { packet with dst := 2 ^ 20 },
      { packet with gen := 2 ^ 24 }, { packet with group := 2 ^ 16 }, { packet with addr := 2 ^ 48 },
      { packet with msg := 2 ^ 32 }, { packet with imptag := 2 ^ 32 }, { packet with data := zeros 4097 },
      { packet with poison := [(8, 9)] }], (Instr.grad 0 p).wf = false := by decide +kernel

theorem test_wf_frame : (Instr.mgrHb 0 frame).wf = true ∧
    ∀ f ∈ [{ frame with version := 256 }, { frame with srcMac := 2 ^ 48 }, { frame with vlan := 4096 },
      { frame with etype := 65536 }, { frame with header := zeros 31 }], (Instr.mgrHb 0 f).wf = false := by decide +kernel

theorem test_wf_access : (Instr.registerWrite 0 0x3FFFFFC 4 0).wf = true ∧ (Instr.bar4Access 0 0 true 1 ⟨[0], true⟩).wf = true ∧
    (Instr.latchedRead 0 ⟨0x403FFFC, 4⟩).wf = true ∧
    ∀ i ∈ [Instr.registerWrite 0 0x3FFFFFD 4 0, .registerWrite 0 0 0 0, .registerWrite 0 0 256 0, .latchedRead 0 ⟨0x3FFFFFD, 4⟩,
      .latchedRead 0 ⟨0x403FFFD, 4⟩, .registerWrite 0 0x4040000 4 0,
      .bitAliasWrite 0 0x1FFFFFC 0, .bitAliasWrite 0 0x3FFFFFD 0, .bar4Access 0 (2 ^ 40) true 1 ⟨[0], false⟩, .bar4Access 0 0 true 0 ⟨[], false⟩,
      .bar4Access 0 0 true 4097 ⟨[0], false⟩, .bar4Access 0 0 true 1 ⟨(zeros 4097), false⟩], i.wf = false := by decide +kernel

theorem test_wf_lengths : ∀ i ∈ [Instr.patrolScrub 0 0 (List.replicate 5 .clean), .berWindow 0 [], .powerPeriod [0] 0, .sensorRead [0],
    .pmbusPoll [], .neighbourLost 0 65536, .stepRetire 0 (2 ^ 48)], i.wf = false := by decide +kernel

/-! ### The state of the tests: a READY device whose partition 0 has passed its start-up barrier -/

/-- READY, host port 0 up, its queue 0 RUNNING with one descriptor, page 0 of partition 0 mapped for reading and writing. -/
def on : State := { State.reset with
  pins := { stage := .ready }
  mgmt := { bothDown := false, standbyOk := true }
  hps := [(0, { linkUp := true, queues := [(0, { ringsz := 16, sqBase := 4096, cqBase := 8192, en := true, state := 1, tail := 1 })] })]
  parts := [(0, { pstate := 4, proof := { slice := 1, nextStep := 1 } })]
  ms := { tt := [(0, 0x7000000)] } }

/-- Partition 0 changed. -/
def inPart (f : Part → Part) (s : State) : State := updPart s 0 f
/-- Its proof machine changed. -/
def inProof (f : Proof → Proof) (s : State) : State := updProof s 0 f
/-- Its transport engine changed. -/
def inXport (f : Xport → Xport) (s : State) : State := updXport s 0 f
/-- Queue 0 of host port 0 changed. -/
def inQueue (f : Queue → Queue) (s : State) : State := updQueue s 0 0 f
/-- Host port 0 changed. -/
def inHp (f : HostPort → HostPort) (s : State) : State := updHp s 0 f

/-- The same with step 1 open. -/
def opened : State := inProof (fun x => { x with
  begun := true, openStep := some 1, nextStep := 2, steps := [{ step := 1, state := 1, recVa := 0 }] }) on

/-- Core 0 running as `k` says. -/
def runs (k : Core) : State := { on with cores := [(0, { k with csq := .running })] }

/-- What a command answers, looked at. -/
def after {α : Type} (i : Instr) (s : State) (f : State → α) : Option α := match exec i s with
  | .next t => some (f t)
  | _ => none

/-! ### The core sequencer -/

/-- The encodings that 05 works out, and one word of every form written from R125. -/
theorem test_csq_words :
    decodeCsq 3 0x0002A03D = some (.csqTissue 3 0 21 0 0) ∧ decodeCsq 3 0x001CA03A = some (.csqSemtake 3 0 5 7) ∧
    decodeCsq 3 0x00080602 = some (.csqAddi 3 6 0 2) ∧
    decodeCsq 0 0b000001011_00011_00010_00001_00000001#32 = some (.csqRem 0 1 2 3) ∧
    decodeCsq 0 0b11111111111111_00010_00001_00011011#32 = some (.csqSt64 0 1 2 0x3FFF) ∧
    decodeCsq 0 0b1111111111111111110_00001_00101000#32 = some (.csqJal 0 1 0x7FFFE) ∧
    decodeCsq 0 0b000010010_00011_00010_00001_00000001#32 = none ∧ decodeCsq 0 0x000000FF = none := by decide +kernel

/-- Register 1 of core 0 after a command. -/
def s1After (i : Instr) (k : Core) : Option (BitVec 64) := after i (runs k) (fun t => sget (core t 0) 1)

theorem test_csq_division : -- R127
    s1After (.csqDiv 0 1 2 0) { sregs := [(2, 7)] } = some 0 ∧ s1After (.csqRem 0 1 2 0) { sregs := [(2, 7)] } = some 0 ∧
    s1After (.csqDiv 0 1 2 3) { sregs := [(2, BitVec.ofInt 64 (-7)), (3, 2)] } = some (BitVec.ofInt 64 (-3)) ∧
    s1After (.csqRem 0 1 2 3) { sregs := [(2, BitVec.ofInt 64 (-7)), (3, 2)] } = some (BitVec.ofInt 64 (-1)) ∧
    s1After (.csqDiv 0 1 2 3) { sregs := [(2, 0x8000000000000000), (3, BitVec.allOnes 64)] } = some 0x7FFFFFFFFFFFFFFF ∧
    s1After (.csqRem 0 1 2 3) { sregs := [(2, 0x8000000000000000), (3, BitVec.allOnes 64)] } = some 0 := by decide +kernel

theorem test_csq_immediates : -- R125: IMM14 is sign-extended, for SLTIU and ANDI too
    s1After (.csqSltiu 0 1 2 0x3FFF) { sregs := [(2, BitVec.allOnes 64)] } = some 0 ∧
    s1After (.csqSltiu 0 1 2 0x3FFF) { sregs := [(2, 0xFFFFFFFFFFFFFFFE)] } = some 1 ∧
    s1After (.csqAndi 0 1 2 0x3FFE) { sregs := [(2, BitVec.allOnes 64)] } = some 0xFFFFFFFFFFFFFFFE ∧
    s1After (.csqLui 0 1 0x40000) {} = some 0xFFFFFFFF00000000 ∧
    s1After (.csqSra 0 1 2 3) { sregs := [(2, 0x8000000000000000), (3, 127)] } = some (BitVec.allOnes 64) ∧
    s1After (.csqAddi 0 0 0 5) {} = some 0 := by decide +kernel

theorem test_csq_loads_sign : -- R126
    s1After (.csqLd8 0 1 0 4) { spad := [(4, 0x80)] } = some 0xFFFFFFFFFFFFFF80 ∧
    s1After (.csqLdu8 0 1 0 4) { spad := [(4, 0x80)] } = some 0x80 ∧
    s1After (.csqLd16 0 1 0 4) { spad := [(4, 0x34), (5, 0x12)] } = some 0x1234 ∧
    after (.csqSt16 0 1 0 4) (runs { sregs := [(1, 0x11223344)] }) (fun t => (core t 0).spad) = some [(4, 0x44), (5, 0x33)] := by
  decide +kernel

theorem witness_CsqArithmetic : CsqRuns (runs { pc := 0x3FFF8 }) 0 ∧ (core (runs { pc := 0x3FFF8 }) 0).pc + 4 < 2 ^ 18 ∧
    (63 : BitVec 14).toNat < 64 := by unfold CsqRuns; decide +kernel

theorem witness_CsqLoadsAndStores : ∀ n ∈ [1, 2, 4, 8],
    let s := runs { sregs := [(1, BitVec.ofNat 64 (0xC00001 - n))] }
    let a := (sget (core s 0) 1 + BitVec.ofInt 64 (0x3FFF : BitVec 14).toInt).toNat
    CsqRuns s 0 ∧ (core s 0).pc + 4 < 2 ^ 18 ∧ a % n = 0 ∧ a + n = 0xC00000 ∧ (spadRead (core s 0) a n).bad = false := by
  unfold CsqRuns; decide +kernel

theorem witness_CsqBranchesAndJumps :
    let s := runs { pc := 0x3FFF8, sregs := [(1, 0x3FFFC)] }
    let rel (x : Int) : Nat := (BitVec.ofInt 64 ((((core s 0).pc : Nat) : Int) + 4 * x)).toNat
    CsqRuns s 0 ∧ (∀ t, rel (if t = true then (0x2000 : BitVec 14).toInt else 1) < 2 ^ 18) ∧
    rel (0x7FFFF : BitVec 19).toInt < 2 ^ 18 ∧ (sget (core s 0) 1 + BitVec.ofInt 64 0).toNat < 2 ^ 18 ∧
    (sget (core s 0) 1 + BitVec.ofInt 64 0).toNat % 4 = 0 := by unfold CsqRuns; decide +kernel

theorem witness_CsqRegistersAndControlSpace : CsqRuns (runs {}) 0 ∧
    ∀ i ∈ [0x000, 0x011, 0x040, 0x07F, 0x100, 0x105, 0x106, 0x107, 0x17F, 0x180, 0x183, 0x193],
      (BitVec.ofNat 14 i).toNat < 4096 ∧ (csRead (runs {}) 0 (core (runs {}) 0) (BitVec.ofNat 14 i).toNat).isSome = true := by
  unfold CsqRuns; decide +kernel

/-- Core 0 at a BAR of scope 0 of LAUNCH 1, which names logical core 0 alone. -/
def waitsAtBar : State := { runs {} with
  cores := [(0, { csq := .barrier false, launch := 1 })]
  launches := [{ id := 1, part := 0, mask := 1, argva := 0, exitva := 0, image := none, step := none, loaded := true, waiting := [],
                 running := [0] }] }

theorem witness_CsqSemaphoresAndBarriers :
    let s (v : Nat) : State := runs { sregs := [(1, BitVec.ofNat 64 v), (2, 5)], sem := [(5, 7)] }
    CsqRuns (s 7) 0 ∧ (core (s 7) 0).pc + 4 < 2 ^ 18 ∧ (63 : BitVec 14).toNat < 64 ∧
    (semOf (core (s 0xFFFFFFF8) 0) 5 + 0xFFFFFFF8 < 2 ^ 32 ∧ 2 ^ 32 ≤ semOf (core (s 0xFFFFFFF9) 0) 5 + 0xFFFFFFF9) ∧
    (7 ≤ semOf (core (s 7) 0) 5 ∧ semOf (core (s 8) 0) 5 < 8) ∧ (0 : BitVec 14).toNat < 2 ∧ (1 : BitVec 14).toNat < 2 ∧
    awake waitsAtBar = true ∧ (launchOf waitsAtBar 1).isSome = true ∧
    ((launchOf waitsAtBar 1).any fun l => participants l false 0 == [0] &&
      decide (∀ n ∈ participants l false 0,
        (core waitsAtBar (physOf waitsAtBar n)).launch = 1 ∧ (core waitsAtBar (physOf waitsAtBar n)).csq = .barrier false)) = true := by
  unfold CsqRuns; decide +kernel

theorem test_semaphore_saturates : -- R142
    after (.csqSemsig 0 0 1 5) (runs { sregs := [(1, 0xFFFFFFFF)], sem := [(5, 1)] })
      (fun t => (semOf (core t 0) 5, (core t 0).semSat)) = some (0xFFFFFFFF, true) ∧
    after (.csqSemtake 0 0 1 5) (runs { sregs := [(1, 2)], sem := [(5, 1)] }) (fun t => ((core t 0).pc, semOf (core t 0) 5)) =
      some (0, 1) := by decide +kernel

theorem test_barrier_release :
    after (.barrierRelease 1 false 0) waitsAtBar (fun t => (core t 0).csq) = some .running := by decide +kernel

/-- A stream instruction with slot 0 and its block at 0 (R132, R133). -/
def tissues : State := runs { pc := 0x3FFF8, sregs := [(1, 2)] }

theorem witness_CsqTissueAndHalt :
    let e := issueEntry tissues 0 (core tissues 0) (sget (core tissues 0) 0 ++ sget (core tissues 0) 1)
    CsqRuns tissues 0 ∧ (core tissues 0).pc + 4 < 2 ^ 18 ∧ e.unit < 4 ∧ (unitQ (unitsOf tissues 0) e.unit).length < 16 ∧
    issueCheck e = none ∧ queuesEmpty (unitsOf tissues 0) = true ∧
    CsqRuns (enqueue tissues 0 e) 0 ∧ queuesEmpty (unitsOf (enqueue tissues 0 e) 0) = false := by unfold CsqRuns; decide +kernel

theorem test_halt_frees : after (.csqHalt 0 0 1 0) tissues (fun t => (core t 0).csq) = some .idle ∧
    after (.csqTissue 0 0 1 0 0) tissues (fun t => ((core t 0).pc, (unitsOf t 0).sf.length)) = some (0x3FFFC, 1) := by decide +kernel

theorem witness_CsqFaultsAndTurnedAway :
    let s (v : Nat) : State := runs { pc := 0x3FFFC, sregs := [(1, BitVec.ofNat 64 v)] }
    let a (v : Nat) : Nat := (sget (core (s v) 0) 1 + BitVec.ofInt 64 0).toNat
    CsqRuns (s 0) 0 ∧ a 7 % 8 ≠ 0 ∧ (a 0xC00000 % 8 = 0 ∧ 0xC00000 < a 0xC00000 + 8) ∧ 64 ≤ (64 : BitVec 14).toNat ∧
    a 0xC00002 % 4 ≠ 0 ∧ 4096 ≤ (4096 : BitVec 14).toNat ∧ csRead (s 0) 0 (core (s 0) 0) 0x00B = none ∧
    2 ^ 18 ≤ (BitVec.ofInt 64 ((((core (s 0) 0).pc : Nat) : Int) + 4 * ((1 : BitVec 14).toNat : Int))).toNat ∧
    encodeCsq (.csqAddi 0 6 0 2) = some 0x00080602 ∧ decodeCsq 0 0x00080602 = some (.csqAddi 0 6 0 2) ∧ csqReady on 0 = false := by
  unfold CsqRuns; decide +kernel

theorem witness_CsqDecodeOfEncode : encodeCsq (.csqAddi 3 6 0 2) = some 0x00080602 := by decide +kernel

theorem witness_CsqEncodeOfDecode : decodeCsq 3 0x00080602 = some (.csqAddi 3 6 0 2) := by decide +kernel

/-! ### The block and its queue -/

theorem witness_StepRunsTheFrontCommand : { on with pending := [.powerLoss, .ready] }.pending = .powerLoss :: [.ready] := by decide

theorem witness_EveryStepTakesOneCommandAndLeavesNoEventUnhandled :
    { on with pending := [.powerLoss] }.raised = [] ∧ (∃ t, step { on with pending := [.powerLoss] } = .next t) ∧
    ∃ t, step State.reset = .next t := ⟨rfl, ⟨_, rfl⟩, ⟨_, rfl⟩⟩

theorem witness_NoCommandTouchesTheQueue : ∃ t, exec .powerLoss on = .next t := ⟨_, rfl⟩

/-- In RECOVERY, with no port at work, the engines have nothing to do; held in reset the device sleeps. -/
theorem witness_EnginesWithNothingToDoChangeNothing :
    awake State.reset = true ∧ Calm State.reset ∧ awake { State.reset with pins := { stage := .held } } = false := by
  refine ⟨rfl, ?_, rfl⟩
  unfold Calm; decide +kernel

/-! ### Descriptors -/

/-- A descriptor of opcode `op` with values at byte offsets. -/
def desc (op : Nat) (fs : List (Nat × Nat)) : Desc := BitVec.ofNat 512 (fs.foldl (fun a f => a + f.2 * 2 ^ (8 * f.1)) op)

/-- A descriptor of a row. -/
def rowDesc (op sub : Nat) : Desc := desc op (if op = 0x0B then [] else if op = 0x10 then [(8, [0, 1, 2].getD sub 0)] else [(8, sub)])

/-- The state in which it is one: an OPTIM's recipe stands in its block. -/
def rowState (op sub : Nat) : State := { on with ms := { on.ms with mem := if op = 0x0B ∧ sub ≠ 0 then [(0, BitVec.ofNat 8 sub)] else [] } }

theorem witness_EveryDescriptorRowStartsItsDescriptor : descriptorRows.length = 40 ∧ ∀ r ∈ descriptorRows,
    let s := rowState r.2.1 r.2.2
    let d := rowDesc r.2.1 r.2.2
    awake s = true ∧ hpPart s 0 = some 0 ∧ canStartDesc s 0 0 0 d = true ∧ fitsRow s 0 d r.2.1 r.2.2 = true := by decide +kernel

theorem witness_DescriptorChecks :
    let oos := { on with faults := { oos := true } }
    let d := desc 0x00 [(16, 1)]
    (awake oos = true ∧ hpPart oos 0 = some 0 ∧ canStartDesc oos 0 0 0 0 = true ∧ fitsRow oos 0 0 0 0 = true ∧ oos.faults.oos = true) ∧
    (canStartDesc on 0 0 0 d = true ∧ fitsRow on 0 d 0 0 = true ∧ on.faults.oos = false ∧ dOpcode d ≠ 0x0B ∧
      encodingOk on 0 0 d = false) ∧
    awake { on with pins := { on.pins with stage := .held } } = false ∧ fitsRow on 0 (desc 0x02 []) 0x00 0 = false ∧
    (∀ p, hpPart on 1 = some p → canStartDesc on 1 p 0 0 = false) := by
  refine ⟨by decide +kernel, by decide +kernel, by decide +kernel, by decide +kernel, ?_⟩
  intro p h; simp [show hpPart on 1 = none from by decide +kernel] at h

theorem witness_DescriptorChecks_arguments :
    (∀ a ∈ [0, 5], Starts on 0 0 0 (desc 0x1C [(10, a)]) 0x1C ∧ dF (desc 0x1C [(10, a)]) 10 0 16 = a) ∧
    (∀ a ∈ [3, 11], Starts on 0 0 0 (desc 0x1C [(8, 1), (10, a)]) 0x1C ∧ dF (desc 0x1C [(8, 1), (10, a)]) 8 0 8 = 1) ∧
    (Starts on 0 0 0 (desc 0x1C [(8, 3)]) 0x1C ∧ (proof on 0).openStep = none) ∧
    (∀ a ∈ [0, 3601], Starts on 0 0 0 (desc 0x1D [(8, 1), (10, a)]) 0x1D ∧ dF (desc 0x1D [(8, 1), (10, a)]) 10 0 16 = a) ∧
    (let s := { on with mgmt := { on.mgmt with owner := 1 } }
     Starts s 0 0 0 (desc 0x1D [(8, 1), (10, 3600)]) 0x1D ∧ isOwner s 0 = false) ∧
    (let d := desc 0x1D [(8, 3), (10, 0x1000)]
     Starts on 0 0 0 d 0x1D ∧ (injectFault (dF d 10 0 16 / 4096) (dF d 10 0 16 % 4096)).map (·.1) = some (ucCore 0) ∧
       unitPart on (ucCore 0) = 0 ∧ regF on .dev 0x00C0804 12 1 = 0) := by unfold Starts; decide +kernel

theorem witness_DescriptorsThatCompleteAtOnce :
    let inj := setRegF on .dev 0x00C0804 12 1 1
    Starts on 0 0 0 0 0x00 ∧
    (Starts on 0 0 0 (desc 0x1A [(9, 63), (16, 2 ^ 64 - 1)]) 0x1A ∧ bitOf (desc 0x1A [(9, 63), (16, 2 ^ 64 - 1)]) 64 = false) ∧
    Starts on 0 0 0 (desc 0x1A []) 0x1A ∧
    (Starts on 0 0 0 (desc 0x1A [(8, 1)]) 0x1A ∧ bitOf (desc 0x1A [(8, 1)]) 64 = true) ∧
    (∀ a ∈ [1, 4], Starts on 0 0 0 (desc 0x1C [(10, a)]) 0x1C) ∧ (∀ a ∈ [4, 10], Starts on 0 0 0 (desc 0x1C [(8, 1), (10, a)]) 0x1C) ∧
    (Starts opened 0 0 0 (desc 0x1C [(8, 3)]) 0x1C ∧ (proof opened 0).openStep = some 1) ∧
    (∀ a ∈ [1, 3600], Starts on 0 0 0 (desc 0x1D [(8, 1), (10, a)]) 0x1D ∧ isOwner on 0 = true) ∧
    (Starts inj 0 0 0 (desc 0x1D [(8, 3), (10, 0x1000)]) 0x1D ∧ regF inj .dev 0x00C0804 12 1 = 1) ∧
    (∀ n ∈ [1, 65536], let d := desc 0x0C [(8, 1), (20, n)]
      Starts opened 0 0 0 d 0x0C ∧ dF d 8 0 48 = 1 ∧ stepOf opened 0 d = some 1 ∧ 1 ≤ dF d 20 0 32 ∧ dF d 20 0 32 ≤ 65536) := by
  unfold Starts; decide +kernel

theorem test_signal_saturates : -- 08 R236: an event counter stops at 2^64 - 1
    after (.signalAdd 0 0 (desc 0x1A [(9, 63), (16, 2 ^ 64 - 1)])) (setEc on 0 63 7) (fun t => ecOf t 0 63) = some (2 ^ 64 - 1) := by
  decide +kernel

theorem test_completion_entry : -- 08 R236: TAG is in bytes 4 to 7
    after (.nop 0 0 (desc 0x00 [(4, 0x12345678)])) on (fun t => (queue t 0 0).lastTag) = some 0x12345678 := by decide +kernel

/-- COPY of `n` bytes. -/
def copyDesc (src dst n : Nat) : Desc := desc 0x01 [(8, src), (16, dst), (24, n)]
/-- FILL of `n` bytes. -/
def fillDesc (dst n : Nat) : Desc := desc 0x02 [(8, dst), (16, n), (24, 0x0807060504030201)]

theorem witness_CopyFillAndRecords :
    let j := copyDesc (2 ^ 47) 0x100 64 + desc 0x800 []
    let s := setRegF opened (.part 0) 0x0800480 16 6 1
    let c := copyDesc 0x7FFC0 0 64
    (Starts on 0 0 0 c 0x01 ∧ (isHostVa (cpSrc c) && isHostVa (cpDst c)) = false ∧ rangesMeet (cpSrc c, 64) (cpDst c, 64) = false ∧
      fencedMem on 0 (cpSrc c) 64 = false ∧ fencedMem on 0 (cpDst c) 64 = false ∧ cpLen c = 64 ∧
      scopeOk on 0 .host false (cpSrc c) 64 = true ∧ scopeOk on 0 .host true (cpDst c) 64 = true ∧ HasRoom on 0 [(cpDst c, 64)] ∧ keepsInput on 0 c = false) ∧
    (Starts on 0 0 0 (copyDesc 0 64 0) 0x01 ∧ cpLen (copyDesc 0 64 0) = 0) ∧
    (Starts s 0 0 0 j 0x01 ∧ (isHostVa (cpSrc j) && isHostVa (cpDst j)) = false ∧ rangesMeet (cpSrc j, 64) (cpDst j, 64) = false ∧
      fencedMem s 0 (cpSrc j) 64 = false ∧ fencedMem s 0 (cpDst j) 64 = false ∧ HasRoom s 0 [(cpDst j, 64)] ∧
      scopeOk s 0 .host false (cpSrc j) 64 = true ∧ scopeOk s 0 .host true (cpDst j) 64 = true ∧ keepsInput s 0 j = true ∧
      stepOf s 0 j = some 1 ∧ inputHeld s 0 + 64 ≤ inputRoom s 0) ∧
    (Starts on 0 0 0 (fillDesc 0x7FFFF 1) 0x02 ∧ fencedMem on 0 0x7FFFF 1 = false ∧ scopeOk on 0 .host true 0x7FFFF 1 = true ∧
      HasRoom on 0 [(0x7FFFF, 1)]) ∧
    (Starts on 0 0 0 (fillDesc 0 0) 0x02 ∧ dF (fillDesc 0 0) 16 0 40 = 0) ∧
    (Starts on 0 0 0 (fillDesc 0x80000 1) 0x02 ∧ fencedMem on 0 0x80000 1 = false ∧ dF (fillDesc 0x80000 1) 16 0 40 = 1 ∧
      scopeOk on 0 .host true 0x80000 1 = false) ∧
    (∀ op ∈ [0x1C, 0x1D], Starts on 0 0 0 (desc op [(8, 2), (16, 0x7FFC0)]) op ∧ fencedMem on 0 0x7FFC0 64 = false ∧
      scopeOk on 0 .host true 0x7FFC0 64 = true) := by unfold Starts HasRoom; decide +kernel

theorem test_fill_pattern : -- 08 R240: the pattern's byte at address a is byte a mod 8
    after (.fill 0 0 (fillDesc 6 3)) on (fun t => t.ms.mem) = some [(6, 7), (7, 8), (8, 1)] := by decide +kernel

theorem test_fill_out_of_scope : -- 08 R235, R239
    after (.fill 0 0 (fillDesc 0x80000 1)) on (fun t => ((queue t 0 0).state, t.ms.mem)) = some (3, []) := by decide +kernel

/-- An image stands in the cores of logical cores 0 and 119. -/
def loadedCores : State := updCore (updCore on (physOf on 0) (fun k => { k with imageValid := true })) (physOf on 119)
  (fun k => { k with imageValid := true })

/-- LAUNCH of logical cores 0 and 119 without an image. -/
def launchDesc : Desc := desc 0x03 [(8, 1 + 2 ^ 119), (32, 0x1000)]

/-- A partition with a snapshot area. -/
def snapArea (s : State) : State := setRegF s (.part 0) 0x0300040 16 7 4

theorem witness_DescriptorsThatWait :
    let snap_ := snapArea opened
    (∀ x ∈ [0, 1], Starts on 0 0 0 (desc 0x18 [(8, x)]) 0x18) ∧
    (∀ x ∈ [0, 3], Starts on 0 0 0 (desc 0x19 [(8, x), (9, 63)]) 0x19 ∧ dF (desc 0x19 [(8, x), (9, 63)]) 8 0 3 ≤ 3) ∧
    (let d := desc 0x08 [(8, 1), (16, 0x7FFE0)]
     Starts on 0 0 0 d 0x08 ∧ passed on 0 = true ∧ 0x7FFE0 % 32 = 0 ∧ dF d 8 0 48 = (proof on 0).nextStep ∧
       dF d 14 0 16 = (xport on 0).epoch ∧ fencedMem on 0 0x7FFE0 32 = false ∧ scopeOk on 0 .host true 0x7FFE0 32 = true) ∧
    (Starts opened 0 0 0 (desc 0x0A [(8, 1)]) 0x0A ∧ passed opened 0 = true ∧ (proof opened 0).openStep = some 1) ∧
    (∀ x ∈ [0, 1], let d := desc 0x10 [(8, x)]
      Starts snap_ 0 0 0 d 0x10 ∧ passed snap_ 0 = true ∧ bitOf d 65 = false ∧ (stepOf snap_ 0 d).isSome = true ∧
        (proof snap_ 0).mbb = none ∧ snapRefused (takeDesc snap_ 0 0 0 d).1 0 false = false ∧ bitOf d 64 = (x == 1) ∧
        bitOf d 66 = false) ∧
    (∀ a ∈ [0, 127, 128, 139], let d := desc 0x1D [(10, a)]
      Starts on 0 0 0 d 0x1D ∧ unitRetired on (testUnit (dF d 10 0 16)) = false ∧ unitPart on (testUnit (dF d 10 0 16)) = 0) ∧
    (let named := bitsSet (dF launchDesc 8 0 120) 120
     Starts loadedCores 0 0 0 launchDesc 0x03 ∧ named = [0, 119] ∧
       (∀ c ∈ named, lcorePart loadedCores c = 0 ∧ (core loadedCores (physOf loadedCores c)).imageValid = true ∧
         smem loadedCores.frozenCores c = false) ∧
       fencedMem loadedCores 0 0x1000 1920 = false ∧ scopeOk loadedCores 0 .host true 0x1000 1920 = true) := by
  unfold Starts; decide +kernel

theorem test_launch_joins : after (.launch 0 0 launchDesc) loadedCores
    (fun t => t.launches.map (fun l => (l.id, l.waiting, l.loaded))) = some [(1, [0, 119], true)] := by decide +kernel

/-- Two ranks that face each other, device IDs 0 and 1, the own rank 0; family 0 holds both. -/
def imposed : Imposition := { slice := 0, epoch := 0, budget := 4, crc := 0x1ABCDEF01, member := [], ports := []
                              ranks := [⟨0, 1, 1⟩, ⟨1, 0, 1⟩], families := [(0, (1, 2))] }

/-- The slice of two, J0 ACTIVE with credits, step 1 open. -/
def fab : State := { inXport (fun x => { x with imp := some imposed, active := 1, peers := [(1, 1)] }) opened with
  ports := [(0, { state := 5, link := { credit := (List.range 8).map (fun v => (v, 64)), creditInit := true } })] }

/-- A COLLECTIVE of family 0. -/
def collDesc (cop src dst n : Nat) : Desc := desc 0x04 [(8, cop), (16, src), (24, dst), (32, n)]
/-- A PUT or GET with group rank `r` of family 0. -/
def rmaDesc (cop r src dst n : Nat) : Desc := desc 0x04 [(8, cop), (14, r), (16, src), (24, dst), (32, n)]

theorem witness_CollectivesAndRemoteAccess : passed fab 0 = true ∧ NoneInjected fab ∧
    (∀ c ∈ [0, 1, 2, 3, 4], let d := collDesc c 0 0x1000 64
      Starts fab 0 0 0 d 0x04 ∧ coCop d = c ∧ coOk fab 0 d = true ∧ coFenced fab 0 d = false ∧ coScope fab 0 d = true) ∧
    (Starts fab 0 0 0 (collDesc 5 0 0 0) 0x04 ∧ coOk fab 0 (collDesc 5 0 0 0) = true ∧ coCount (collDesc 5 0 0 0) = 0) ∧
    (∀ c ∈ [6, 7], ∀ r ∈ [0, 1], ∀ n ∈ [0, 64], let d := rmaDesc c r 0 0x7FFC0 n
      Starts fab 0 0 0 d 0x04 ∧ coCop d = c ∧ rmaPeer fab 0 d = some r ∧ fencedMem fab 0 (coSrc d) n = false ∧
        fencedMem fab 0 (coDst d) n = false ∧ scopeOk fab 0 .peer true (coDst d) n = true ∧
        scopeOk fab 0 .peer false (coSrc d) n = true ∧ ownRank fab 0 = 0) := by unfold Starts NoneInjected; decide +kernel

theorem test_get_own_rank : -- 10 R312: an access to the own rank is a local copy
    after (.get 0 0 (rmaDesc 7 0 0x40 0x80 2)) { fab with ms := { fab.ms with mem := [(0x40, 5), (0x41, 6)] } }
      (fun t => t.ms.mem) = some [(0x40, 5), (0x41, 6), (0x80, 5), (0x81, 6)] := by decide +kernel

/-- An OPTIM block: recipe, clip from an accumulator, COUNT; operands from 0x1000 on, R at 0x5000, P at 0x6000, A at 0x7000. -/
def optimBlock (recipe : Nat) (clip : Bool) (count : Nat) : Bytes :=
  leBytes 3 (recipe + 0xFF0000) ++ leBytes 1 (16 * b2n clip) ++ leBytes 1 (if recipe < 4 then 0 else 2) ++ zeros 3 ++ leBytes 8 count ++
  zeros 8 ++ leBytes 8 0x1000 ++ leBytes 8 0x2000 ++ leBytes 8 0x3000 ++ leBytes 8 0x4000 ++ zeros 8 ++ leBytes 8 0x6000 ++
  leBytes 8 0x5000 ++ leBytes 8 0x7000

/-- A program of one addition into temporary 20, which goes to W. -/
def optimProg : Bytes := leBytes 4 0x00015052 ++ [20, 0xFF, 0xFF] ++ zeros 9 ++ leBytes 4 (1 + 20 * 64)

/-- The state with such a block at 0. -/
def optimState (recipe : Nat) (clip : Bool) (count : Nat) : State :=
  updMs opened (fun m => { m with mem := wrBytes (wrBytes [] 0 (optimBlock recipe clip count)) 0x6000 optimProg })

theorem witness_OptimRuns : ∀ rc ∈ [(0, false), (0, true), (1, false), (2, false), (3, false), (4, false), (5, false)], ∀ n ∈ [0, 1],
    let s := optimState rc.1 rc.2 n
    let d := desc 0x0B []
    let b := (vread s 0 0 160).data
    let prog := (vread s 0 (pbP b) (if pbRecipe b == 3 then 144 else 0)).data
    Starts s 0 0 0 d 0x0B ∧ stepOf s 0 d = some 1 ∧ scopeOk s 0 .engine false 0 160 = true ∧ NoneInjected s ∧ CleanRange s 0 0 160 ∧
    pbRecipe b = rc.1 ∧ pbFormatOk b = true ∧ pbFenced s 0 0 b = false ∧ HasRoom s 0 (optimWrites s 0 b) ∧ pbCount b = n ∧ pbScopeOk s 0 b = true ∧
    CleanRange s 0 (pbP b) 144 ∧ CleanRange s 0 (pbAcc b) 32 ∧ (pbUpdates b && pbClipSrc b) = rc.2 ∧ pbUpdates b = decide (rc.1 < 4) ∧
    (pbRecipeOf b prog).any (fun r => journalFits s 0 1
      ((if pbUpdates b then pbStored b r else []) ++ (if pbRen b then [(pbR b, 48)] else []))) = true := by
  unfold Starts NoneInjected CleanRange HasRoom; decide +kernel

/-- Slot A committed, from this partition. -/
def snapped : State := updSnap (inProof (fun x => { x with slice := 1 }) fab) 0 (fun x => { x with a := { state := 3, step := 0, seq := 1 } })

/-- J28, of role STORAGE, ACTIVE. -/
def storage (s : State) : State := { s with
  ports := mset s.ports {} 28 { state := 5, peer := some { kind := 1, port := 0, vmin := 1, vmax := 1, role := 1, id := 77, slice := 0,
                                                           epoch := 0, colophon := [] }
                                link := { credit := (List.range 8).map (fun v => (v, 64)), creditInit := true } } }

theorem witness_PhaseSnapshotRestoreAndDrain :
    let idle := inProof (fun x => { x with openStep := none, steps := [], begun := false }) snapped
    let q := snapArea (inProof (fun x => { x with begun := false }) on)
    let st := storage idle
    (Starts opened 0 0 0 (desc 0x09 [(8, 7), (9, 7)]) 0x09 ∧ dF (desc 0x09 [(8, 7), (9, 7)]) 10 0 1 = 0) ∧
    (Starts q 0 0 0 (desc 0x10 [(8, 2)]) 0x10 ∧ passed q 0 = true ∧ bitOf (desc 0x10 [(8, 2)]) 65 = true ∧ stepActive q 0 = false ∧
      snapRefused (takeDesc q 0 0 0 (desc 0x10 [(8, 2)])).1 0 true = false ∧ bitOf (desc 0x10 [(8, 2)]) 66 = false) ∧
    (∀ x ∈ [0, 1, 2], let d := desc 0x11 [(8, x)]
      Starts idle 0 0 0 d 0x11 ∧ passed idle 0 = true ∧ stepActive idle 0 = false ∧ dF d 14 0 16 = (xport idle 0).epoch ∧
        newestSlot idle 0 = some 0 ∧ (slotOf idle 0 0).step = dF d 16 0 48 ∧
        restoreOk idle 0 (slotOf idle 0 0).slice (slotOf idle 0 0).rank idle.pmode 0 ((slotOf idle 0 0).pages.map (·.vpn)) = true) ∧
    (∀ x ∈ [0, 2], ∀ sel ∈ [0, 1], let d := desc 0x12 [(8, x), (9, sel)]
      Starts st 0 0 0 d 0x12 ∧ passed st 0 = true ∧ newestSlot st 0 = some 0 ∧ (slotOf st 0 0).state = 3 ∧
        (bitsSet (dF d 9 0 4) 4).map (28 + ·) = (if sel = 0 then [] else [28]) ∧ storagePorts st 0 = [28, 29, 30, 31] ∧
        ∀ j ∈ storagePorts st 0, portPart st j = some 0 ∧ jpRole st j = 1) := by unfold Starts; decide +kernel

theorem test_phase_sets : -- 08 R246
    after (.phase 0 0 (desc 0x09 [(8, 5), (9, 3)])) opened (fun t => ((proof t 0).phase, (part t 0).opReq)) = some (5, 3) := by decide +kernel

theorem witness_CompletionEntries : (queue on 0 0).gen = 0 ∧ hostUp on 0 = true ∧ (queue on 0 0).gen ≠ 1 ∧ hostUp on 1 = false := by
  decide +kernel

/-- A started descriptor of queue 0. -/
def flight (d : Desc) (step : Option Nat) (w : Waits) : Flight := { seq := 0, q := 0, didx := 0, qgen := 0, desc := d, step := step, waits := w }
/-- Host port 0 with started descriptors. -/
def flying (fs : List Flight) (s : State) : State := inHp (fun x => { x with flights := fs }) s

/-- STEP_BEGIN of step 1 waits. -/
def opens : State := flying [flight (desc 0x08 [(8, 1)]) (some 1) (.stepBegin 1 0)] on
/-- STEP_END of step 1 waits. -/
def ends : State := flying [flight (desc 0x0A [(8, 1)]) (some 1) (.stepEnd 1)] opened
/-- A SNAPSHOT of step 1 waits for its capture point. -/
def holds : State := updSnap (flying [flight (desc 0x10 []) (some 1) .snapshot] (snapArea opened)) 0
  (fun x => { x with held := some (false, false, false, 0, false) })
/-- Slot A or B in copy-on-write with a page not copied. -/
def cows (b : Bool) : State := updSnap opened 0 (fun x =>
  let y : Slot := { state := 2, cow := true, pages := [⟨0, 0, 0, false, [], []⟩] }
  if b then { x with b := y } else { x with a := y })

theorem witness_StepsOpenAndCompute :
    (awake opens = true ∧ (flightOf opens 0 waitsToOpen).map (·.waits) = some (.stepBegin 1 0) ∧ (proof opens 0).openStep = none ∧
      1 ≤ (proof opens 0).lastProven + (proof opens 0).w + 1 ∧ (∀ l ∈ upto (0 * lcores opens) (lcores opens), copyDue opens l = false)) ∧
    (copyDue { opens with faults := { subst := [(119, physOf on 119, false)] } } 119 = true) ∧
    (∀ n ∈ [3, 4], let s := flying [flight 0 (some n) (.stepBegin n 0)] on
      (flightOf s 0 waitsToOpen).map (·.waits) = some (.stepBegin n 0) ∧
        decide (n ≤ (proof s 0).lastProven + (proof s 0).w + 1) = (n == 3)) ∧
    ((flightOf ends 0 waitsToCompute).map (·.waits) = some (.stepEnd 1) ∧ (hport ends 0).flights.length = 1 ∧
      (snap ends 0).held = none ∧ hasFacing ends 0 = false ∧ ∀ j ∈ partPorts ends 0, (port ends j).deferred = false) ∧
    (let g := flight (desc 0x18 []) (some 1) (.fence false)
     let s := flying [g, flight (desc 0x0A [(8, 1)]) (some 1) (.stepEnd 1)] opened
     (flightOf s 0 waitsToCompute).map (·.waits) = some (.stepEnd 1) ∧ g ∈ (hport s 0).flights ∧ g.step = some 1) ∧
    (flightOf on 0 waitsToOpen = none ∧ flightOf on 0 waitsToCompute = none ∧ (snap on 0).held = none) ∧
    ((snap holds 0).held = some (false, false, false, 0, false) ∧ (flightOf holds 0 (fun g => g.waits == .snapshot)).isSome = true ∧
      ∀ g ∈ (hport holds 0).flights, g.waits = .snapshot) ∧
    (∀ b ∈ [true, false], let x := slotOf (cows b) 0 (b2n b)
      x.state = 2 ∧ x.cow = true ∧ (∃ g ∈ x.pages, g.copied = false) ∧ (slotOf (cows b) 0 (1 - b2n b)).state = 0) := by
  decide +kernel

theorem test_step_opens : after (.stepOpen 0) opens (fun t => (proof t 0).openStep) = some (some 1) ∧
    after (.stepComputed 0) ends (fun t => ((proof t 0).openStep, (proof t 0).lastComputed)) = some (none, 1) := by decide +kernel

/-! ### Queue control and the host port -/

/-- Queue 0 in a state. -/
def inState (n : Nat) : State := inQueue (fun x => { x with state := n }) on

theorem witness_QueueControl :
    (awake on = true ∧ hostCan on 0 = true ∧ isReady on = true) ∧
    (∀ n ∈ [1, 2], let x := queue (inState n) 0 0
      natFld (0xFF000F : Word).toNat 16 8 ≠ x.gen ∧ natFld (15 : Word).toNat 16 8 = x.gen ∧ natFld (15 : Word).toNat 0 16 < x.ringsz ∧
        x.ringsz ≤ natFld (16 : Word).toNat 0 16 ∧ x.state = n) ∧
    (let x := queue (inState 0) 0 0
     x.state = 0 ∧ ringOk x.ringsz = true ∧ x.sqBase ≠ 0 ∧ x.cqBase ≠ 0) ∧
    (let x := queue (inState 0) 0 1
     x.state = 0 ∧ ¬ (ringOk x.ringsz = true ∧ x.sqBase ≠ 0 ∧ x.cqBase ≠ 0)) ∧
    (queue (inState 3) 0 0).state = 3 ∧ (∀ n ∈ [0, 1, 2], (queue (inState n) 0 0).state ≠ 3 ∧ hostStruck (inState n) 0 = false) ∧
    hostStruck (inProof (fun x => { x with slice := 9 }) on) 0 = true ∧ ((queue on 0 0).state = 1 ∧ (queue on 0 0).sqHead ≠ (queue on 0 0).tail) ∧
    (let x := queue (inQueue (fun x => { x with ien := true, coalTime := 1, uncovered := 1 }) on) 0 0
     x.ien = true ∧ x.coalTime ≠ 0 ∧ x.uncovered ≠ 0) ∧ (queue on 0 0).ien = false := by decide +kernel

theorem test_doorbell : -- 08 R230
    after (.doorbell 0 0 15) on (fun t => (queue t 0 0).tail) = some 15 ∧
    after (.doorbell 0 0 16) on (fun t => ((queue t 0 0).tail, t.evr.pending.map (·.event))) = some (1, [4]) := by decide +kernel

theorem test_queue_reset : -- 08 R229
    after (.queueReset 0 0) (inQueue (fun x => { x with gen := 255 }) on) (fun t => ((queue t 0 0).gen, (queue t 0 0).state)) =
      some (0, 0) := by decide +kernel

theorem witness_HostPortEvents :
    let down := inHp (fun x => { x with linkUp := false }) on
    let frozen := inHp (fun x => { x with frozen := true }) on
    let secure := inHp (fun x => { x with ide := .secure }) on
    (hport on 0).linkUp = true ∧ (hport down 0).linkUp = false ∧
    (∀ t < 3, doeType [1, 0, BitVec.ofNat 8 t] = some t) ∧ doeType [1, 0, 3] = none ∧ doeType [2, 0, 0] = none ∧
    ((hport on 0).sessions = 0 ∧ (hport (inHp (fun x => { x with sessions := 1 }) on) 0).sessions ≠ 0) ∧
    (awake on = true ∧ hpPart on 0 = some 0 ∧ hostUp on 0 = true ∧ hostUp down 0 = false ∧ on.pins.resetN = true ∧
      (hport secure 0).ide = .secure ∧ (hport on 0).ide ≠ .secure ∧ speushUp on = true ∧ on.power.ioOff.contains ((0 : HostId).toNat / 2) = false ∧
      on.pins.stage ≠ .recovery) ∧
    (∀ off ∈ [0x7FFFF, 0x80000], let va := (regF on (.hp 0) 0x001000C 0 28 * pageSize + off) % 2 ^ 47
      scopeOk on 0 .host true va 1 = decide (off = 0x7FFFF) ∧ scopeOk on 0 .host false va 1 = decide (off = 0x7FFFF) ∧
        fencedMem on 0 va 1 = false ∧ off + 1 ≤ 2 ^ (hport on 0).cfg.bar4Log) ∧ (hport on 0).frozen = false ∧ NoneInjected on ∧ (hport frozen 0).frozen = true := by
  unfold NoneInjected; decide +kernel

theorem test_bar4 : after (.bar4Access 0 0x7FFFF true 1 ⟨[9], true⟩) on (fun t => (t.ms.mem, t.ms.poison)) = some ([(0x7FFFF, 9)], [0x7FFFF / 64]) ∧
    after (.bar4Access 0 0x80000 true 1 ⟨[9], false⟩) on (fun t => ((hport t 0).frozen, t.ms.mem)) = some (true, []) ∧
    after (.bar4Access 0 0x80000 false 2 ⟨[], false⟩) on (fun t => t.out) = some [.bar4 0 [0xFF, 0xFF] false] := by decide +kernel

theorem test_host_link_down : -- 08 R218: the queues stop with STOPWHY 2
    after (.hostLinkDown 0) on (fun t => ((queue t 0 0).state, (queue t 0 0).stopwhy)) = some (2, 2) := by decide +kernel

/-! ### Programs and the units of a core -/

/-- LAUNCH 1 of logical core 0, loaded; `b` says whether it still waits. -/
def launched (b : Bool) : State := { loadedCores with launches := [
  { id := 1, part := 0, mask := 1, argva := 5, exitva := 0, image := none, step := none, loaded := true
    waiting := if b then [0] else [], running := if b then [] else [0] }] }

theorem witness_ProgramsStartAndCoresAreSubstituted :
    let s := { on with faults := { subst := [(0, physOf on 0, false)] } }
    let due := { launched true with faults := { subst := [(0, physOf on 0, false)] } }
    awake on = true ∧ (launchOf (launched true) 1).any (fun l => l.waiting.contains 0 && amongEight (launched true) l &&
      l.waiting.all (fun m => coreFree (launched true) l m && !copyDue (launched true) m && !smem (launched true).frozenCores m)) = true ∧
    launchOf on 1 = none ∧ (launchOf due 1).any (fun l => !canStart due l 0) = true ∧
    (launchOf (launched false) 1).any (fun l => !canStart (launched false) l 0) = true ∧
    (s.faults.subst.find? (fun x => x.1 == 0 && !x.2.2) = some (0, physOf on 0, false) ∧ running s (physOf on 0) = false ∧
      (proof s (lcorePart s 0)).openStep = none ∧
      (replacement (updFaults s (fun f => { f with subst := [] })) 0 (physOf on 0)).any (fun c => c != physOf on 0) = true) := by
  decide +kernel

theorem test_program_start : -- 05 R148: s1 holds ARGVA
    after (.programStart 1 0) (launched true) (fun t => (sget (core t (physOf t 0)) 1, (core t (physOf t 0)).csq)) = some (5, .running) := by
  decide +kernel

/-- An entry of a unit's queue: word 0's low half, and its block. -/
def entry (word : Nat) (block : Bytes) : TileEntry :=
  { word := BitVec.ofNat 128 word, pc := 0, block := block, epi := [], oscale := 0, step := 0, seq := 0 }

/-- Core 0 with an entry at the head of each of array 0, the stream fabric and the mover. -/
def tiles (ma sf mv : List TileEntry) (formes : Map Bytes) : State :=
  { runs {} with units := [(0, { ma0 := { queue := ma }, sf := sf, mv := mv, formes := formes })] }

/-- A matrix block: M, N, K. -/
def matBlock (m n k : Nat) : Bytes := leBytes 2 m ++ leBytes 2 n ++ leBytes 2 k ++ zeros 58

theorem witness_MatrixInstructions :
    let keep := entry (2 ^ 20) (matBlock 1 1 32)
    let s (e : TileEntry) : State := tiles [e] [] [] []
    let kept (e : TileEntry) : State := { runs {} with units := [(0, { ma0 := { queue := [e], bank0 := { m := 1, n := 1 } } })] }
    awake (s keep) = true ∧ (∀ e ∈ [entry 0 (matBlock 0 64 32), entry 0 (matBlock 1 0 32), entry 0 (matBlock 64 64 4096)],
      HeadStarts (s e) 0 0 e) ∧
    (HeadStarts (s keep) 0 0 keep ∧ mtKeep keep = true ∧ (curBank (arrayOf (unitsOf (headTaken (s keep) 0 keep) 0) 0)).m ≠ 1) ∧
    (HeadStarts (kept keep) 0 0 keep ∧ (curBank (arrayOf (unitsOf (headTaken (kept keep) 0 keep) 0) 0)).m = 1 ∧
      (curBank (arrayOf (unitsOf (headTaken (kept keep) 0 keep) 0) 0)).n = 1) ∧
    (let e := entry (3 * 2 ^ 10 + 2 * 2 ^ 16) (matBlock 1 1 32)
     let t := updCore (s e) 0 (fun k => { k with sem := [(3, 5)] })
     HeadStarts t 0 0 e ∧ semOf (core (headTaken t 0 e) 0) 3 = 3) := by unfold HeadStarts; decide +kernel

/-- The smallest valid forme: no port and no unit. -/
def noForme : Bytes :=
  let z := leBytes 2 0x4D46 ++ [1, 0] ++ leBytes 2 560 ++ zeros 554
  z.take 0x3C ++ leBytes 4 (crc32 z) ++ z.drop 0x40

/-- A move block: address, scratchpad address, row bytes, rows, byte 18. -/
def moveBlock (addr spa n rows t : Nat) : Bytes :=
  leBytes 8 addr ++ leBytes 4 spa ++ leBytes 4 n ++ leBytes 2 rows ++ leBytes 1 t ++ [0x40] ++ leBytes 4 n ++ leBytes 8 n

theorem witness_StreamAndMoverInstructions :
    let go (e : TileEntry) (fs : Map Bytes) : State := tiles [] [e] [] fs
    let stream := entry 2 []
    let full (s : State) : State := updCore s 0 (fun k => { k with spad := [(0, 8)] })
    let mover (e : TileEntry) : State := { tiles [] [] [e] [] with ms := { on.ms with mem := wrBytes [] 0 noForme } }
    let mv (op : Nat) (b : Bytes) : TileEntry := entry (3 + op * 2 ^ 20) b
    HeadStarts (go stream []) 0 2 stream ∧
    (streamOk stream noForme (spadRead (core (go stream [(0, noForme)]) 0) 0 416).data = true ∧
      sbN (spadRead (core (go stream [(0, noForme)]) 0) 0 416).data = 0 ∧
      HeadStarts (go stream [(0, noForme)]) 0 2 stream) ∧
    (streamOk stream noForme (spadRead (core (full (go stream [(0, noForme)])) 0) 0 416).data = true ∧
      sbN (spadRead (core (full (go stream [(0, noForme)])) 0) 0 416).data = 8) ∧
    (∀ op ∈ [0, 1, 2, 3], let e := mv op (moveBlock 0 0 560 1 119)
      HeadStarts (mover e) 0 3 e ∧ (unitsOf (mover e) 0).moving = none ∧ moveStalls (mover e) 0 e = false ∧
        (headTaken (mover e) 0 e).faults.oos = false ∧ mvOp e = op ∧ mvEmpty e.block = false ∧ mvBadRow (mover e) 0 e = none ∧
        mvFenced (mover e) 0 e = false ∧ mvTcore e.block < 120 ∧ lcorePart (mover e) (mvTcore e.block) = 0 ∧
        coreOwner (mover e) 0 = 0) ∧
    (let e := mv 3 (moveBlock 0 0 560 1 63)
     let img := vread (mover e) 0 (mvAddr e.block) (mvRowBytes e.block)
     NoneInjected (mover e) ∧ img.bad = false ∧ formeOk img.data = true) ∧
    mvEmpty (moveBlock 0 0 64 0 0) = true ∧
    (let e := mv 0 (moveBlock 0x7FFC0 0 64 2 0)
     mvBadRow (mover e) 0 e = some 1 ∧ mvEmpty e.block = false) := by unfold NoneInjected HeadStarts; decide +kernel

theorem test_store_moves : -- 05 R138
    let e := entry (3 + 2 ^ 20) (moveBlock 0x40 0x20 4 1 0)
    after (.store 0) (updCore (tiles [] [] [e] []) 0 (fun k => { k with spad := [(0x20, 1), (0x23, 4)] })) (fun t => t.ms.mem) =
      some [(0x40, 1), (0x43, 4)] := by decide +kernel

/-! ### Memory and the scale table -/

theorem witness_DeviceWrites : Memory.wf on.ms.mem = true ∧ Memory.wf [(0, 1), (2 ^ 40, 255)] = true := by decide +kernel

/-- A translation update in progress. -/
def updating (v n e : Nat) : State := inPart (fun x => { x with tt := some ⟨v, n, BitVec.ofNat 64 e⟩ }) on

theorem witness_TranslationClassesAndScaleEntries :
    (awake on = true ∧ hostCan on 0 = true ∧ isReady on = true ∧ hpPart on 0 = some 0 ∧ (part on 0).tt = none) ∧
    (ttJudge (updating 0 2359296 0) 0 ⟨0, 2359296, 0⟩ = .done ∧ ttJudge (updating 0 2359297 0) 0 ⟨0, 2359297, 0⟩ = .outOfScope ∧
      ttJudge (updating 5 2 0x7000001) 0 ⟨5, 2, 0x7000001⟩ = .done ∧ (part (updating 5 2 0x7000001) 0).tt ≠ none) ∧
    (let s := { on with ms := {} }
     let r := 32 * (0 : Fin 35).val + 31
     r < 1104 ∧ regionRanged s r ≠ (0x80000000 : Word).toNat.testBit 31 ∧ regionPart s r = 0 ∧
      (∀ b' < 32, b' ≠ 31 → 32 * (0 : Fin 35).val + b' < 1104 → regionRanged s (32 * (0 : Fin 35).val + b') = (0x80000000 : Word).toNat.testBit b') ∧
      (∀ c ∈ s.ms.tt, tteValid c.2 = true → ttePpn c.2 / 2048 ∉ stripeOf s 0 r)) ∧
    (∀ b' < 32, 32 * (34 : Fin 35).val + b' < 1104 → regionRanged on (32 * (34 : Fin 35).val + b') = (0 : Word).toNat.testBit b') ∧
    stepActive on 0 = false ∧ stepActive opened 0 = true ∧
    (∀ fm ∈ [(1, 0xF0), (4, 0x0F)],
      let s := setReg (setReg on (.part 0) 0x0800244 0x3F800000) (.part 0) 0x0800248 (fm.1 + 256 * fm.2)
      let y := regW s (.part 0) 0x0800248
      1 ≤ natFld y 0 4 ∧ natFld y 0 4 ≤ 4 ∧ -16 ≤ sext 8 (natFld y 8 8) ∧ sext 8 (natFld y 8 8) ≤ 15 ∧
        isPow2 (BitVec.ofNat 32 (regW s (.part 0) 0x0800244)) = true) ∧
    ¬ 1 ≤ natFld (regW (setReg on (.part 0) 0x0800248 0) (.part 0) 0x0800248) 0 4 ∧
    ¬ natFld (regW (setReg on (.part 0) 0x0800248 5) (.part 0) 0x0800248) 0 4 ≤ 4 := by decide +kernel

theorem test_translation_update : -- 06 R163: the physical pages ascend
    after (.ttUpdateDone 0) (updating 5 2 0x7000001) (fun t => (mget t.ms.tt 0 5, mget t.ms.tt 0 6, (part t 0).ttStatus)) =
      some (0x7000001, 0x7000002, 0) := by decide +kernel

theorem witness_EccAndTemperature :
    let line (c : Nat) : Nat := ((List.range 400).find? (fun n => channelOf on (256 * n) == c)).getD 400
    awake on = true ∧ lineOk on (line 0) (fun i => i / 32 == 0) = true ∧
    (∀ n ∈ [ppnCount * 2048], lineOk on n (fun i => i / 32 == 0) = false ∧ lineOk on n (fun i => i == 0) = false) ∧
    NoneInjected on ∧ 0 ∉ on.ms.recorded ∧ lineOk on (line 0) (fun i => i == 0) = true ∧
    (∀ n ∈ [8191, 8192], (channel (updChannel on 0 (fun x => { x with rows := List.replicate n 0 })) 0).remapped = n) ∧
    (399 : BitVec 12).toNat < 400 ∧ 400 ≤ (400 : BitVec 12).toNat ∧ (stack on 0).selfRefresh = false ∧
    (stack (updStack on 0 (fun x => { x with selfRefresh := true })) 0).selfRefresh = true := by unfold NoneInjected; decide +kernel

theorem test_patrol_scrub : -- 06 R172, 13 R394: an uncorrectable granule is poisoned and the channel charged 96
    let g := 4 * ((List.range 400).find? (fun n => channelOf on (256 * n) == 0)).getD 400
    after (.patrolScrub 0 (g / 4) [.uncorrectable, .clean, .clean, .clean]) on
      (fun t => (t.ms.poison, accOf t (ucChannel 0))) = some ([g], 96 * 1024) := by decide +kernel

/-! ### Transport -/

/-- The virtual channel of a packet type (10 R296). -/
def vcFor (t : Nat) : Nat :=
  if t = 0x20 then 0 else if t = 0x22 ∨ t = 0x24 then 1 else if t = 0x04 ∨ t = 0x11 then 3 else if t = 0x30 ∨ t = 0x32 then 7 else 2

/-- A packet of a type and sub-code from rank 1 to rank 0 of `fab`. -/
def pk (t sub : Nat) (data : Bytes) : Packet := { packet with vc := vcFor t, sub := sub, src := 1, imptag := 0xABCDEF01, data := data }

/-- `fab` in generation 1. -/
def gen1 : State := inXport (fun x => { x with reprint := 1 }) fab

theorem witness_FabricIngress : fabricRows.length = 26 ∧
    (∀ r ∈ fabricRows, let t := r.2.1
      let k := pk t (r.2.2.getD 0) []
      AtIngress fab 0 0 k ∧ Arrives fab 0 0 1 t k ∧ Arrives fab 0 0 1 t { k with gen := 1 } ∧ Arrives gen1 0 0 1 t k ∧
        k.gen = genOf fab 0 ∧ k.gen < genOf gen1 0 ∧ genOf fab 0 < { k with gen := 1 }.gen ∧
        vcOk t (if t = 0x20 then 1 else 0) = false ∧ rankOfDev fab 0 2 = none ∧ (2 ≠ devId fab 0 ∧ 2 ≠ 0xFFFFF)) ∧
    (portPart on 0 = some 0 ∧ (port on 0).state ≠ 5) ∧
    (let s := inXport (fun x => { x with held := [⟨0, 0x01, pk 0x01 0 [], 0, true⟩] }) fab
     vcHeld s 0 0 2 = true ∧ ((xport s 0).held.find? (fun h => h.port == 0 && h.pk.vc == 2)).isSome = true ∧
       ∀ h ∈ (xport s 0).held, h.port ≠ 1 ∨ h.pk.vc ≠ 2) := by unfold AtIngress Arrives AtIngress; decide +kernel

theorem test_ingress_drops : -- 10 R304: the checks in order
    after (.rmaOpen 0 { pk 0x01 0 [] with vc := 3, src := 9, imptag := 0 }) fab (fun t => (xport t 0).dropType) = some 1 ∧
    after (.rmaOpen 0 { pk 0x01 0 [] with src := 9, imptag := 0 }) fab (fun t => (xport t 0).dropAddr) = some 1 ∧
    after (.rmaOpen 0 { pk 0x01 0 [] with imptag := 0 }) fab (fun t => (xport t 0).dropTag) = some 1 ∧
    after (.rmaOpen 0 (pk 0x01 0 [])) gen1 (fun t => (xport t 0).dropGen) = some 1 ∧
    after (.rmaOpen 0 { pk 0x01 0 [] with gen := 1 }) fab (fun t => (xport t 0).held.length) = some 1 := by decide +kernel

/-- An access of 64 bytes in progress. -/
def rma (origin isPut : Bool) (done : Nat) : Rma :=
  { msg := 0, peer := 1, origin := origin, isPut := isPut, addr := 0, remote := 0, count := 64, done := done, poison := false, vc := 3 }

theorem witness_RemoteAccessPackets :
    let s (o p : Bool) (n : Nat) : State := inXport (fun x => { x with rmas := [rma o p n] }) fab
    (∀ t ∈ [0x01, 0x02, 0x03, 0x04, 0x06], Arrives (s true true 0) 0 0 1 t (pk t 0 []) ∧ (pk t 0 []).gen = genOf (s true true 0) 0) ∧
    (∀ sub ∈ [0, 1], ∀ n ∈ [0x7FFFF, 0x80000], let k := pk 0x01 sub (leBytes 8 1)
      scopeOk fab 0 .peer (k.sub == 0) n (leAt k.data 0 8) = decide (n = 0x7FFFF) ∧ fencedMem fab 0 n 1 = false ∧ NoneInjected fab) ∧
    (fencedMem { fab with faults := { oos := true } } 0 0 8 = true ∧ scopeOk { fab with faults := { oos := true } } 0 .peer true 0 8 = true) ∧
    rmaOf (s true true 0) 0 1 0 true = some (rma true true 0) ∧ rmaOf (s false true 0) 0 1 0 false = some (rma false true 0) ∧
    (rmaOf (s true false 0) 0 1 0 false = none ∧ rmaOf (s true false 0) 0 1 0 true = some (rma true false 0)) ∧
    ((rma false true 0).done + (zeros 63).length < (rma false true 0).count ∧
      (rma false true 0).count ≤ (rma false true 0).done + (zeros 64).length) := by
  unfold Arrives AtIngress NoneInjected; decide +kernel

/-- A collective of family 0 in progress. -/
def coll : Coll := { id := 5, family := 0, pos := 0, desc := collDesc 0 0 0x1000 1, step := some 1, ready := [], sent := false,
                     mismatch := false, data := [], poison := [] }

theorem witness_CollectivePackets :
    let s := inXport (fun x => { x with colls := [coll] }) fab
    (∀ t ∈ [0x10, 0x11, 0x23], Arrives s 0 0 1 t (pk t 0 []) ∧ (pk t 0 []).gen = genOf s 0) ∧
    (xport s 0).readyCount = [] ∧ (xport s 0).colls.find? (fun c => c.family == 0 && c.pos == 0) = some coll ∧
    (xport fab 0).colls.find? (fun c => c.family == 0 && c.pos == 0) = none ∧ collOf s 0 5 = some coll ∧
    readyMatches coll.desc 0 [1] = false ∧ coll.step ≠ none ∧
    (xport s 0).colls.find? (fun c => c.family == 0 && coCseq c.desc == 0) = some coll ∧
    (groupRanks s 0 coll.family).findIdx? (· == 1) = some 1 := by unfold Arrives AtIngress; decide +kernel

/-- A drain of slot A on J28, and J28's state with it. -/
def drain (manifest_ : Bool) : Drain :=
  { msg := 0, slot := 0, object := 7, ports := [28], ready := [], chunks := 1, next := 0, flying := [(0, 28)], manifest := manifest_, share := 0, byDesc := true }
/-- A restore from storage, or from a slot and waiting for its fill. -/
def restoring (storage_ : Bool) : Restoring :=
  { storage := storage_, object := 7, manifest := some (zeros 64), data := [], chunks := 0, filling := !storage_ }
/-- `storage fab` with drains and a restore. -/
def reserved (ds : List Drain) (r : Option Restoring) : State := updSnap (storage fab) 0 (fun x => { x with drains := ds, restoring := r })
/-- A packet of a reserved role from its peer. -/
def rpk (sub : Nat) (data : Bytes) : Packet := { packet with vc := 7, sub := sub, src := 77, data := data }
/-- J28 as a HOSTSIDE port with a window of one page. -/
def hostside : State := setRegF (setRegF (storage fab) .dev (0x0400000 + 0x1000 * 28) 1 2 2) (.part 0) 0x0204034 0 22 1

theorem witness_ReservedRolePackets :
    (∀ t ∈ [0x50, 0x52], ArrivesReserved hostside 28 0 t 2 (rpk 0 (leBytes 2 4096))) ∧ (port hostside 28).frozen = false ∧
    (port (updPort hostside 28 (fun x => { x with frozen := true })) 28).frozen = true ∧ NoneInjected hostside ∧
    (∀ n ∈ [1, 4096], 0 < leAt (leBytes 2 n) 0 2 ∧ leAt (leBytes 2 n) 0 2 ≤ 4096) ∧
    (∀ wr ∈ [true, false], hsOk hostside 0 wr (pageSize - 1) 1 = true ∧ hsOk hostside 0 wr pageSize 1 = false) ∧
    (∀ t ∈ [0x41, 0x43, 0x45, 0x46], ArrivesReserved (reserved [drain true] none) 28 0 t 1 (rpk 0 [])) ∧
    drainOf (reserved [drain true] none) 0 0 = some (drain true) ∧ drainFor (reserved [drain true] none) 0 28 (rpk 0 []) = some (drain true) ∧
    28 ∈ (drain true).ports ∧ (drain true).manifest = true ∧
    (∀ t ∈ [0x49, 0x4A], ArrivesReserved (reserved [] (some (restoring true))) 28 0 t 1 (rpk 0 [])) ∧
    (snap (reserved [] (some (restoring true))) 0).restoring = some (restoring true) ∧ (restoring true).filling = false ∧
    (restoring true).manifest = some (zeros 64) ∧ (rpk 0 []).addr = (restoring true).chunks ∧
    (let s := reserved [drain true] (some (restoring false))
     (snap s 0).drains.find? (fun d => d.flying.any (fun x => x.1 == 0)) = some (drain true) ∧
       (drain true).flying.find? (fun x => x.1 == 0) = some (0, 28) ∧ (snap s 0).drains.find? (·.manifest) = some (drain true) ∧
       (snap s 0).restoring = some (restoring false) ∧ (restoring false).filling = true) ∧
    ((snap fab 0).drains.find? (fun d => d.flying.any (fun x => x.1 == 0)) = none ∧ (snap fab 0).drains.find? (·.manifest) = none ∧
      (snap fab 0).restoring = none) := by unfold ArrivesReserved NoneInjected; decide +kernel

theorem test_hs_write : -- 10 R325
    after (.hsWrite 28 { rpk 0 [7] with addr := 5 }) hostside (fun t => t.ms.mem) = some [(5, 7)] ∧
    after (.hsWrite 28 { rpk 0 [7] with addr := pageSize }) hostside (fun t => ((port t 28).frozen, t.ms.mem)) = some (true, []) := by
  decide +kernel

/-! ### Proof and reprint -/

/-- A STOP of step 1 from rank 1. -/
def stopMsg : StopMsg :=
  { step := 1, reason := 8, applied := false, fallback := false, hold := false, provenTo := 0, origin := 1, round := 0, orank := 1, strikes := [] }
/-- The round of generation 0 under a root. -/
def round (root : Nat) : Round :=
  { gen := 0, no := 0, root := root, chosen := stopMsg, strikes := [], seen := [], reports := [] }
/-- In SLICE_STATE `n`, perhaps in a round. -/
def inSliceState (n : Nat) (r : Option Round) : State := inProof (fun x => { x with slice := n, round := r }) fab

theorem witness_StopPressPackets :
    let k (sub gen : Nat) : Packet := { pk 0x20 sub stopMsg.bytes with gen := gen }
    let s := inSliceState 3 (some (round 0))
    let three : State := inXport (fun x => { x with imp := some { imposed with ranks := [⟨0, 0, 1⟩, ⟨1, 0, 1⟩, ⟨2, 0, 1⟩] } }) (inSliceState 3 (some (round 1)))
    (∀ i ∈ [0, 1, 2, 3], inSlice s 0 = true ∧ Arrives s 0 0 1 0x20 (k i 0) ∧ (proof s 0).round = some (round 0) ∧ (round 0).gen = (k i 0).gen) ∧
    (Arrives gen1 0 0 1 0x20 (k 0 0) ∧ inSlice gen1 0 = true ∧ (k 0 0).gen < genOf gen1 0 ∧ (proof gen1 0).round = none) ∧
    (Arrives fab 0 0 1 0x20 (k 2 0) ∧ (proof fab 0).round = none ∧ (k 2 0).gen = genOf fab 0 ∧ Arrives fab 0 0 1 0x20 (k 2 1) ∧
      (k 2 1).gen ≠ genOf fab 0) ∧
    (decides s 0 (round 0) = true ∧ decides (inSliceState 3 (some (round 1))) 0 (round 1) = false) ∧
    (nextRoot s 0 (round 0) = some 1 ∧ 1 ≠ ownRank s 0) ∧
    (let t := inXport (fun x => { x with rank := 2 }) three
     (proof t 0).slice = 3 ∧ nextRoot t 0 (round 1) = some 2 ∧ ownRank t 0 = 2) ∧
    (inRound s 0 = true ∧ unitPart s (ucCore 0) = 0 ∧ inRound fab 0 = false ∧ (proof fab 0).slice ≠ 3) := by
  unfold Arrives AtIngress; decide +kernel

theorem witness_StopPressPackets_decision :
    (∀ n ∈ [2, 3], (proof (inSliceState n none) 0).appliedDecision = none ∧ (proof (inSliceState n none) 0).slice = n) ∧
    (proof (inProof (fun x => { x with appliedDecision := some stopMsg }) fab) 0).appliedDecision ≠ none ∧ (proof fab 0).slice = 1 ∧
    (∀ o ∈ [true, false], let d := { stopMsg with strikes := [⟨0, false, o, false, 8⟩] }
      (d.strikes.find? (fun e => e.rank == ownRank fab 0)).map (·.observe) = some o) := by decide +kernel

theorem test_decision_rolls_back : -- 11 R351, R353, R355
    after (.decision 0 (pk 0x20 2 stopMsg.bytes)) (inSliceState 3 (some (round 1)))
      (fun t => ((proof t 0).slice, (xport t 0).reprint, (proof t 0).restarts)) = some (4, 1, 1) ∧
    after (.decision 0 (pk 0x20 2 { stopMsg with strikes := [⟨0, false, false, false, 8⟩] }.bytes)) (inSliceState 3 (some (round 1)))
      (fun t => (proof t 0).slice) = some 9 := by decide +kernel

theorem witness_StopHaltsTheWork : 0 < nparts fab ∧ (queue fab 0 0).state = 1 ∧ (queue fab 0 1).state = 0 ∧
    (queue (updQueue fab 0 63 (fun x => { x with state := 3 })) 0 63).state = 3 ∧ (core (runs { inStep := true }) 0).inStep = true ∧
    halts (flight 0 (some 1) .now) = true ∧ running (runs {}) (physOf (runs {}) 0) = true := by decide +kernel

theorem test_stop_halts : -- 11 R350, 08 R255
    after (.stop 0 (pk 0x20 0 stopMsg.bytes)) fab (fun t => ((queue t 0 0).state, (queue t 0 0).stopwhy)) = some (2, 1) := by decide +kernel

theorem witness_RestartEvents :
    let join := inXport (fun x => { x with planesSent := true }) (inSliceState 6 none)
    let rep := inSliceState 7 none
    let proven := inProof (fun x => { x with steps := [{ step := 1, state := 3, recVa := 0 }] }) fab
    (proof (inSliceState 4 none) 0).slice = 4 ∧ (proof fab 0).slice ≠ 4 ∧ ((proof join 0).slice = 6 ∧ joinReady join 0 = true) ∧
    joinReady (inSliceState 6 none) 0 = false ∧ ((proof rep 0).slice = 7 ∧ replayOver rep 0 = true ∧ replayFlights rep 0 = []) ∧
    ((stepRec proven 0 1).map (·.state) = some 3 ∧ (stepRec fab 0 1).map (·.state) = some 1 ∧ stepRec fab 0 2 = none) ∧
    (fallsBack fab 0 = false ∧ (proof fab 0).newImp = false ∧ (proof (inProof (fun x => { x with newImp := true }) fab) 0).newImp = true) ∧
    (let g : JournalRecord := { vpn := 0, ppn := 0, flags := 0, page := [(3, 9)], poison := [] }
     let s := inPart (fun x => { x with journal := [{ stack := 0, state := 1, step := 1, gen := 0, records := [g] }] }) fab
     let rs := ((part s 0).journal.filter (fun x => decide ((proof s 0).lastProven < x.step))).flatMap (fun x => x.records)
     rs = [g] ∧ (rs.filter (fun y => y.ppn == g.ppn)).length = 1 ∧ g.intact = true ∧ ∀ r ∈ rs, r.ppn ≠ 1) := by decide +kernel

theorem witness_VotesPulsesAndDigests :
    let s := inXport (fun x => { x with rank := 1, imp := some { imposed with ranks := [⟨0, 1, 1⟩, ⟨0x777, 0, 1⟩] } }) (inProof (fun x => { x with steps := [{ step := 1, state := 2, recVa := 0 }] }) fab)
    let fromRoot (sub : Nat) : Packet := { pk 0x22 sub [] with src := 0, addr := 1 }
    let heard := inProof (fun x => { x with heard := [1] }) fab
    let cap (phys : Nat) : State := inProof (fun x => { x with captures := [{ step := 1, lcore := 0, array := 0, ordinal := 0, phys := phys, steps := [],
                                                                              output := [], report := (0, 0), poison := phys = 1 }] }) fab
    (Arrives fab 0 0 1 0x22 { pk 0x22 0 [] with addr := 1 } ∧ 1 ∈ childrenOf fab 0 ∧ (1, 1) ∉ (proof fab 0).ups) ∧
    ((1, 1) ∈ (proof (inProof (fun x => { x with ups := [(1, 1)] }) fab) 0).ups) ∧
    (Arrives s 0 0 0 0x22 (fromRoot 1) ∧ 0 < ownRank s 0 ∧ parentRank s 0 = 0 ∧ (stepRec s 0 1).map (·.state) = some 2) ∧
    (Arrives fab 0 0 1 0x22 (pk 0x22 1 []) ∧ ownRank fab 0 = 0) ∧ Arrives fab 0 0 1 0x22 (pk 0x22 2 []) ∧
    ((proof fab 0).slice = 1 ∧ (proof (inSliceState 4 none) 0).slice ≠ 1) ∧
    (1 ∈ neighbours heard 0 ∧ 1 ∈ (proof heard 0).heard ∧ (proof heard 0).slice = 1) ∧
    (∀ sub ∈ [0, 1], Arrives fab 0 0 1 0x24 (pk 0x24 sub (zeros 16)) ∧ sub ≤ 1) ∧ (hasFacing fab 0 = true ∧ facingRank fab 0 = 1) ∧
    (let c := cap 1
     ((proof c 0).captures.find? (fun k => k.phys != 0)).any (·.poison) = true ∧ corePart c 0 = 0 ∧ smem c.retiredCores 0 = false) ∧
    (let c := cap 2
     let k := (proof c 0).captures.headD default
     (proof c 0).captures.find? (fun k => k.phys != 0) = some k ∧ faulty (recompute k) 0 = captured_ k ∧ k.poison = false ∧
       faulty (recompute k) 1 ≠ captured_ k ∧ corePart c 1 = 0 ∧ smem c.retiredCores 1 = false ∧ (1 : CoreId) ≠ 0 ∧ (1 : CoreId).val ≠ k.phys) ∧
    (∀ k ∈ (proof (cap 0) 0).captures, k.phys = 0) := by unfold Arrives AtIngress; decide +kernel

theorem test_vote_proves : -- 11 R344
    after (.up 0 { pk 0x22 0 [] with addr := 1 }) fab (fun t => (proof t 0).ups) = some [(1, 1)] := by decide +kernel

/-- A portion of 64 bytes to send or being received. -/
def portion : Portion := { step := 1, optim := 0, block := [], clip := 0, q := 0, first := 0, count := 16, got := [], landed := 0 }

theorem witness_MirrorAndTransfer :
    let s := updMirror { fab with ms := { tt := [(0, 0x7000000)] } } 0 (fun x => { x with inp := some portion, out := [portion], outSent := true })
    (hasFacing s 0 = true ∧ facingRank s 0 = 1) ∧
    (∀ i ∈ [0, 1, 2, 3, 4], Arrives s 0 0 1 0x30 (pk 0x30 i (zeros 12)) ∧ Arrives s 0 0 1 0x32 (pk 0x32 i (zeros 12))) ∧
    ((mirror s 0).inp = some portion ∧ scopeOk s 0 .engine true (regF s (.part 0) 0x0800498 0 28 * pageSize + 0) 64 = true) ∧
    (mirror fab 0).inp = none ∧ ((proof s 0).slice ≠ 2 ∧ (proof s 0).slice ≠ 3) ∧
    (∀ n ∈ [2, 3], ∀ i ∈ [0, 1, 2, 3, 4], Arrives (inSliceState n none) 0 0 1 0x30 (pk 0x30 i []) ∧ (proof (inSliceState n none) 0).slice = n) ∧
    ((mirror s 0).out = portion :: [] ∧ (mirror s 0).outSent = true ∧ portion.first = 0 ∧ portion.optim = 0) ∧
    (let three := inXport (fun x => { x with imp := some { imposed with ranks := [⟨0, 1, 1⟩, ⟨5, 0, 1⟩, ⟨1, 2, 1⟩] } }) fab
     2 ≠ facingRank three 0 ∧ hasFacing three 0 = true ∧ ∀ r ∈ fabricRows.drop 16, ∀ k ∈ r.2.2.toList, Arrives three 0 0 2 r.2.1 (pk r.2.1 k [])) := by
  unfold Arrives AtIngress; decide +kernel

/-! ### Links -/

/-- A flit of a kind on a channel. -/
def flit (kind vc : Nat) (payload : Bytes) : Flit := flitOf (flitBytes (flitHdr kind vc 0 0 0 0) payload)
/-- An LCTL flit. -/
def lctl (k : Nat) (rest : Bytes) : Flit := flit 2 0 ([BitVec.ofNat 8 k] ++ rest)
/-- Port 0 of `fab` in another state. -/
def linked (x : Port) : State := { fab with ports := [(0, x)] }
/-- A link with credits. -/
def credits : Link := { credit := (List.range 8).map (fun v => (v, 64)), creditInit := true }
/-- A flit whose CRC is wrong. -/
def badFlit : Flit := flit 0 0 [] ^^^ 1

/-- A whole packet in one flit: UP of step 1. -/
def packetFlit : Flit := flit 1 1 (packetHeader 0x22 { pk 0x22 0 [] with addr := 1 })

theorem witness_LinkFlits :
    let x : Port := { state := 5, link := credits }
    let s := linked x
    let y := port (rxHeader s 0 packetFlit) 0
    let waits := linked { x with link := { credits with discarding := true } }
    awake s = true ∧ (hears { x with state := 1 } = false ∧ hears { x with state := 2 } = true ∧ hears { x with state := 8 } = true ∧
      hears { x with state := 9 } = false) ∧
    (hears x = true ∧ x.inject = false ∧ flitValid badFlit = false ∧ flitValid (flit 0 0 []) = true ∧ flitValid (flit 3 0 []) = false) ∧
    (flitValid packetFlit = true ∧ fKind packetFlit = 1 ∧ y.state = 5 ∧ y.epochWait = false ∧ y.link.discarding = false ∧
      (asmPacket 1 (mget y.link.asm [] (fVc packetFlit) ++ [(fPayload packetFlit, fPoison packetFlit)])).map (·.1) = some 0x22 ∧
      asmPacket 1 [((fPayload packetFlit).take 31, 0)] = none ∧ portPart s 0 = some 0) ∧
    (port (rxHeader waits 0 packetFlit) 0).link.discarding = true ∧ y.link.rxPos = y.link.rxSeq ∧
    (∀ n ∈ [1, 512, 513, 1023], let z := port (rxHeader (linked { x with link := { credits with rxPos := n } }) 0 packetFlit) 0
      z.link.rxPos ≠ z.link.rxSeq ∧ decide ((z.link.rxSeq + 1024 - z.link.rxPos) % 1024 < 512) = decide (512 < n)) ∧
    (let t := inProof (fun y => { y with slice := 9 }) s
     portPart (rxHeader t 0 packetFlit) 0 = some 0 ∧ (proof (rxHeader t 0 packetFlit) 0).slice = 9) ∧
    (port (rxHeader (linked { x with epochWait := true }) 0 packetFlit) 0).epochWait = true ∧
    (∀ k ∈ [1, 2], let f := lctl k [0, 0]
      flitValid f = true ∧ fKind f = 2 ∧ leAt (fPayload f) 0 1 = k ∧ talks (port (rxHeader s 0 f) 0) = true ∧
        leAt (fPayload f) 1 2 % 1024 = (port (rxHeader s 0 f) 0).link.rxSeq) ∧
    leAt (fPayload (lctl 2 [1, 0])) 1 2 % 1024 ≠ 0 ∧ { x with inject := true }.inject = true ∧
    (talks x = true ∧ (port waits 0).link.discarding = true ∧ x.link.discarding = false) ∧
    (∀ n ∈ [7, 8], decide (8 ≤ { credits with naks := n }.naks) = (n == 8)) ∧ (∀ n ∈ [15, 16], decide (16 ≤ { credits with invalid := n }.invalid) = (n == 16)) := by
  decide +kernel

theorem test_flit_delivers : -- 09 R271; 10 R294: the packet in the flit is delivered
    after (.dataFlit 0 packetFlit) fab (fun t => ((proof t 0).ups, (port t 0).link.rxSeq)) = some ([(1, 1)], 1) ∧
    after (.dataFlit 0 badFlit) fab (fun t => ((port t 0).crcErr, (port t 0).nakTx, (port t 0).link.discarding)) = some (1, 1, true) := by
  decide +kernel

theorem witness_PortsTrain :
    let ten : Port := { state := 1, link := credits }
    let eq (x : Port) : Port := { x with state := 2 }
    let map : Flit := lctl 4 [0xFF, 0, 0]
    awake (linked ten) = true ∧ (healthyIn ten 0x3F).length = 6 ∧ (healthyIn ten 0x1F).length = 5 ∧ ten.state = 1 ∧ (eq ten).state = 2 ∧
    (ten.activeLanes.getLsbD 0 = false ∧ { ten with activeLanes := 0x3F }.activeLanes.getLsbD 0 = true) ∧
    (hears (eq ten) = true ∧ (eq ten).inject = false ∧ flitValid map = true ∧ fKind map = 2 ∧ leAt (fPayload map) 0 1 = 4 ∧
      (port (rxHeader (linked (eq ten)) 0 map) 0).state = 2 ∧ leAt (fPayload map) 3 1 = 0 ∧
      6 ≤ (healthyLanes (port (rxHeader (linked (eq ten)) 0 map) 0)).length) ∧
    (∀ n ∈ [2, 6, 7], { ten with state := n }.state = n) ∧ ten.state ∉ [2, 6, 7] := by decide +kernel

theorem test_training : -- 09 R277, R278
    after (.signalDetect 0 0x3F) (linked { state := 1 }) (fun t => (port t 0).state) = some 2 ∧
    after (.signalDetect 0 0x1F) (linked { state := 1 }) (fun t => (port t 0).state) = some 1 ∧
    after (.equaliseTimeout 0) (linked { state := 2 }) (fun t => ((port t 0).state, (port t 0).retrains)) = some (1, 1) := by decide +kernel

/-- The partner's IDENT: KIND, PORT, VMIN, VMAX, ROLE, ID, SLICE, EPOCH. -/
def identFlit (kind : Nat) : Flit := lctl 3 (leBytes 1 kind ++ [0, 1, 1, 0] ++ leBytes 4 1 ++ zeros 4 ++ zeros 2 ++ zeros 14)

/-- Port 0 in a state, with or without the slice, the partner of port 0 being port 0 of device 1. -/
def identifies (x : Port) (imp : Bool) : State := inXport (fun y => { y with
  imp := if imp then some { imposed with ports := [⟨1, 0, 0⟩] } else none }) (linked x)

theorem witness_PortsIdentify :
    let three : Port := { state := 3, link := credits }
    let f := identFlit 0
    let i := identOf (fPayload f)
    let s (imp : Bool) : State := identifies three imp
    let got (s : State) : State := updPort (rxHeader s 0 f) 0 (fun x => { x with peer := some i, gotIdent := true })
    let sent (s : State) : State := sendCredits (updPort (got s) 0 (fun y => { y with version := negotiated (rxHeader s 0 f) i })) 0
    let old := identOf (fPayload (lctl 3 (leBytes 1 0 ++ [0, 7, 7, 0] ++ zeros 24)))
    (awake (s true) = true ∧ portPart (s true) 0 = some 0 ∧ three.inject = false ∧ flitValid f = true ∧ fKind f = 2 ∧
      leAt (fPayload f) 0 1 = 3 ∧ hears three = true ∧ portPart (rxHeader (s true) 0 f) 0 = some 0) ∧
    ((port (rxHeader (s true) 0 f) 0).state = 3 ∧ (port (rxHeader (s true) 0 f) 0).link.creditInit = true ∧
      (port (rxHeader (identifies { state := 3 } true) 0 f) 0).link.creditInit = false) ∧
    (negotiated (rxHeader (s true) 0 f) i ≠ 0 ∧ negotiated (rxHeader (s true) 0 f) old = 0 ∧ talks (port (rxHeader (s true) 0 f) 0) = true ∧
      (port (rxHeader (identifies { three with state := 7 } true) 0 f) 0).state = 7 ∧
      (port (rxHeader (identifies { three with state := 8 } true) 0 f) 0).epochWait = false) ∧
    (identVerdict (sent (s true)) 0 0 i = 0 ∧ identVerdict (sent (s false)) 0 0 i = 0 ∧
      identVerdict (sent (s true)) 0 0 (identOf (fPayload (identFlit 1))) ≠ 0 ∧ (xport (rxHeader (s false) 0 f) 0).imp = none ∧
      (xport (rxHeader (s true) 0 f) 0).imp ≠ none) ∧
    ((port (rxHeader (identifies { three with state := 4 } true) 0 f) 0).state = 4 ∧
      (port (rxHeader (identifies { three with state := 4 } true) 0 f) 0).epochWait = false) ∧
    (let g := lctl 7 (zeros 19)
     flitValid g = true ∧ leAt (fPayload g) 0 1 = 7 ∧ (port (rxHeader (s true) 0 g) 0).gotIdent = false ∧
       (port (rxHeader (identifies { three with gotIdent := true } true) 0 g) 0).gotIdent = true) ∧
    ((linked { state := 3 }).ports ≠ [] ∧ { three with state := 5 }.state ∉ [3, 4, 8] ∧ three.gotIdent = false ∧
      { three with epochWait := true }.epochWait = true ∧ three.epochWait = false) := by decide +kernel

theorem test_ident_ready : -- 09 R282: the partner that the imposition names is READY, another is quarantined with QREASON 1
    after (.ident 0 (identFlit 0)) (identifies { state := 3, link := credits } true) (fun t => (port t 0).state) = some 4 ∧
    after (.ident 0 (identFlit 1)) (identifies { state := 3, link := credits } true) (fun t => ((port t 0).state, (port t 0).qreason)) =
      some (8, 1) := by decide +kernel

theorem witness_PortsRetrain :
    let five : Port := { state := 5, link := credits }
    let s := linked five
    let f (k : Nat) : Flit := lctl k [1]
    let asked := linked { five with retrainAsked := some 0 }
    let again (x : Port) : State := linked { x with state := 7, from_ := 5 }
    let mend (s : State) : State := applyUnretire (updPort s 0 (fun x => { x with
      lanes := countLanes x, peerBefore := none, midWindow := true })) 0
    let who (x : Port) : Bool := decide (x.peer.map IdentMsg.who = x.peerBefore.map IdentMsg.who)
    let u (s : State) : State := retireLanes (mend s) 0 ((List.range 8).filter (fun m => (mget (port (mend s) 0).lanes {} m).condemned))
    let w (n : Nat) : LaneWindow := ⟨1, 0, 0, n⟩
    let deferred := setRegF s .dev 0x0400000 7 1 0
    awake s = true ∧
    (∀ k ∈ [5, 6], five.inject = false ∧ flitValid (f k) = true ∧ fKind (f k) = 2 ∧ leAt (fPayload (f k)) 0 1 = k ∧ hears five = true ∧
      (port (rxHeader s 0 (f k)) 0).state = 5 ∧ (port (rxHeader s 0 (f k)) 0).retrainAsked = none ∧
      (port (rxHeader asked 0 (f k)) 0).retrainAsked ≠ none) ∧
    (five.state ≠ 7 ∧ (port (again five) 0).state = 7 ∧ 6 ≤ (healthyLanes (port (u (again five)) 0)).length ∧ (port (again five) 0).from_ = 5 ∧
      (pickLanes (healthyLanes (port (u (again five)) 0))).1 = 8) ∧
    (∀ n ∈ [2, 3], let r := again { five with lanes := (List.range n).map (fun m => (m, { condemned := true })) }
      decide (6 ≤ (healthyLanes (port (u r) 0)).length) = (n == 2) ∧
        (n = 2 → (pickLanes (healthyLanes (port (u r) 0))).1 = 6)) ∧
    (let i := some (identOf (fPayload (identFlit 0)))
     who five = true ∧ who { five with peer := i, peerBefore := i } = true ∧ who { five with peerBefore := i } = false ∧
       who { five with peer := some (identOf (fPayload (identFlit 1))), peerBefore := i } = false ∧ five.epochWait = false ∧
       { five with epochWait := true }.epochWait = true ∧ portPart (again five) 0 = some 0) ∧
    (∀ n ∈ [2, 9], n < 3 ∨ n = 9) ∧ (five.retired = 0 ∧ (w 0).cwCorr = 0) ∧
    (overThreshold (w 99999) 5 = true ∧ overThreshold (w 100000) 5 = false ∧ natFld (jpCfg s 0) 8 4 = 5) ∧
    (let ls := mset (mset five.lanes {} 0 (laneCounted {} (w 99999))) {} 0 (laneJudged (laneCounted {} (w 99999)) (w 99999) 5 true)
     (List.range 8).any (fun m => (mget ls {} m).condemned) = false ∧ natFld (jpCfg s 0) 7 1 = 1 ∧ natFld (jpCfg deferred 0) 7 1 = 0 ∧
       observed s (ucPort 0) = false) ∧
    (let l : Lane := { watch := true }
     (List.range 8).any (fun m => (mget (mset [] {} 0 (laneJudged l (w 99999) 5 true)) {} m).condemned) = true) := by decide +kernel

theorem test_ber_threshold : -- 09 R286 to R288 at BER_EXP 5: one error in 99,999 bits asks, one in 100,000 does not
    (laneJudged {} ⟨1, 0, 0, 99999⟩ 5 true).asked = true ∧ (laneJudged {} ⟨1, 0, 0, 100000⟩ 5 true).asked = false ∧
    (laneJudged { watch := true } ⟨0, 0, 1, 1599999⟩ 5 true).condemned = true ∧
    (laneJudged { watch := true } ⟨0, 0, 1, 1599999⟩ 5 false).condemned = false := by decide +kernel

/-! ### Faults, health and resets -/

theorem witness_WatchdogsFire :
    let busy := flying [flight (desc 0x18 []) none (.fence false), flight (desc 0x19 []) (some 1) (.cond 0 0 0)] on
    let head := tiles [entry 0 (matBlock 1 1 1)] [] [] []
    let star (v : Nat) : Port := { state := 5, link := { txq := [(v, 0)] } }
    awake on = true ∧ running (runs {}) 0 = true ∧ running on 0 = false ∧ hasHead head 0 0 = true ∧ hasHead on 0 0 = false ∧
    (hpPart busy 0 = some 0 ∧ (proof busy 0).slice = 1 ∧ ((queueFlights busy 0 0).find? (fun f => f.didx == 0)).isSome = true) ∧
    (let s := flying [flight (desc 0x19 []) (some 1) (.cond 0 0 0)] on
     ((queueFlights s 0 0).find? (fun f => f.didx == 0)).map (·.step) = some (some 1)) ∧
    (proof (inSliceState 3 none) 0).slice = 3 ∧ (queueFlights on 0 0).find? (fun f => f.didx == 0) = none ∧
    (∀ v ∈ [0, 1], starved (star v) [0, 1] = true ∧ starved (star v) [2, 3, 4, 5, 6, 7] = false) ∧
    (∀ v ∈ [2, 7], starved (star v) [2, 3, 4, 5, 6, 7] = true ∧ starved (star v) [0, 1] = false) ∧
    ((xport (inXport (fun x => { x with rmas := [rma true true 0] }) fab) 0).rmas ≠ [] ∧ (xport fab 0).colls = [] ∧ (xport fab 0).rmas = []) := by
  decide +kernel

theorem witness_HealthAndFieldTests :
    let test (n : Nat) (w : Nat) : State := { on with faults := { test := some ⟨ucCore 0, n, w⟩ } }
    let due := { on with faults := { due := [ucCore 0] } }
    let boot := { on with pins := { stage := .booting } }
    let watched := { on with faults := { acc := [(ucEngine 0, 256 * 1024)] } }
    let none_ := { on with retiredCores := List.range 128, faults := { acc := (List.range 12).map (fun i => (ucEngine i, 256 * 1024)) } }
    awake on = true ∧ ((upto on.faults.rotation 140).map (· % 140)).find? (fun i => inRotation on (rotationUnit i)) = some 0 ∧
    (due.faults.due.contains (rotationUnit 0) = true ∧ on.faults.due.contains (rotationUnit 0) = false ∧ on.faults.test = none) ∧
    (∀ i < 140, inRotation none_ (rotationUnit i) = false) ∧
    (ucEngine 0 < ucEngine 12 ∧ underObservation watched (ucEngine 0) = true ∧ unitRetired watched (ucEngine 0) = false) ∧
    underObservation on (ucEngine 0) = false ∧
    (∀ n ∈ [0, 14], (test n 0).faults.test.map (·.blocks) = some n ∧ testIdle (test n 0) (ucCore 0) = true ∧ n + 1 < 16) ∧
    ((test 15 0).faults.test = some ⟨ucCore 0, 15, 0⟩ ∧ (test 15 0).pins.stage ≠ .booting) ∧
    (∀ c ∈ [0, 127], boot.pins.stage = .booting ∧ ucCore 0 ≤ ucCore c ∧ ucCore c < ucCore 128 ∧ mget boot.faults.bootTests 0 (ucCore c) < 15) ∧
    (due.faults.due.find? (testIdle due) = some (ucCore 0) ∧ testIdle due (ucCore 1) = true ∧ on.faults.due.find? (testIdle on) ≠ some (ucCore 1) ∧
      due.faults.asked.contains (ucCore 1) = false) ∧
    (due.faults.test = none ∧ due.faults.due.contains (ucCore 0) = true ∧ on.faults.asked.contains (ucCore 0) = false) := by decide +kernel

theorem witness_HealthAndFieldTests_scores :
    let at_ (n : Nat) : State := { on with faults := { acc := [(ucCore 0, n * 1024)] } }
    let v (n w : Nat) : Nat := min (accOf (at_ n) (ucCore 0) + w * 1024) (2 ^ 20 - 1)
    v 0 255 / 1024 < 256 ∧ (scoreOf (at_ 0) (ucCore 0) < 256 ∧ 256 ≤ v 0 256 / 1024 ∧ v 0 511 / 1024 < 512) ∧
    (256 ≤ scoreOf (at_ 256) (ucCore 0) ∧ v 256 255 / 1024 < 512) := by decide +kernel

theorem test_score_saturates : -- 13 R394: ACC stops at 1023 and the rest, and 256 is recorded once
    after .healthTick { on with faults := { acc := [(ucCore 0, 2 ^ 20 - 1)] } } (fun t => accOf t (ucCore 0)) = some (2 ^ 20 - 1 - 32767) ∧
    accOf (charge { on with faults := { acc := [(ucCore 0, 2 ^ 20 - 2)] } } (ucCore 0) 1) (ucCore 0) = 2 ^ 20 - 1 := by decide +kernel

/-- Host port 0 armed. -/
def armed : State := inHp (fun x => { x with armed := true }) on

theorem witness_ResetsAndDumps :
    let dump (n : Nat) : State := { on with faults := { dump := { state := n } } }
    (∀ s ∈ [on, armed], CanWrite s 0 0) ∧ (hport armed 0).armed = true ∧ (hport on 0).armed = false ∧
    (∀ v ∈ [128, 255], 128 ≤ (BitVec.ofNat 32 v).toNat % 256 ∧ coreOwner armed ((BitVec.ofNat 32 v).toNat % 128) = 0) ∧
    ((1 : Word).toNat % 2 = 1 ∧ natFld (1 : Word).toNat 1 2 = 0) ∧ isOwner armed 0 = true ∧
    (let s := { on with mgmt := { on.mgmt with owner := 1 } }
     CanWrite s 0 0 ∧ isOwner s 0 = false) ∧
    (∀ n ∈ [2, 3], (dump n).faults.dump.state = n) ∧ ((dump 1).pins.resetPending = false ∧ (dump 1).faults.dump.state = 1) ∧
    (on.pins.pwrfail = false ∧ on.mgmt.bothDown = false ∧ on.pins.resetPending = false ∧ on.faults.dump.state ≠ 1) ∧
    ((dump 2).faults.dump.state = 2 ∧ (dump 2).faults.dump.length = 0) ∧
    (running on 0 = false ∧ (unitsOf on 0).resets = [] ∧ stallBarks on 0 3 = false ∧ stallBarks on 0 1 = false ∧ accOf on (ucCore 0) = 0) := by unfold CanWrite; decide +kernel

theorem test_core_reset : -- 13 R398, R399
    after (.coreReset 0 128) { armed with cores := [(0, { sem := [(3, 5)] })] } (fun t => (semOf (core t 0) 3, accOf t (ucCore 0))) =
      some (0, 128 * 1024) := by decide +kernel

/-! ### Power, clocks and thermal -/

theorem witness_PowerEvents :
    let temps (n v : Nat) : List Nat := (List.range 72).map (fun i => if i = n then v else 0)
    let read (n v : Nat) : State := updPower on (fun x => { x with sensors := mofList 0 0 ((temps n v).take 72) })
    let led (n : Nat) : State := updPower on (fun x => { x with lead := (List.range 16).map (fun g => (g, n)) })
    let rail (ms : Nat) : RailAnswer := ⟨false, ms, 0, 0⟩
    awake on = true ∧ on.power.silent = false ∧ (updPower on (fun x => { x with silent := true })).power.silent = true ∧
    partExists on (0 : PartId) = true ∧ (16 * (leadSum (led 17) 0).2 < (leadSum (led 17) 0).1 ∧ (leadSum (led 16) 0).1 ≤ 16 * (leadSum (led 16) 0).2) ∧
    ((leadSum on 0).1 = 0 ∧ (part (inPart (fun x => { x with opCap := 0 }) on) 0).opCap < opRequested (inPart (fun x => { x with opCap := 0 }) on) 0 ∧
      opRequested on 0 ≤ (part on 0).opCap ∧ (leadSum (led 1) 0).1 ≠ 0) ∧
    (∀ mv ∈ [840, 860], let s := updPower on (fun x => { x with raising := true })
      s.power.raising = true ∧ s.power.avsPending = false ∧ mv ≤ s.power.target + 10 ∧ s.power.target ≤ mv + 10) ∧
    (on.power.target + 10 < 861 ∧ 839 + 10 < on.power.target) ∧
    (∀ n ∈ [0, 63], ∀ v ∈ [tjLimit on - 1], (∀ d < 4, dieTemp (read n v) d < tjLimit on) ∧
      (∀ i < 64, mget (read n v).power.sensors 0 i < 460) ∧ ∀ i < 8, mget (read n v).power.sensors 0 (64 + i) < 440) ∧
    (let s := read 64 440
     (∀ d < 4, dieTemp s d < tjLimit on) ∧ (∀ i < 64, mget s.power.sensors 0 i < 460) ∧ 440 ≤ mget s.power.sensors 0 (64 + 0) ∧
       (∀ i < 4, mget s.power.sensors 0 (68 + i) < 440) ∧ (ioHot s 0).power.sensors = s.power.sensors) ∧
    (460 ≤ mget (read 63 460).power.sensors 0 63 ∧ ∀ i < 8, mget (read 63 460).power.sensors 0 (64 + i) < 440) ∧
    (updPower on (fun x => { x with avsPending := true })).power.avsPending = true ∧ on.power.avsPending = false ∧
    ((∀ a ∈ (List.replicate 4 (rail 99)).take 4, a.ok = true ∨ a.silentMs < 100) ∧
      (((List.replicate 4 (rail 100)).take 4).zipIdx).find? (fun a => !a.1.ok && decide (100 ≤ a.1.silentMs)) = some (rail 100, 0)) := by
  decide +kernel

theorem test_thermal_trip : -- 14 R435: 115 degrees is 460 quarter degrees
    after (.sensorRead ((List.range 72).map (fun i => if i = 5 then 460 else 0))) on (fun t => (t.pins.stage, t.pins.thermtripN)) =
      some (.stopped, false) := by decide +kernel

theorem test_edc : -- 14 R429: above ICAP every galley is held at 48
    after (.powerPeriod (List.replicate 16 1000) 0) (setReg (updPower on (fun x => { x with meas := 1000 })) .dev 0x0080004 1000)
      (fun t => (t.power.edcHold, mget t.power.total 0 15)) = some (true, 48) := by decide +kernel

/-! ### Boot, pins and start-up -/

theorem witness_PinsAndReady :
    let at_ (p : Pins) : State := { on with pins := p }
    let waiting (s : State) : State :=
      let fell := { s with pins := { s.pins with resetN := false, pwrfail := false } }
      flushEvents (endFreeze (recordReset (takeDump ((List.range (nparts s)).foldl stopForReset fell) (ucSpeush 0) 3 0x20 7) 7 (ucSpeush 0) 9 9))
    let full := { on with faults := { dump := { state := 2 } } }
    (at_ { stage := .ready, resetN := false }).pins.resetN = false ∧
    (on.pins.resetN = true ∧ on.pins.stage = .ready ∧ (waiting on).faults.dump.state = 1 ∧ (waiting full).faults.dump.state ≠ 1) ∧
    ((at_ { stage := .held }).pins.stage = .held ∧ State.reset.pins.stage ≠ .ready ∧ State.reset.pins.stage ≠ .held ∧
      State.reset.pins.resetN = true) ∧
    (at_ { stage := .ready, resetPending := true }).pins.resetPending = true ∧
    (let s := at_ { stage := .held, resetN := false }
     s.pins.resetPending = false ∧ s.pins.stage = .held ∧ s.pins.resetN = false) ∧
    (awake on = true ∧ on.pins.pwrfail = false ∧ (at_ { stage := .ready, pwrfail := true }).pins.pwrfail = true) ∧
    (let s := { State.reset with mgmt := { bothDown := false } }
     s.pins.stage = .booting ∧ speushUp s = true ∧ s.pmode = s.mgmt.recordedMode ∧ s.faults.subst = [] ∧ s.evr.clearing = false ∧
       s.faults.oos = false ∧ s.faults.recov.length < 4) := by decide +kernel

theorem test_ready : -- 18 R508: every partition is INIT
    after .ready { State.reset with mgmt := { bothDown := false } } (fun t => (t.pins.stage, (part t 0).pstate)) = some (.ready, 1) := by
  decide +kernel

theorem test_power_loss : after .powerLoss { on with ms := { on.ms with mem := [(0, 1)] } } (fun t => (t.pins.stage, t.ms.mem)) =
    some (.held, []) := by decide +kernel

/-- A device with the first bytes of some firmware slots overwritten. -/
def badSlots (l : List Nat) : State := { on with mgmt := { on.mgmt with fw := l.map (fun i => (i, { bytes := [(0, 1), (1, 1)] })) } }

theorem witness_BootAndStart :
    let s (p : Part) : State := { on with parts := [(0, { p with xport := { impVa := 0, arm := true } })] }
    (on.mgmt.bootPref = 0 ∧ slotCheck on 0 = 0) ∧ (slotCheck (badSlots [0]) 0 ≠ 0 ∧ slotCheck (badSlots [0]) (1 - 0) = 0) ∧
    (slotCheck (badSlots [0, 1]) 0 ≠ 0 ∧ slotCheck (badSlots [0, 1]) (1 - 0) ≠ 0) ∧
    (CanWrite (s { pstate := 1 }) 0 0 ∧ (part (s { pstate := 1 }) 0).pstate = 1 ∧ (part on 0).pstate ≠ 1) ∧
    (CanWrite (s { pstate := 2 }) 0 0 ∧ (part (s { pstate := 2 }) 0).pstate = 2 ∧ (xport (s { pstate := 2 }) 0).arm = true ∧
      (xport (loadImage (updPart (s { pstate := 2 }) 0 (fun x => { x with pstate := 3, barFail := 0 })) 0) 0).result ≠ 1) := by
  unfold CanWrite; decide +kernel

theorem test_start : -- 18 R518
    after (.start 0) (inPart (fun x => { x with pstate := 1 }) on) (fun t => (part t 0).pstate) = some 2 ∧
    after (.start 0) on (fun t => ((part t 0).pstate, t.evr.pending.map (·.event))) = some (4, [2]) := by decide +kernel

/-! ### Management, the mailbox and the event recorder -/

/-- `on` with M0 up, a management key, and CTR 4 the last accepted. -/
def managed : State := setReg { on with mgmt := { on.mgmt with mup := [(0, 1)], ctr := 4 } } .dev 0x0010C50 1

/-- A frame of a type that M0's MAC accepts. -/
def mframe (t : Nat) (body : Bytes) : Frame :=
  { version := 1, srcMac := 0, vlan := regF managed .dev 0x0010C40 16 12, etype := regF managed .dev 0x0010C40 0 16, forUs := true
    header := [1, BitVec.ofNat 8 t] ++ leBytes 2 body.length ++ zeros 28, body := body }

theorem witness_ManagementFrames :
    let waits := inProof (fun x => { x with openStep := some 1, steps := [{ step := 1, state := 1, recVa := 0 }] })
      { managed with ticks := 64000000 * 9 / 80 }
    awake managed = true ∧ (mget managed.mgmt.mup 0 0 = 1 ∧ speushUp managed = true ∧ ¬ mget managed.mgmt.mup 0 1 = 1) ∧
    managed.pins.stage ≠ .recovery ∧ ({ on with pins := { stage := .recovery } } : State).pins.stage = .recovery ∧
    (∀ t ∈ [2, 3, 5], macAccepts managed 0 (mframe t []) = true ∧ (mframe t []).version = 1 ∧ frameType (mframe t []) = t ∧ isReady managed = true) ∧
    macAccepts managed 1 (mframe 2 []) = false ∧ macAccepts managed 0 { mframe 2 [] with forUs := false } = false ∧
    (listedFrame 0 = false ∧ listedFrame 8 = false ∧ listedFrame 7 = true ∧ { mframe 2 [] with version := 2 }.version ≠ 1) ∧
    (partExists waits (0 : PartId) = true ∧ stepActive waits 0 = true ∧ waits.mgmt.lost.contains 0 = false ∧
      waits.mgmt.hbTime.foldl (fun a c => max a c.2) 0 + 64000000 ≤ uptimeNs waits ∧
      uptimeNs { waits with ticks := 64000000 * 9 / 80 - 1 } < waits.mgmt.hbTime.foldl (fun a c => max a c.2) 0 + 64000000) ∧
    (managed.mgmt.standbyOk = true ∧ (updMgmt managed (fun m => { m with standbyOk := false })).mgmt.standbyOk = false) := by decide +kernel

theorem test_heartbeat_counts : after (.mgrHb 0 (mframe 2 [])) managed (fun t => mget t.mgmt.hbCount 0 0) = some 1 ∧
    after (.mgrHb 0 { mframe 2 [] with version := 2 }) managed (fun t => t.mgmt.drop) = some 1 := by decide +kernel

/-- A command frame with CTR 5 and its TAG. -/
def command (cmd : Nat) (args : Bytes) : Frame :=
  let b := leBytes 2 cmd ++ zeros 2 ++ leBytes 8 5 ++ zeros 4 ++ args
  let f := mframe 0x10 (b ++ zeros 16)
  { f with body := b ++ (hmacSha256 (mgmtKey managed) (f.header ++ b)).take 16 }

/-- The checks that every command passes. -/
def passes (cmd : Nat) (args : Bytes) : Bool :=
  let f := command cmd args
  macAccepts managed 0 f && f.version == 1 && frameType f == 0x10 && speushTakes managed && leAt (frameBody f) 0 2 == cmd &&
    !allZero (mgmtKey managed) && tagOk managed f && decide (managed.mgmt.ctr < cmdCtr (frameBody f)) &&
    zeroRange (frameBody f) 2 4 && zeroRange (frameBody f) 12 16 && cmdArgs (frameBody f) == args

theorem witness_ManagementCommands_pass : passes 1 (zeros 2 ++ leBytes 2 1 ++ leBytes 2 7) = true ∧ passes 2 [] = true ∧
    passes 3 (leBytes 2 0x103F ++ [0, 0]) = true ∧ passes 4 [] = true := by decide +kernel

theorem witness_ManagementCommands_pass' : passes 5 [0, 0, 0, 0] = true ∧ passes 6 [] = true ∧ passes 7 [1, 0, 0, 0] = true ∧
    passes 8 [3, 0, 0, 0] = true := by decide +kernel

theorem witness_ManagementCommands :
    let noKey := setReg managed .dev 0x0010C50 0
    let untagged := mframe 0x10 (leBytes 2 2 ++ zeros 30)
    let stale := { managed with mgmt := { managed.mgmt with ctr := 5 } }
    let strike (n : Nat) : Bytes := zeros 2 ++ leBytes 2 n ++ zeros (2 * n)
    awake managed = true ∧ (allZero (mgmtKey noKey) = true ∧ macAccepts noKey 0 untagged = true ∧ speushTakes noKey = true) ∧
    (leAt (frameBody untagged) 0 2 = 2 ∧ tagOk managed untagged = false) ∧
    (tagOk stale (command 2 []) = true ∧ cmdCtr (frameBody (command 2 [])) ≤ stale.mgmt.ctr) ∧
    zeroRange (leBytes 2 2 ++ [1, 0]) 2 4 = false ∧
    (∀ n ∈ [1, 1018], partExists fab 0 = true ∧ zeroRange (strike n) 1 2 = true ∧ leAt (strike n) 2 2 = n ∧ 4 + 2 * n ≤ (strike n).length) ∧
    ((proof managed 0).slice ≠ 0 ∧ (proof managed 0).slice ≠ 9 ∧ (proof State.reset 0).slice = 0) ∧
    (∀ k ∈ [(1, 3), (2, 63), (3, 119)], natFld (leAt (leBytes 2 (k.1 * 4096 + k.2)) 0 2) 12 4 = k.1 ∧
      natFld (leAt (leBytes 2 (k.1 * 4096 + k.2)) 0 2) 0 12 = k.2 ∧ hpPart managed 0 ≠ none ∧ isFrozen managed k.1 k.2 0 = false) ∧
    isFrozen (inHp (fun x => { x with frozen := true }) managed) 1 0 0 = true ∧
    (∀ p ∈ [0, 3, 4, 5, 6], leAt [BitVec.ofNat 8 p, 1] 0 1 = p ∧ leAt [BitVec.ofNat 8 p, 1] 1 1 < 2) ∧
    (managed.mgmt.standbyOk = true ∧ ({ on with mgmt := { bothDown := false } } : State).mgmt.standbyOk = false) := by decide +kernel

theorem test_owner_command : -- 15 R449: OWNER sets OWNER_NEXT and the counter
    after (.owner 0 (command 8 [3, 0, 0, 0])) managed (fun t => (t.mgmt.ownerNext, t.mgmt.ctr)) = some (3, 5) := by decide +kernel

/-- A mailbox command with a request. -/
def mailbox (cmd len : Nat) (req : Map Byte) : State := inHp (fun x => { x with mailbox := { cmd := cmd, len := len, req := req } }) on

theorem witness_Mailbox :
    (∀ c ∈ [0x0101, 0x0105], CanWrite (mailbox c 4 []) 0 0 ∧ (hport (mailbox c 4 []) 0).mailbox.cmd = c ∧
      (hport (mailbox c 4 []) 0).mailbox.busy = false ∧ speushUp (mailbox c 4 []) = true ∧ isOwner (mailbox c 4 []) 0 = true ∧
      (mailbox c 4 []).pins.pwrfail = false) ∧
    (let s := { mailbox 0x0102 0 [] with mgmt := { on.mgmt with owner := 1 } }
     CanWrite s 0 0 ∧ isOwner s 0 = false ∧ speushUp s = true) ∧
    (let s := { mailbox 0x0102 0 [] with mgmt := { bothDown := true } }
     CanWrite s 0 0 ∧ speushUp s = false) ∧
    (let s := inHp (fun x => { x with mailbox := { cmd := 0x0103, busy := true } }) on
     CanWrite s 0 0 ∧ (hport s 0).mailbox.busy = true) ∧
    (leNat (mbReq (mailbox 0x0101 5 [(2, 0xFF), (3, 4)]) 0 0 4) = 0x4FF0000 ∧
      0x4FF0000 + (mbReq (mailbox 0x0101 5 [(2, 0xFF), (3, 4)]) 0 4 1).length ≤ 83886080) ∧
    83886080 < leNat (mbReq (mailbox 0x0101 5 [(3, 5)]) 0 0 4) + (mbReq (mailbox 0x0101 5 [(3, 5)]) 0 4 1).length ∧
    (0x0100 < 0x0101 ∧ 0x0105 < 0x0106) ∧ (slotCheck on 1 = 0 ∧ slotCheck (badSlots [1]) 1 ≠ 0) ∧
    ((fwSlot { on with mgmt := { on.mgmt with fw := [(1, { verified := true })] } } 1).verified = true ∧ (fwSlot on 1).verified = false) ∧
    (∀ n ∈ [4096, 4097], leNat (mbReq (mailbox 0x0105 12 (mofList 0 8 (leBytes 2 n))) 0 8 4) = n) ∧
    (∃ b : Nat, b < 64 ∧ b < { on.mgmt with svn := 1 }.svn) := by
  unfold CanWrite
  refine ⟨by decide +kernel, by decide +kernel, by decide +kernel, by decide +kernel, by decide +kernel, by decide +kernel,
    by decide +kernel, by decide +kernel, by decide +kernel, by decide +kernel, 0, by decide, by decide⟩

theorem test_firmware_chunk : -- 15 R458
    after (.fwChunk 0) (mailbox 0x0101 5 [(0, 3), (4, 9)]) (fun t => ((fwSlot t 1).bytes, (hport t 0).mailbox.result)) =
      some ([(3, 9)], 0) := by decide +kernel

/-- A record of severity 1 of partition 0. -/
def event (n : Nat) : Event :=
  { seq := n, uptime := 0, step := 0, epoch := 0, reprint := 0, sev := 1, part := 0, injected := false, source := 0, oper := 0, event := 1,
    temp := 0, vcore := 0, rep := 0, detail := [], lastDt := 0 }

theorem witness_EventRecorder :
    let frozen := { on with evr := { frozen := true } }
    let stored := { on with evr := { flash := [event 4], pending := [event 6] } }
    let named (v : Nat) : State := inHp (fun x => { x with rdSeq := v }) stored
    CanWrite on 0 0 ∧ on.evr.frozen = false ∧ on.mgmt.bothDown = false ∧ frozen.evr.frozen = true ∧ isOwner on 0 = true ∧ on.evr.minSev ≤ 2 ∧
    ((hport armed 0).armed = true ∧ armed.evr.frozen = false ∧ (hport on 0).armed = false ∧ on.evr.frozen = false) ∧
    (∀ q ∈ [0, 4], (recordsInOrder (named q)).find? (fun x => decide (q ≤ x.seq) && mayRead (named q) 0 x) = some (event 4)) ∧
    (recordsInOrder (named 5)).find? (fun x => decide (5 ≤ x.seq) && mayRead (named 5) 0 x) = some (event 6) ∧
    (recordsInOrder (named 7)).find? (fun x => decide (7 ≤ x.seq) && mayRead (named 7) 0 x) = none := by unfold CanWrite; decide +kernel

theorem test_recorder_lookup : -- 16 R477
    after (.evrRdSeq 0 0) { inHp (fun x => { x with rdSeq := 7 }) on with evr := { flash := [event 4] } } (fun t => (hport t 0).rdStat) = some 8 := by
  decide +kernel

/-! ### The register interface -/

/-- What stands in the one field of a word and how it takes a value. -/
def lone (s : State) (off v : Nat) (t : Acc → Nat → Nat → Bool) : Bool := match fieldsAt 0 0 off with
  | [f] => t f.acc (f.range s (f.val v)) (f.gate s (f.val v))
  | _ => false

theorem witness_RegisterWrites :
    let other := { on with mgmt := { on.mgmt with owner := 1 } }
    let early : State := { on with pins := { stage := .booting } }
    CanWrite on 0 0 ∧ CanWrite armed 0 0 ∧ CanWrite other 0 0 ∧ (fieldsAt 0 0 0x0010014).length = 0 ∧
    (lone on 0x001000C 5 (fun a r g => a == .rw && r == 0 && g == 5) && inRegScope on 0 0 (scopeAt on 0x001000C 5)) = true ∧
    (lone on 0x0010008 5 (fun a r g => a == .rw && r == 0 && g == 0) && inRegScope on 0 0 (scopeAt on 0x0010008 5)) = true ∧
    (lone on 0x0080018 1 (fun a r _ => a == .rw && r == 2) && inRegScope on 0 0 (scopeAt on 0x0080018 1)) = true ∧
    (lone on 0x0200028 0x10000 (fun a r _ => a == .rw && r == 3) && inRegScope on 0 0 (scopeAt on 0x0200028 0x10000)) = true ∧
    (lone on 0x0010C08 0x10 (fun a r g => a == .w1c && r == 0 && g == 5)) = true ∧
    (lone armed 0x0010000 2 (fun a r g => a == .rwk && r == 0 && g == 5) && inRegScope armed 0 0 (scopeAt armed 0x0010000 2)) = true ∧
    (lone armed 0x0010000 3 (fun a r _ => a == .rwk && r != 0)) = true ∧
    (lone armed 0x0010004 1 (fun a r g => a == .rwk && r == 0 && g == 0) && inRegScope armed 0 0 (scopeAt armed 0x0010004 1)) = true ∧
    (lone other 0x0080018 80 (fun a _ _ => a == .rw) && !inRegScope other 0 0 (scopeAt other 0x0080018 80)) = true ∧
    (lone other 0x0010000 1 (fun a _ _ => a == .rwk) && !inRegScope other 0 0 (scopeAt other 0x0010000 1)) = true ∧
    ((hport on 0).armed = false ∧ (hport armed 0).armed = true) ∧ (awake early = true ∧ hostCan early 0 = true ∧ isReady early = false) ∧
    (hport (inHp (fun x => { x with frozen := true }) on) 0).frozen = true := by unfold CanWrite; decide +kernel

theorem test_register_write : -- 17 R485: a keyed write needs the arming and consumes it
    after (.registerWrite 0 0x0010000 4 2) armed (fun t => (t.mgmt.pmodeNext, (hport t 0).armed)) = some (2, false) ∧
    after (.registerWrite 0 0x0010000 4 2) on (fun t => t.mgmt.pmodeNext) = some 0 ∧
    after (.registerWrite 0 0x001000C 4 5) on (fun t => regF t (.hp 0) 0x001000C 0 28) = some 5 := by decide +kernel

/-- The alias address of bit `b` of a word. -/
def aliasAddr (off b : Nat) : Nat := 0x2000000 + 4 * (8 * off + b)

/-- Whether the field at a bit of a word has an access. -/
def bitHas (off b : Nat) (t : Acc → Bool) : Bool :=
  aliased off && listedWord off && ((fieldsAt 0 0 off).find? (·.has b)).any (fun f => t f.acc)

theorem witness_UnlockIndirectAndAliases :
    let at_ (a : Nat) : State := inHp (fun x => { x with indAddr := a }) on
    CanWrite on 0 0 ∧ (0x7F1C0D5E : Word).toNat = 0x7F1C0D5E ∧ (0 : Word).toNat ≠ 0x7F1C0D5E ∧
    (windowAt (hport (at_ 0x10000000) 0).indAddr = .mailbox 0 ∧ windowErr (at_ 0x10000000) 0 0 true (.mailbox 0) = 0 ∧
      windowErr (at_ 0x10000000) 0 0 true (.mailbox 0x2000) ≠ 0 ∧ windowErr on 0 0 false (windowAt 0) = 0) ∧
    (latches 0x20 = true ∧ latches 0x24 = false ∧ latches 0 = false ∧ latches 0x10 = false ∧ latches 0xC = false) ∧
    (hport (inHp (fun x => { x with latchOff := 0x20 }) on) 0).latchOff = 0x24 - 4 ∧
    (let a := aliasAddr 0x40 0
     aliasOf a = (0x40, 0) ∧ (aliased 0x40 && listedWord 0x40) = false ∧ 0x2000000 ≤ a ∧ a % 4 = 0) ∧
    (aliasOf (aliasAddr 0x0010C00 31) = (0x0010C00, 31) ∧ (aliased 0x0010C00 && listedWord 0x0010C00) = true ∧
      ((fieldsAt 0 0 0x0010C00).find? (·.has 31)).isNone = true) ∧
    bitHas 0x001000C 0 (· == .rw) = true ∧ bitHas 0x0010000 1 (· == .rwk) = true ∧ bitHas 0x0010C08 4 (· == .w1c) = true ∧
    bitHas 0x0010010 0 (· == .wo) = true ∧ (1 : Word).toNat % 2 = 1 ∧ ¬ (0 : Word).toNat % 2 = 1 := by unfold CanWrite; decide +kernel

theorem test_bit_alias : -- 17 R493
    after (.bitAliasWrite 0 (aliasAddr 0x001000C 3) 1) on (fun t => regF t (.hp 0) 0x001000C 0 28) = some 8 ∧
    after (.unlock 0 0x7F1C0D5E) on (fun t => (hport t 0).armed) = some true := by decide +kernel

theorem witness_RegistersWithEffects :
    let idle := inHp (fun x => { x with armed := true }) on
    CanWrite idle 0 0 ∧ (hport idle 0).armed = true ∧
    (lcorePart idle (0 : LogicalId) = 0 ∧ (∀ x < 120, x ≠ 0 → physOf idle x ≠ (127 : Word).toNat % 128) ∧ smem idle.retiredCores 127 = false ∧
      (127 : Word).toNat % 128 / (128 / nparts idle) = 0 ∧ stepActive idle 0 = false ∧ ∀ x ∈ idle.launches, x.part ≠ 0) ∧
    smem { idle with retiredCores := [127] }.retiredCores ((127 : Word).toNat % 128) = true ∧
    (isOwner idle 0 = true ∧ (256 : Word).toNat % 512 ≤ 256 ∧ idle.mgmt.bootPref ≤ 1) ∧
    (isFrozen (inHp (fun x => { x with frozen := true }) idle) 1 0 0 = true ∧
      isFrozen (updQueue idle 0 63 (fun x => { x with state := 3 })) 2 63 0 = true ∧
      isFrozen { idle with frozenCores := [119] } 3 119 0 = true ∧ lcorePart idle 119 = 0) ∧
    (portPart idle 0 = some 0 ∧ jpCfg idle 0 / 32 % 4 = 0 ∧ natFld (jpCfg idle 0) 3 2 ≤ 2 ∧ 4 ≤ natFld (jpCfg idle 0) 8 4 ∧
      natFld (jpCfg idle 0) 8 4 ≤ 7 ∧ (hport on 0).armed = false) := by unfold CanWrite; decide +kernel

theorem test_stream_division : -- 04 R107
    (aluElem { (default : UnitRec) with ty := 6, op := 0x10 } (2 ^ 31) (2 ^ 32 - 1) 0).1 = 2 ^ 31 - 1 ∧
    (aluElem { (default : UnitRec) with ty := 6, op := 0x11 } (2 ^ 31) (2 ^ 32 - 1) 0).1 = 0 := by decide +kernel

theorem witness_StreamIntegers : { (default : UnitRec) with ty := 6, op := 0x10 }.ty = 6 := by decide +kernel


theorem test_sha256 : -- FIPS 180-4, its one-block example "abc"
    sub (sha256 [0x61, 0x62, 0x63]) 0 8 = [0xBA, 0x78, 0x16, 0xBF, 0x8F, 0x01, 0xCF, 0xEA] := by decide +kernel
end Sys2Proof.Machine.Tests
end

section
/-! Integers of the stream fabric (04 R106 to R108): the units compute INT32 on `Int`, and their results are read back as
words of 32 bits. -/

namespace Sys2Proof.Machine

/-! ### Values and codes of two's complement words -/

@[simp] theorem sext_toNat {n : Nat} (x : BitVec n) : sext n x.toNat = x.toInt := by
  cases n with
  | zero => simp [sext, BitVec.eq_nil x]
  | succ m =>
    have half : x.toNat < 2 ^ m ↔ 2 * x.toNat < 2 ^ (m + 1) := by omega
    simp only [sext, BitVec.toInt_eq_toNat_cond, Nat.mod_eq_of_lt x.isLt, Nat.add_sub_cancel, half]

theorem toCode_eq_toNat_ofInt (n : Nat) (i : Int) : toCode n i = (BitVec.ofInt n i).toNat :=
  (BitVec.toNat_ofInt i).symm

theorem toCode_toInt_add {n : Nat} (x y : BitVec n) : toCode n (x.toInt + y.toInt) = (x + y).toNat := by
  simp only [toCode_eq_toNat_ofInt, BitVec.ofInt_add, BitVec.ofInt_toInt]

theorem toCode_toInt_sub {n : Nat} (x y : BitVec n) : toCode n (x.toInt - y.toInt) = (x - y).toNat := by
  simp only [toCode_eq_toNat_ofInt, Int.sub_eq_add_neg, BitVec.ofInt_add, BitVec.ofInt_neg, BitVec.ofInt_toInt,
    BitVec.sub_eq_add_neg]

theorem toCode_toInt_mul {n : Nat} (x y : BitVec n) : toCode n (x.toInt * y.toInt) = (x * y).toNat := by
  simp only [toCode_eq_toNat_ofInt, BitVec.ofInt_mul, BitVec.ofInt_toInt]

theorem toCode_toInt_mul_add {n : Nat} (x y z : BitVec n) :
    toCode n (x.toInt * y.toInt + z.toInt) = (x * y + z).toNat := by
  simp only [toCode_eq_toNat_ofInt, BitVec.ofInt_add, BitVec.ofInt_mul, BitVec.ofInt_toInt]

theorem toInt_eq_zero_iff {n : Nat} (x : BitVec n) : x.toInt = 0 ↔ x = 0 := by
  simpa using BitVec.toInt_inj (x := x) (y := 0)

/-! ### The integer lanes of the units -/

/-- The ALU opcodes R107 speaks of: ADD, SUB, DIV and REM. -/
def IsWrapOrDivide (op : Nat) : Prop := op = 0x01 ∨ op = 0x02 ∨ op = 0x10 ∨ op = 0x11

theorem aluElem_int32 {r : UnitRec} (hty : r.ty = 6) (hop : IsWrapOrDivide r.op) (a b : BitVec 32) (d : Nat) :
    aluElem r a.toNat b.toNat d =
      (toCode 32 (aluInt r.op a.toInt b.toInt).1, (aluInt r.op a.toInt b.toInt).2) := by
  rcases hop with h | h | h | h <;> simp [aluElem, h, hty]

theorem fmaElem_int32_mul {r : UnitRec} (hty : r.ty = 6) (hop : r.op = 0x01) (a b c : BitVec 32) :
    fmaElem r a.toNat b.toNat c.toNat = ((a * b).toNat, {}) := by
  simp [fmaElem, hty, hop, toCode_toInt_mul]

theorem fmaElem_int32_fma {r : UnitRec} (hty : r.ty = 6) (hop : r.op = 0x02) (a b c : BitVec 32) :
    fmaElem r a.toNat b.toNat c.toNat = ((a * b + c).toNat, {}) := by
  simp [fmaElem, hty, hop, toCode_toInt_mul_add]

theorem aluElem_int32_add {r : UnitRec} (hty : r.ty = 6) (hop : r.op = 0x01) (a b : BitVec 32) (d : Nat) :
    aluElem r a.toNat b.toNat d = ((a + b).toNat, {}) := by
  rw [aluElem_int32 hty (.inl hop), hop]
  exact congrArg (·, _) (toCode_toInt_add a b)

theorem aluElem_int32_sub {r : UnitRec} (hty : r.ty = 6) (hop : r.op = 0x02) (a b : BitVec 32) (d : Nat) :
    aluElem r a.toNat b.toNat d = ((a - b).toNat, {}) := by
  rw [aluElem_int32 hty (.inr (.inl hop)), hop]
  exact congrArg (·, _) (toCode_toInt_sub a b)

/-- The quotient has three cases: by zero, the one that leaves the range of INT32, and the truncated one. -/
theorem aluElem_int32_div {r : UnitRec} (hty : r.ty = 6) (hop : r.op = 0x10) (a b : BitVec 32) (d : Nat) :
    aluElem r a.toNat b.toNat d = if b = 0 then (0, { div0 := 1 })
      else if a.toInt = -2 ^ 31 ∧ b.toInt = -1 then (2 ^ 31 - 1, { sat := 1 })
      else ((BitVec.ofInt 32 (Int.tdiv a.toInt b.toInt)).toNat, {}) := by
  rw [aluElem_int32 hty (.inr (.inr (.inl hop))), hop]
  simp only [aluInt, toInt_eq_zero_iff]
  split_ifs
  · rfl
  · rfl
  · rw [toCode_eq_toNat_ofInt]

/-- The remainder needs no case for -2^31 by -1: the truncated remainder by -1 is 0. -/
theorem aluElem_int32_rem {r : UnitRec} (hty : r.ty = 6) (hop : r.op = 0x11) (a b : BitVec 32) (d : Nat) :
    aluElem r a.toNat b.toNat d = if b = 0 then (0, { div0 := 1 })
      else if a.toInt = -2 ^ 31 ∧ b.toInt = -1 then (0, {})
      else ((BitVec.ofInt 32 (Int.tmod a.toInt b.toInt)).toNat, {}) := by
  rw [aluElem_int32 hty (.inr (.inr (.inr hop))), hop]
  simp only [aluInt, toInt_eq_zero_iff]
  split_ifs with hzero hover
  · rfl
  · obtain ⟨ha, hb⟩ := hover
    rw [ha, hb]
    rfl
  · rw [toCode_eq_toNat_ofInt]

/-- Settles O59, one lemma for each opcode. -/
theorem streamIntegers : Obligations.StreamIntegers := by
  unfold Obligations.StreamIntegers
  intro r a b c d hty
  exact ⟨fun hop => aluElem_int32_add hty hop a b d, fun hop => aluElem_int32_sub hty hop a b d,
    fun hop => fmaElem_int32_mul hty hop a b c, fun hop => fmaElem_int32_fma hty hop a b c,
    fun hop => aluElem_int32_div hty hop a b d, fun hop => aluElem_int32_rem hty hop a b d⟩

end Sys2Proof.Machine
end

section
/-! The arithmetic of the core sequencer (05 R125 to R127): an ALU instruction computes on words of 64 bits, and its result
is read back as a result on `Nat` or `Int` modulo 2^64. -/

namespace Sys2Proof.Machine

/-! ### Words as results modulo a power of two -/

theorem sub_eq_ofInt {w : Nat} (a b : BitVec w) : a - b = BitVec.ofInt w ((a.toNat : Int) - b.toNat) := by
  simp [Int.sub_eq_add_neg, BitVec.ofInt_add, BitVec.ofInt_neg, BitVec.sub_eq_add_neg]

theorem mul_eq_ofNat {w : Nat} (a b : BitVec w) : a * b = BitVec.ofNat w (a.toNat * b.toNat) := by
  simp [BitVec.ofNat_mul]

theorem shiftLeft_eq_ofNat {w : Nat} (a : BitVec w) (n : Nat) : a <<< n = BitVec.ofNat w (a.toNat * 2 ^ n) := by
  rw [← BitVec.shiftLeft_eq, BitVec.shiftLeft, Nat.shiftLeft_eq]

theorem ushiftRight_eq_ofNat {w : Nat} (a : BitVec w) (n : Nat) : a >>> n = BitVec.ofNat w (a.toNat / 2 ^ n) := by
  rw [← Nat.shiftRight_eq_div_pow, ← BitVec.toNat_ushiftRight, BitVec.ofNat_toNat, BitVec.setWidth_eq]

theorem sshiftRight_eq_ofInt {w : Nat} (a : BitVec w) (n : Nat) : a.sshiftRight n = BitVec.ofInt w (a.toInt / 2 ^ n) := by
  rw [BitVec.sshiftRight, Int.shiftRight_eq_div_pow]
  norm_cast

/-! ### Operations of the ALU -/

theorem bit64_decide (p : Prop) [Decidable p] : bit64 (decide p) = if p then 1 else 0 := by simp [bit64]

theorem minS_eq_ofInt (a b : BitVec 64) : minS a b = BitVec.ofInt 64 (min a.toInt b.toInt) := by
  simp only [minS, min_def_lt, apply_ite (BitVec.ofInt 64), BitVec.ofInt_toInt]

theorem maxS_eq_ofInt (a b : BitVec 64) : maxS a b = BitVec.ofInt 64 (max a.toInt b.toInt) := by
  simp only [maxS, max_def_lt, apply_ite (BitVec.ofInt 64), BitVec.ofInt_toInt]

theorem minU_eq_ofNat (a b : BitVec 64) : minU a b = BitVec.ofNat 64 (min a.toNat b.toNat) := by
  simp only [minU, min_def_lt, apply_ite (BitVec.ofNat 64), BitVec.ofNat_toNat, BitVec.setWidth_eq]

theorem maxU_eq_ofNat (a b : BitVec 64) : maxU a b = BitVec.ofNat 64 (max a.toNat b.toNat) := by
  simp only [maxU, max_def_lt, apply_ite (BitVec.ofNat 64), BitVec.ofNat_toNat, BitVec.setWidth_eq]

theorem csqDivide_eq (a b : BitVec 64) : csqDivide a b =
    if b = 0 then 0
    else if a.toInt = -2 ^ 63 ∧ b.toInt = -1 then BitVec.ofInt 64 (2 ^ 63 - 1)
    else BitVec.ofInt 64 (Int.tdiv a.toInt b.toInt) := rfl

/-- The model needs no case for -2^63 by -1: the truncated remainder by -1 is 0. -/
theorem csqRemainder_eq (a b : BitVec 64) : csqRemainder a b =
    if b = 0 then 0 else if a.toInt = -2 ^ 63 ∧ b.toInt = -1 then 0
    else BitVec.ofInt 64 (Int.tmod a.toInt b.toInt) := by
  unfold csqRemainder
  split_ifs with _ hover
  · rfl
  · obtain ⟨ha, hb⟩ := hover
    rw [ha, hb]
    rfl
  · rfl

/-! ### Immediates (R125) -/

@[simp] theorem immX_toInt (imm : BitVec 14) : (immX imm).toInt = imm.toInt := BitVec.toInt_signExtend_of_le (by decide)

theorem add_immX (a : BitVec 64) (imm : BitVec 14) : a + immX imm = BitVec.ofInt 64 (a.toInt + imm.toInt) := by
  rw [BitVec.ofInt_add, BitVec.ofInt_toInt, immX, BitVec.signExtend]

theorem bit64_toInt_lt_immX (a : BitVec 64) (imm : BitVec 14) :
    bit64 (decide (a.toInt < (immX imm).toInt)) = if a.toInt < imm.toInt then 1 else 0 := by
  rw [bit64_decide, immX_toInt]

theorem signExtend_shiftLeft {v w : Nat} (x : BitVec v) (n : Nat) :
    x.signExtend w <<< n = BitVec.ofInt w (x.toInt * 2 ^ n) := by
  rw [shiftLeft_eq_ofNat, BitVec.ofNat_mul, BitVec.ofNat_toNat, BitVec.setWidth_eq, BitVec.signExtend,
    ← BitVec.ofInt_natCast, ← BitVec.ofInt_mul]
  norm_cast

/-! ### An instruction that completes writes its result to s[rd] (R126) -/

section
variable {s : State} {c : CoreId} (hrun : CsqRuns s c) (hpc : (core s c).pc + 4 < 2 ^ 18) {rd ra rb : SReg} {imm : BitVec 14}
  {v : BitVec 64}
include hrun hpc

theorem putReg_retires {f : Core → BitVec 64} (hv : f (core s c) = v) :
    putReg s c rd f = .next (retire s c (sset (core s c) rd v)) := by
  rw [putReg_runs rd f hrun hpc, hv]

theorem regOp_retires {f : BitVec 64 → BitVec 64 → BitVec 64} (hv : f (sget (core s c) ra) (sget (core s c) rb) = v) :
    regOp s c rd ra rb f = .next (retire s c (sset (core s c) rd v)) :=
  putReg_retires hrun hpc hv

theorem immOp_retires {f : BitVec 64 → BitVec 64 → BitVec 64} (hv : f (sget (core s c) ra) (immX imm) = v) :
    immOp s c rd ra imm f = .next (retire s c (sset (core s c) rd v)) :=
  putReg_retires hrun hpc hv

theorem shiftImm_retires {f : BitVec 64 → Nat → BitVec 64} (hn : imm.toNat < 64)
    (hv : f (sget (core s c) ra) imm.toNat = v) :
    shiftImm s c rd ra imm f = .next (retire s c (sset (core s c) rd v)) := by
  have hlegal (r : Host.Outcome State Fault Refusal) : legal s c (imm.toNat < 64) r = r := by simp [legal, hn]
  rw [shiftImm, csqDo_runs hrun, hlegal, advance_next _ _ _ (by simp) (by simp) hpc, hv]

end

/-- Settles O6: each instruction is one of the ALU forms, and its operation has the value that R126 and R127 give. -/
theorem csqArithmetic : Obligations.CsqArithmetic := by
  unfold Obligations.CsqArithmetic
  refine ⟨?registers, ?division, ?immediates⟩
  -- Each operation is named as the instruction's arm of `exec` has it, so that the arm unfolds to its form by computation.
  case registers =>
    intro s c rd ra rb hrun hpc k a b n
    have reg (f : BitVec 64 → BitVec 64 → BitVec 64) {v : BitVec 64} (hv : f a b = v) :
        regOp s c rd ra rb f = .next (retire s c (sset k rd v)) := regOp_retires hrun hpc hv
    exact ⟨reg (· + ·) (BitVec.add_def a b), reg (· - ·) (sub_eq_ofInt a b), reg (· &&& ·) rfl, reg (· ||| ·) rfl,
      reg (· ^^^ ·) rfl, reg (fun a b => a <<< shamt b) (shiftLeft_eq_ofNat a n),
      reg (fun a b => a >>> shamt b) (ushiftRight_eq_ofNat a n),
      reg (fun a b => a.sshiftRight (shamt b)) (sshiftRight_eq_ofInt a n),
      reg (· * ·) (mul_eq_ofNat a b), reg mulHigh rfl,
      reg (fun a b => bit64 (decide (a.toInt < b.toInt))) (bit64_decide _),
      reg (fun a b => bit64 (decide (a.toNat < b.toNat))) (bit64_decide _),
      reg minS (minS_eq_ofInt a b), reg maxS (maxS_eq_ofInt a b), reg minU (minU_eq_ofNat a b), reg maxU (maxU_eq_ofNat a b)⟩
  case division =>
    intro s c rd ra rb hrun hpc k a b
    exact ⟨regOp_retires hrun hpc (csqDivide_eq a b), regOp_retires hrun hpc (csqRemainder_eq a b)⟩
  case immediates =>
    intro s c rd ra imm up hrun hpc k a x n
    have op (f : BitVec 64 → BitVec 64 → BitVec 64) {v : BitVec 64} (hv : f a (immX imm) = v) :
        immOp s c rd ra imm f = .next (retire s c (sset k rd v)) := immOp_retires hrun hpc hv
    have shift (hn : n < 64) (f : BitVec 64 → Nat → BitVec 64) {v : BitVec 64} (hv : f a n = v) :
        shiftImm s c rd ra imm f = .next (retire s c (sset k rd v)) := shiftImm_retires hrun hpc hn hv
    exact ⟨op (· + ·) (add_immX a imm), op (· &&& ·) rfl, op (· ||| ·) rfl, op (· ^^^ ·) rfl,
      op (fun a x => bit64 (decide (a.toInt < x.toInt))) (bit64_toInt_lt_immX a imm),
      op (fun a x => bit64 (decide (a.toNat < x.toNat))) (bit64_decide _),
      putReg_retires (f := fun _ => up.signExtend 64 <<< 14) hrun hpc (signExtend_shiftLeft up 14), fun hn =>
        ⟨shift hn (· <<< ·) (shiftLeft_eq_ofNat a n), shift hn (· >>> ·) (ushiftRight_eq_ofNat a n),
          shift hn BitVec.sshiftRight (sshiftRight_eq_ofInt a n)⟩⟩

end Sys2Proof.Machine
end

section
/-! The encoding of the core sequencer's instructions (05 R125, R126): the fields of a word of each form, and that
encoding and decoding undo each other. -/

namespace Sys2Proof.Machine

/-! ### The fields of a word -/

section
variable (op : BitVec 8) (rd ra rb : SReg) (fn : BitVec 9) (imm : BitVec 14) (up : BitVec 19)

/-- The field above the lowest field of a word. -/
theorem extract_above {n v w start : Nat} (hi : BitVec v) (lo : BitVec w) :
    (hi ++ lo).extractLsb' (w + start) n = hi.extractLsb' start n := by
  rw [BitVec.extractLsb'_append_eq_of_le (by omega), Nat.add_sub_cancel_left]

@[simp] theorem wOp_uppWord : wOp (uppWord op rd up) = op := BitVec.extractLsb'_append_eq_right
@[simp] theorem wRd_uppWord : wRd (uppWord op rd up) = rd :=
  (extract_above (start := 0) (up ++ rd) op).trans BitVec.extractLsb'_append_eq_right
@[simp] theorem wImm19_uppWord : wImm19 (uppWord op rd up) = up :=
  (extract_above (start := 5) (up ++ rd) op).trans BitVec.extractLsb'_append_eq_left

theorem immWord_eq_uppWord : immWord op rd ra imm = uppWord op rd (imm ++ ra) := rfl
theorem regWord_eq_immWord : regWord op rd ra rb fn = immWord op rd ra (fn ++ rb) := rfl

@[simp] theorem wOp_immWord : wOp (immWord op rd ra imm) = op := wOp_uppWord ..
@[simp] theorem wRd_immWord : wRd (immWord op rd ra imm) = rd := wRd_uppWord ..
@[simp] theorem wRa_immWord : wRa (immWord op rd ra imm) = ra :=
  (extract_above (start := 5) (imm ++ ra ++ rd) op).trans
    ((extract_above (start := 0) (imm ++ ra) rd).trans BitVec.extractLsb'_append_eq_right)
@[simp] theorem wImm14_immWord : wImm14 (immWord op rd ra imm) = imm :=
  (extract_above (start := 10) (imm ++ ra ++ rd) op).trans
    ((extract_above (start := 5) (imm ++ ra) rd).trans BitVec.extractLsb'_append_eq_left)

@[simp] theorem wOp_regWord : wOp (regWord op rd ra rb fn) = op := wOp_uppWord ..
@[simp] theorem wRd_regWord : wRd (regWord op rd ra rb fn) = rd := wRd_uppWord ..
@[simp] theorem wRa_regWord : wRa (regWord op rd ra rb fn) = ra := wRa_immWord ..
@[simp] theorem wRb_regWord : wRb (regWord op rd ra rb fn) = rb :=
  (extract_above (start := 10) (fn ++ rb ++ ra ++ rd) op).trans
    ((extract_above (start := 5) (fn ++ rb ++ ra) rd).trans
      ((extract_above (start := 0) (fn ++ rb) ra).trans BitVec.extractLsb'_append_eq_right))
@[simp] theorem wFn_regWord : wFn (regWord op rd ra rb fn) = fn :=
  (extract_above (start := 15) (fn ++ rb ++ ra ++ rd) op).trans
    ((extract_above (start := 10) (fn ++ rb ++ ra) rd).trans
      ((extract_above (start := 5) (fn ++ rb) ra).trans BitVec.extractLsb'_append_eq_left))

end

/-! ### A word from its fields -/

theorem wImm19_append_wRd (w : BitVec 32) : wImm19 w ++ wRd w = w.extractLsb' 8 24 :=
  BitVec.extractLsb'_append_extractLsb'_eq_extractLsb' rfl
theorem wImm14_append_wRa (w : BitVec 32) : wImm14 w ++ wRa w = wImm19 w :=
  BitVec.extractLsb'_append_extractLsb'_eq_extractLsb' rfl
theorem wFn_append_wRb (w : BitVec 32) : wFn w ++ wRb w = wImm14 w :=
  BitVec.extractLsb'_append_extractLsb'_eq_extractLsb' rfl

theorem uppWord_fields (w : BitVec 32) : uppWord (wOp w) (wRd w) (wImm19 w) = w := by
  have whole : w.extractLsb' 8 24 ++ wOp w = w.extractLsb' 0 32 :=
    BitVec.extractLsb'_append_extractLsb'_eq_extractLsb' rfl
  rw [uppWord, wImm19_append_wRd, whole, BitVec.extractLsb'_eq_self]

theorem immWord_fields (w : BitVec 32) : immWord (wOp w) (wRd w) (wRa w) (wImm14 w) = w := by
  rw [immWord_eq_uppWord, wImm14_append_wRa, uppWord_fields]

theorem regWord_fields (w : BitVec 32) : regWord (wOp w) (wRd w) (wRa w) (wRb w) (wFn w) = w := by
  rw [regWord_eq_immWord, wFn_append_wRb, immWord_fields]

section
variable {w : BitVec 32} {op : BitVec 8} (hop : (wOp w).toNat = op.toNat)
include hop

theorem uppWord_of_op : some (uppWord op (wRd w) (wImm19 w)) = some w := by
  rw [← BitVec.eq_of_toNat_eq hop, uppWord_fields]

theorem immWord_of_op : some (immWord op (wRd w) (wRa w) (wImm14 w)) = some w := by
  rw [← BitVec.eq_of_toNat_eq hop, immWord_fields]

theorem regWord_of_op {fn : BitVec 9} (hfn : wFn w = fn) :
    some (regWord op (wRd w) (wRa w) (wRb w) fn) = some w := by
  rw [← BitVec.eq_of_toNat_eq hop, ← hfn, regWord_fields]

end

/-! ### Encoding and decoding -/

/-- Settles O13: the instruction of a word is told by its OP, and by its FN in the REG form. -/
theorem csqDecodeOfEncode : Obligations.CsqDecodeOfEncode := by
  unfold Obligations.CsqDecodeOfEncode
  intro i w h
  cases i with
  | csqAdd c | csqSub c | csqAnd c | csqOr c | csqXor c | csqSll c | csqSrl c | csqSra c | csqMul c | csqMulhu c | csqDiv c
  | csqRem c | csqSlt c | csqSltu c | csqMin c | csqMax c | csqMinu c | csqMaxu c | csqTissue c =>
    obtain rfl := Option.some.inj h
    exact ⟨c, by simp only [decodeCsq, aluInstr, wOp_regWord, wRd_regWord, wRa_regWord, wRb_regWord, wFn_regWord]; rfl⟩
  | csqLui c | csqJal c =>
    obtain rfl := Option.some.inj h
    exact ⟨c, by simp [decodeCsq]⟩
  | csqAddi c | csqAndi c | csqOri c | csqXori c | csqSlli c | csqSrli c | csqSrai c | csqSlti c | csqSltiu c | csqLd8 c
  | csqLd16 c | csqLd32 c | csqLd64 c | csqLdu8 c | csqLdu16 c | csqLdu32 c | csqSt8 c | csqSt16 c | csqSt32 c | csqSt64 c
  | csqBeq c | csqBne c | csqBlt c | csqBge c | csqBltu c | csqBgeu c | csqJalr c | csqCsrr c | csqCsrw c | csqSemsig c
  | csqSemwait c | csqSemtake c | csqSemtest c | csqBar c | csqHalt c =>
    obtain rfl := Option.some.inj h
    exact ⟨c, by simp [decodeCsq]⟩
  | _ => nomatch h

theorem encodeCsq_of_aluInstr {c : CoreId} {rd ra rb : SReg} {fn : BitVec 9} {i : Instr}
    (h : aluInstr c rd ra rb fn = some i) : encodeCsq i = some (regWord 0x01 rd ra rb fn) := by
  unfold aluInstr at h
  split at h
  case h_19 => cases h
  all_goals
    next hfn =>
      cases h
      exact congrArg (fun f => some (regWord 0x01 rd ra rb f)) (BitVec.eq_of_toNat_eq hfn.symm)

/-- Settles O14: the fields of the word, put together again, are the word. -/
theorem csqEncodeOfDecode : Obligations.CsqEncodeOfDecode := by
  unfold Obligations.CsqEncodeOfDecode
  intro c w i h
  unfold decodeCsq at h
  split at h
  case h_1 hop => rw [encodeCsq_of_aluInstr h, regWord_of_op hop rfl]
  case h_11 hop | h_29 hop => cases h; exact uppWord_of_op hop
  case h_38 hop => cases h; exact regWord_of_op hop rfl
  case h_40 => cases h
  all_goals
    next hop =>
      cases h
      exact immWord_of_op hop

end Sys2Proof.Machine
end

section
/-! The queue of waiting commands and the list of unhandled negative events (log 11): no command touches the first, and
every command ends with the second empty. -/

namespace Sys2Proof.Machine

/-- An answer leaves the queue of commands alone and no negative event unhandled. -/
structure KeepsQueue (s : State) (r : Ans) : Prop where
  pending : ∀ t, r = .next t → t.pending = s.pending
  raised : ∀ t, r = .next t → s.raised = [] → t.raised = []

/-! ### The ends of a command -/

@[simp] theorem finish_pending (s t : State) : (finish s t).pending = s.pending := by unfold finish; split <;> rfl
@[simp] theorem finish_raised (s t : State) : (finish s t).raised = [] := by unfold finish; split <;> rfl

theorem keepsQueue_next {s t : State} (hp : t.pending = s.pending) (hr : s.raised = [] → t.raised = []) :
    KeepsQueue s (.next t) where
  pending u h := by rwa [← Host.Outcome.next.inj h]
  raised u h := by rwa [← Host.Outcome.next.inj h]

theorem keepsQueue_self {s : State} : KeepsQueue s (.next s) := keepsQueue_next rfl id

theorem KeepsQueue.of_eq {s u : State} {r : Ans} (h : KeepsQueue u r) (hp : u.pending = s.pending)
    (hr : u.raised = s.raised) : KeepsQueue s r where
  pending t ht := (h.pending t ht).trans hp
  raised t ht e := h.raised t ht (hr.trans e)

theorem keepsQueue_pinDone {s t : State} : KeepsQueue s (pinDone s t) :=
  keepsQueue_next (finish_pending s t) fun _ => finish_raised s t

theorem keepsQueue_done {s t : State} : KeepsQueue s (done s t) := by
  cases h : awake s with
  | true => rw [done_awake h]; exact keepsQueue_pinDone
  | false => rw [done_asleep h]; exact keepsQueue_self

theorem keepsQueue_fault {s : State} {f : Fault} : KeepsQueue s (.fault f) where
  pending _ h := nomatch h
  raised _ h := nomatch h

theorem keepsQueue_ite {s : State} {p : Prop} [Decidable p] {a b : Ans} (ha : KeepsQueue s a) (hb : KeepsQueue s b) :
    KeepsQueue s (if p then a else b) := by
  split
  · exact ha
  · exact hb

/-! ### The forms of the core sequencer's instructions -/

section
variable {s : State} {c : CoreId} {rd ra rb : SReg} {imm : BitVec 14}

theorem keepsQueue_csqDo {f : Core → Ans} (h : ∀ k, KeepsQueue s (f k)) : KeepsQueue s (csqDo s c f) :=
  keepsQueue_ite (keepsQueue_ite keepsQueue_done (h _)) keepsQueue_self

theorem keepsQueue_legal {ok : Bool} {r : Ans} (h : KeepsQueue s r) : KeepsQueue s (legal s c ok r) :=
  keepsQueue_ite h keepsQueue_done

theorem keepsQueue_goTo {k : Core} {t : BitVec 64} : KeepsQueue s (goTo s c k t) := by
  unfold goTo
  split
  · next h => exact keepsQueue_next (by simp [stepTo, h, setCore]) fun e => by simp [stepTo, h, setCore, e]
  · exact keepsQueue_done

theorem keepsQueue_putReg {f : Core → BitVec 64} : KeepsQueue s (putReg s c rd f) :=
  keepsQueue_csqDo fun _ => keepsQueue_goTo

theorem keepsQueue_regOp {f : BitVec 64 → BitVec 64 → BitVec 64} : KeepsQueue s (regOp s c rd ra rb f) := by
  unfold regOp
  exact keepsQueue_putReg

theorem keepsQueue_immOp {f : BitVec 64 → BitVec 64 → BitVec 64} : KeepsQueue s (immOp s c rd ra imm f) := by
  unfold immOp
  exact keepsQueue_putReg

theorem keepsQueue_shiftImm {f : BitVec 64 → Nat → BitVec 64} : KeepsQueue s (shiftImm s c rd ra imm f) :=
  keepsQueue_csqDo fun _ => keepsQueue_legal keepsQueue_goTo

theorem keepsQueue_csqLoad {n : Nat} {ext : Nat → BitVec 64} : KeepsQueue s (csqLoad s c rd ra imm n ext) := by
  refine keepsQueue_csqDo fun k => ?_
  dsimp only
  split
  · exact keepsQueue_done
  · exact keepsQueue_ite keepsQueue_done keepsQueue_goTo

theorem keepsQueue_csqStore {n : Nat} : KeepsQueue s (csqStore s c rd ra imm n) := by
  refine keepsQueue_csqDo fun k => ?_
  dsimp only
  split
  · exact keepsQueue_done
  · exact keepsQueue_goTo

theorem keepsQueue_csqBranch {f : BitVec 64 → BitVec 64 → Bool} : KeepsQueue s (csqBranch s c rd ra imm f) :=
  keepsQueue_csqDo fun _ => keepsQueue_goTo

theorem keepsQueue_csrRead : KeepsQueue s (csrRead s c rd ra imm) := by
  refine keepsQueue_csqDo fun k => keepsQueue_legal ?_
  split
  · exact keepsQueue_goTo
  · exact keepsQueue_done

theorem keepsQueue_csrWrite : KeepsQueue s (csrWrite s c rd ra imm) :=
  keepsQueue_csqDo fun _ => keepsQueue_legal keepsQueue_goTo

theorem keepsQueue_semSig : KeepsQueue s (semSig s c rd ra imm) :=
  keepsQueue_csqDo fun _ => keepsQueue_legal keepsQueue_goTo

theorem keepsQueue_semWait : KeepsQueue s (semWait s c rd ra imm) :=
  keepsQueue_csqDo fun _ => keepsQueue_legal (keepsQueue_ite keepsQueue_goTo keepsQueue_self)

theorem keepsQueue_semTakeOp : KeepsQueue s (semTakeOp s c rd ra imm) := by
  refine keepsQueue_csqDo fun k => keepsQueue_legal ?_
  split
  · exact keepsQueue_goTo
  · exact keepsQueue_self

theorem keepsQueue_semTest : KeepsQueue s (semTest s c rd ra imm) :=
  keepsQueue_csqDo fun _ => keepsQueue_legal keepsQueue_goTo

theorem keepsQueue_csqBarrier : KeepsQueue s (csqBarrier s c rd ra imm) :=
  keepsQueue_csqDo fun _ => keepsQueue_legal keepsQueue_goTo

theorem keepsQueue_csqStop : KeepsQueue s (csqStop s c rd ra imm) :=
  keepsQueue_csqDo fun _ => keepsQueue_legal keepsQueue_done

theorem keepsQueue_csqIssue {fn : BitVec 9} : KeepsQueue s (csqIssue s c rd ra rb fn) := by
  refine keepsQueue_csqDo fun k => keepsQueue_legal (keepsQueue_ite keepsQueue_self ?_)
  split
  · exact keepsQueue_done
  · exact keepsQueue_goTo.of_eq rfl rfl ..

end

/-! ### BARRIER_RELEASE -/

theorem foldl_updCore_pending_raised (s : State) (f : State → Nat → Nat) (g : Core → Core) (l : List Nat) :
    (l.foldl (fun s n => updCore s (f s n) g) s).pending = s.pending ∧
    (l.foldl (fun s n => updCore s (f s n) g) s).raised = s.raised := by
  induction l generalizing s with
  | nil => exact ⟨rfl, rfl⟩
  | cons n l ih => exact ih _
theorem releaseBarrier_pending_raised (s : State) (id : Nat) (scope : Bool) (g : Nat) :
    (releaseBarrier s id scope g).pending = s.pending ∧ (releaseBarrier s id scope g).raised = s.raised := by
  unfold releaseBarrier
  split
  · split
    · exact foldl_updCore_pending_raised s physOf _ _
    · exact ⟨rfl, rfl⟩
  · exact ⟨rfl, rfl⟩

theorem keepsQueue_barrierRelease {s : State} {id : Nat} {scope : Bool} {g : Fin 16} :
    KeepsQueue s (exec (.barrierRelease id scope g) s) := by
  obtain ⟨hp, hr⟩ := releaseBarrier_pending_raised s id scope g
  show KeepsQueue s (.next (if awake s then releaseBarrier s id scope g else s))
  split
  · exact keepsQueue_next hp hr.trans
  · exact keepsQueue_self

/-! ### Every command -/

/-- Every command but the core sequencer's, BARRIER_RELEASE and the two that name a line of memory ends by settling. -/
theorem keepsQueue_exec {i : Instr} {s : State} : KeepsQueue s (exec i s) := by
  cases i with
  | csqAdd | csqSub | csqAnd | csqOr | csqXor | csqSll | csqSrl | csqSra | csqMul | csqMulhu | csqDiv | csqRem | csqSlt
  | csqSltu | csqMin | csqMax | csqMinu | csqMaxu =>
    unfold exec
    exact keepsQueue_regOp
  | csqAddi | csqAndi | csqOri | csqXori | csqSlti | csqSltiu =>
    unfold exec
    exact keepsQueue_immOp
  | csqLui =>
    unfold exec
    exact keepsQueue_putReg
  | csqSlli | csqSrli | csqSrai =>
    unfold exec
    exact keepsQueue_shiftImm
  | csqLd8 | csqLd16 | csqLd32 | csqLd64 | csqLdu8 | csqLdu16 | csqLdu32 =>
    unfold exec
    exact keepsQueue_csqLoad
  | csqSt8 | csqSt16 | csqSt32 | csqSt64 =>
    unfold exec
    exact keepsQueue_csqStore
  | csqBeq | csqBne | csqBlt | csqBge | csqBltu | csqBgeu =>
    unfold exec
    exact keepsQueue_csqBranch
  | csqJal =>
    unfold exec
    exact keepsQueue_csqDo fun _ => keepsQueue_goTo
  | csqJalr =>
    unfold exec
    exact keepsQueue_csqDo fun _ => keepsQueue_ite keepsQueue_done keepsQueue_goTo
  | csqCsrr =>
    unfold exec
    exact keepsQueue_csrRead
  | csqCsrw =>
    unfold exec
    exact keepsQueue_csrWrite
  | csqSemsig =>
    unfold exec
    exact keepsQueue_semSig
  | csqSemwait =>
    unfold exec
    exact keepsQueue_semWait
  | csqSemtake =>
    unfold exec
    exact keepsQueue_semTakeOp
  | csqSemtest =>
    unfold exec
    exact keepsQueue_semTest
  | csqBar =>
    unfold exec
    exact keepsQueue_csqBarrier
  | csqTissue =>
    unfold exec
    exact keepsQueue_csqIssue
  | csqHalt =>
    unfold exec
    exact keepsQueue_csqStop
  | barrierRelease => exact keepsQueue_barrierRelease
  | patrolScrub | rowRemap => exact keepsQueue_ite keepsQueue_done keepsQueue_fault
  | resetN | resetForce | boot | pwrfailN | pwrfailHold | powerLoss | refclkLoss => exact keepsQueue_pinDone
  | _ => exact keepsQueue_done

/-! ### The idle tick (log 1) -/

theorem keepsQueue_csqTurn {s : State} {c : CoreId} : KeepsQueue s (csqTurn s c) := by
  refine keepsQueue_ite (keepsQueue_ite keepsQueue_done ?_) keepsQueue_self
  split
  · exact keepsQueue_exec
  · exact keepsQueue_done

theorem keepsQueue_unitTurn {s : State} {c : CoreId} {u : Nat} : KeepsQueue s (unitTurn s c u) := by
  unfold unitTurn
  split
  all_goals exact keepsQueue_done

theorem keepsQueue_idleTick {s : State} : KeepsQueue s (idleTick s) := by
  refine keepsQueue_ite (KeepsQueue.of_eq (u := slowPeriod s) ?_ rfl rfl) keepsQueue_self
  exact keepsQueue_ite keepsQueue_csqTurn (keepsQueue_ite keepsQueue_unitTurn
    (keepsQueue_ite (keepsQueue_ite keepsQueue_done keepsQueue_self) (keepsQueue_ite keepsQueue_done
      (keepsQueue_ite keepsQueue_done keepsQueue_done))))

/-! ### The obligations -/

/-- Settles O1: `step` runs the command at the front. -/
theorem stepRunsTheFrontCommand : Obligations.StepRunsTheFrontCommand := by
  unfold Obligations.StepRunsTheFrontCommand
  intro s c r h
  rw [step, h]

/-- Settles O3. -/
theorem noCommandTouchesTheQueue : Obligations.NoCommandTouchesTheQueue := by
  unfold Obligations.NoCommandTouchesTheQueue
  intro c s t h
  exact keepsQueue_exec.pending t h

/-- Settles O2: the front command leaves the rest of the queue as it was taken, and the idle tick an empty queue. -/
theorem everyStepTakesOneCommandAndLeavesNoEventUnhandled :
    Obligations.EveryStepTakesOneCommandAndLeavesNoEventUnhandled := by
  unfold Obligations.EveryStepTakesOneCommandAndLeavesNoEventUnhandled
  intro s t hr h
  cases hq : s.pending with
  | nil =>
    rw [step, hq] at h
    exact ⟨keepsQueue_idleTick.raised t h hr, (keepsQueue_idleTick.pending t h).trans hq⟩
  | cons c r =>
    rw [stepRunsTheFrontCommand s c r hq] at h
    exact ⟨keepsQueue_exec.raised t h hr, keepsQueue_exec.pending t h⟩

/-- Settles O4: `State.reset` holds the values that 18 R509 and the rest of the spec give. -/
theorem resetIsEmptyAndCanonical : Obligations.ResetIsEmptyAndCanonical := by
  unfold Obligations.ResetIsEmptyAndCanonical
  refine ⟨rfl, rfl, rfl, rfl, rfl, ?_⟩
  decide

end Sys2Proof.Machine
end

section
/-! The end of a command (`finish`): engine by engine, where `Calm` leaves it nothing to do, it changes nothing. -/

namespace Sys2Proof.Machine

theorem foldl_eq_self_of_mem {σ α : Type} {f : σ → α → σ} {l : List α} {s : σ} (h : ∀ x ∈ l, f s x = s) :
    l.foldl f s = s := by
  induction l with
  | nil => rfl
  | cons x l ih => rw [List.foldl_cons, h x (by simp), ih fun y hy => h y (by simp [hy])]

section
variable {s : State} {p : Nat}

theorem handleAll_of_raised_nil (h : s.raised = []) : handleAll s = s := by rw [handleAll, h, List.length_nil, raiseAll, h]

theorem releaseHeld_of_held_nil (h : (xport s p).held = []) (n : Nat) : releaseHeld p n s = s := by
  have marks : markHeads s p = s := by simp [markHeads, h]
  cases n with
  | zero => exact marks
  | succ n => simp [releaseHeld, h, heldHeads, marks]

theorem sendChangedIdents_of_sent
    (h : ∀ j ∈ partPorts s p, (port s j).state ∈ [3, 4, 5, 8] → (port s j).sentId = identBody s p j) :
    sendChangedIdents s p = s :=
  foldl_eq_self_of_mem fun j hj => if_neg fun ⟨hstate, hnew⟩ => hnew (h j hj (by simpa using hstate))

section
variable (h : joining s p = false)
include h

theorem trySendPlanes_of_not_joining : trySendPlanes s p = s := by simp [trySendPlanes, h]

theorem trySendXfer_of_not_joining : trySendXfer s p = s := by simp [trySendXfer, h]

theorem settleBarrier_of_not_joining : settleBarrier s p = s :=
  if_neg fun ⟨hstate, hslice, _⟩ => by simp [joining, hstate, hslice] at h

end

theorem settleMirror_of_idle (h : hasFacing s p = false ∨ ((proof s p).slice ≠ 1 ∧ (proof s p).slice ≠ 7)) :
    settleMirror s p = s := by
  rcases h with h | ⟨h1, h7⟩
  · simp [settleMirror, h]
  · simp [settleMirror, h1, h7]

theorem drainLosses_of_no_drain (h : (snap s p).drains = []) : drainLosses s p = s := by simp [drainLosses, h]

theorem settleVotes_of_no_verdict (h : (xport s p).imp = none ∨ verdict s p ((proof s p).lastProven + 1) = false)
    (n : Nat) : settleVotes p n s = s := by
  have once : voteOnce s p = s := by rcases h with h | h <;> simp [voteOnce, h]
  induction n with
  | zero => rfl
  | succ n ih => rw [settleVotes, once, ih]

theorem tryCommit_of_unproven (h : ∀ i < 2, (slotOf s p i).state = 2 → (∀ g ∈ (slotOf s p i).pages, g.copied = true) →
    stepProven s p (slotOf s p i).step = false) : tryCommit s p = s := by
  have slot (i : Nat) (hi : i < 2) : tryCommitSlot s p i = s :=
    if_neg fun hc => by
      simp only [Bool.and_eq_true, beq_iff_eq, List.all_eq_true] at hc
      obtain ⟨⟨hstate, hpages⟩, hproven⟩ := hc
      rw [h i hi hstate hpages] at hproven
      cases hproven
  rw [tryCommit, slot 0 (by decide), slot 1 (by decide)]

end

section
variable {s : State} (calm : Calm s)
include calm

theorem settlePart_of_calm {p : Nat} (hp : p < nparts s) : settlePart s p = s := by
  obtain ⟨-, parts, -, -⟩ := calm
  obtain ⟨held, drains, joins, slots, mirrors, idents, votes⟩ := parts p hp
  simp only [settlePart, releaseHeld_of_held_nil held, sendChangedIdents_of_sent idents,
    trySendPlanes_of_not_joining joins, trySendXfer_of_not_joining joins, settleBarrier_of_not_joining joins,
    settleMirror_of_idle mirrors, drainLosses_of_no_drain drains, settleVotes_of_no_verdict votes,
    tryCommit_of_unproven slots]

theorem settle_of_calm : settle s = s := by
  obtain ⟨-, -, flights, -⟩ := calm
  have port (h : Nat) (hh : h ∈ activeHps s) (n : Nat) : settleHp h n s = s := by
    have none_settles : (hport s h).flights.find? (settled s h) = none := by simpa using flights h hh
    cases n with
    | zero => rfl
    | succ n => rw [settleHp, none_settles]
  exact foldl_eq_self_of_mem fun h hh => port h hh _

theorem syncPoints_of_calm : syncPoints s = s := by
  obtain ⟨-, -, -, points⟩ := calm
  unfold syncPoints
  split
  · next h => exact points h
  · rfl

theorem settleAll_of_calm (t : State) : settleAll t s = { s with pending := t.pending, raised := [] } := by
  have events : handleAll s = s := handleAll_of_raised_nil calm.1
  have parts : (List.range (nparts s)).foldl settlePart s = s :=
    foldl_eq_self_of_mem fun p hp => settlePart_of_calm calm (List.mem_range.1 hp)
  simp only [settleAll, events, parts, settle_of_calm calm, syncPoints_of_calm calm]

end

/-- Settles O5, one lemma for each engine. -/
theorem enginesWithNothingToDoChangeNothing : Obligations.EnginesWithNothingToDoChangeNothing := by
  unfold Obligations.EnginesWithNothingToDoChangeNothing
  intro s u
  refine ⟨fun hawake calm => ?_, fun hasleep => ?_⟩
  · rw [finish, if_pos hawake, settleAll_of_calm calm]
  · rw [finish, hasleep, if_neg (by decide)]

end Sys2Proof.Machine
end

section
/-! The core sequencer (05 R126 to R151): loads and stores, branches and jumps, the control space, semaphores and barriers,
TISSUE and HALT, and the faults. -/

namespace Sys2Proof.Machine

/-! ### Words, bytes and poison -/

theorem leBytes_length (n x : Nat) : (leBytes n x).length = n := by
  induction n generalizing x with
  | zero => rfl
  | succ n ih => rw [leBytes, List.length_cons, ih]

theorem sext_mod (n x : Nat) : sext n (x % 2 ^ n) = sext n x := by simp only [sext, Nat.mod_mod]

theorem sext_eq_toInt (n x : Nat) : sext n x = (BitVec.ofNat n x).toInt := by
  rw [← sext_toNat, BitVec.toNat_ofNat, sext_mod]

theorem signExt_eq_signExtend (n x : Nat) : signExt n x = (BitVec.ofNat (8 * n) x).signExtend 64 := by
  rw [signExt, sext_eq_toInt, BitVec.signExtend]

theorem signExt_eight (x : Nat) : signExt 8 x = BitVec.ofNat 64 x := by
  rw [signExt_eq_signExtend, BitVec.signExtend_eq]

/-- Bytes without poison that cover no 64-byte unit whole leave every unit's poison (R123, R173). -/
theorem pzAfter_clean (units : List Nat) (a : Nat) (bs : Bytes) (h : bs.length < 64) :
    pzAfter units a (.clean bs) = units := by
  refine foldl_eq_self_of_mem fun g _ => ?_
  have part : ¬ (a ≤ g * 64 ∧ (g + 1) * 64 ≤ a + bs.length) := by omega
  simp only [Blob.clean, List.any_nil, Bool.false_eq_true, if_false, part]

theorem spadWrite_clean (k : Core) (a : Nat) (bs : Bytes) (h : bs.length < 64) :
    spadWrite k a (.clean bs) = { k with spad := wrBytes k.spad a bs } := by
  rw [spadWrite, pzAfter_clean _ _ _ h]
  rfl

/-! ### Loads and stores (R128) -/

theorem accessFault_eq_none {a n : Nat} (h : a % n = 0 ∧ a + n ≤ 0xC00000) : accessFault a n = none := by
  simp [accessFault, spadSize, h.1, Nat.not_lt.2 h.2]

theorem CsqRuns.awake {s : State} {c : Nat} (h : CsqRuns s c) : awake s = true := by
  have ready := h.1
  simp only [csqReady, Bool.and_eq_true] at ready
  exact ready.1.1

section
variable {s : State} {c : CoreId} (hrun : CsqRuns s c) {rd ra rs : SReg} {imm : BitVec 14} {n a : Nat}
include hrun

/-- A fault ends the program at the instruction's own PC (R129). -/
theorem done_csqFault (f : CsqFault) : done s (csqFault s c f) =
    .next (finish s (endProgram s c { outcome := 1, fault := f.code, pc := (core s c).pc })) :=
  done_awake hrun.awake _

section
variable (hpc : (core s c).pc + 4 < 2 ^ 18) (ha : eaOf (core s c) ra imm = a) (hok : a % n = 0 ∧ a + n ≤ 0xC00000)
include hpc ha hok

theorem csqLoad_retires (hclean : (spadRead (core s c) a n).bad = false) {ext : Nat → BitVec 64}
    {v : BitVec 64} (hv : ext (leNat (rdBytes (core s c).spad a n)) = v) :
    csqLoad s c rd ra imm n ext = .next (retire s c (sset (core s c) rd v)) := by
  rw [csqLoad, csqDo_runs hrun]
  simp only [ha, accessFault_eq_none hok, hclean, Bool.false_eq_true, if_false]
  rw [advance_next _ _ _ (by simp) (by simp) hpc, ← hv]
  rfl

theorem csqStore_retires (hn : n < 64) :
    ∃ m, (rdBytes m a n = leBytes n (sget (core s c) rs).toNat ∧
        ∀ x, x < a ∨ a + n ≤ x → rdByte m x = rdByte (core s c).spad x) ∧
      csqStore s c rs ra imm n = .next (retire s c { core s c with spad := m }) := by
  have len := leBytes_length n (sget (core s c) rs).toNat
  refine ⟨wrBytes (core s c).spad a (leBytes n (sget (core s c) rs).toNat), ⟨?_, fun x hx => ?_⟩, ?_⟩
  · simpa only [len] using rdBytes_wrBytes_same (core s c).spad a (leBytes n (sget (core s c) rs).toNat)
  · exact rdByte_wrBytes_out _ _ _ _ (by rwa [len])
  · rw [csqStore, csqDo_runs hrun]
    simp only [ha, accessFault_eq_none hok]
    rw [spadWrite_clean _ _ _ (by rwa [len])]
    exact advance_next s c _ rfl rfl hpc

end
end

/-- Settles O7. -/
theorem csqLoadsAndStores : Obligations.CsqLoadsAndStores := by
  unfold Obligations.CsqLoadsAndStores
  refine ⟨?loads, ?stores⟩
  case loads =>
    intro s c rd ra imm hrun hpc k a u ok
    have load {n : Nat} {ext : Nat → BitVec 64} {v : BitVec 64} (hv : ext (u n) = v) (h : ok n) :
        csqLoad s c rd ra imm n ext = .next (retire s c (sset k rd v)) :=
      csqLoad_retires hrun hpc rfl ⟨h.1, h.2.1⟩ h.2.2 hv
    unfold exec
    exact ⟨load (signExt_eq_signExtend 1 _), load (signExt_eq_signExtend 2 _), load (signExt_eq_signExtend 4 _),
      load (signExt_eight _), load rfl, load rfl, load rfl⟩
  case stores =>
    intro s c rs ra imm hrun hpc k a stored ok
    have store {n : Nat} (hn : n < 64) (h : ok n) :
        ∃ m, stored n m ∧ csqStore s c rs ra imm n = .next (retire s c { k with spad := m }) :=
      csqStore_retires hrun hpc rfl h hn
    unfold exec
    exact ⟨store (by decide), store (by decide), store (by decide), store (by decide)⟩

/-! ### Branches and jumps (R124) -/

/-- A target relative to the PC, as the sequencer computes it in 64 bits. -/
theorem ofNat_add_four_mul (pc : Nat) {n : Nat} (x : BitVec n) :
    BitVec.ofNat 64 pc + 4 * x.signExtend 64 = BitVec.ofInt 64 ((pc : Int) + 4 * x.toInt) := by
  rw [BitVec.ofInt_add, BitVec.ofInt_mul, BitVec.ofInt_natCast, BitVec.signExtend]
  rfl

theorem pcNext_eq_ofInt (k : Core) : pcNext k = BitVec.ofInt 64 ((k.pc : Int) + 4 * 1) := by
  rw [pcNext, ← BitVec.ofInt_natCast]
  norm_cast

/-- The address that a branch goes to: PC + 4 x IMM14 where it is taken, PC + 4 where it is not (R126). -/
def branchTarget (k : Core) (imm : BitVec 14) (taken : Bool) : BitVec 64 :=
  BitVec.ofInt 64 ((k.pc : Int) + 4 * if taken then imm.toInt else 1)

theorem branchTarget_eq (k : Core) (imm : BitVec 14) (taken : Bool) :
    (if taken then BitVec.ofNat 64 k.pc + 4 * immX imm else pcNext k) = branchTarget k imm taken := by
  cases taken with
  | true => exact ofNat_add_four_mul k.pc imm
  | false => exact pcNext_eq_ofInt k

theorem csqBranch_retires {s : State} {c : CoreId} (hrun : CsqRuns s c) {rs ra : SReg} {imm : BitVec 14}
    {f : BitVec 64 → BitVec 64 → Bool} {t : Bool} (ht : f (sget (core s c) ra) (sget (core s c) rs) = t)
    (h : (branchTarget (core s c) imm t).toNat < 2 ^ 18) :
    csqBranch s c rs ra imm f = .next (retireAt s c (core s c) (branchTarget (core s c) imm t).toNat) := by
  rw [csqBranch, csqDo_runs hrun, ht, branchTarget_eq, goTo_next s c _ _ rfl rfl h]

/-- Settles O8. -/
theorem csqBranchesAndJumps : Obligations.CsqBranchesAndJumps := by
  unfold Obligations.CsqBranchesAndJumps
  intro s c rs ra rd imm up hrun k a b rel goes jalr hgoes hjal hjalr haligned
  have branch {f : BitVec 64 → BitVec 64 → Bool} {t : Bool} (ht : f a b = t) :
      csqBranch s c rs ra imm f = .next (retireAt s c k (goes t)) := csqBranch_retires hrun ht (hgoes t)
  have bne_eq : (a != b) = decide (a ≠ b) := by rw [bne, decide_not]; rfl
  unfold exec
  refine ⟨branch rfl, branch bne_eq, branch rfl, branch rfl, branch rfl, branch rfl, ?jal, ?jalr⟩
  case jal =>
    change execCsqJal c rd up s = _
    rw [execCsqJal, csqDo_runs hrun, ofNat_add_four_mul, goTo_next s c _ _ (by simp) (by simp) hjal]
    rfl
  case jalr =>
    change execCsqJalr c rd ra imm s = _
    rw [execCsqJalr, csqDo_runs hrun]
    have aligned : ¬ (sget (core s c) ra + immX imm).toNat % 4 ≠ 0 := not_not.2 haligned
    simp only [aligned, if_false]
    exact goTo_next s c _ _ (by simp) (by simp) hjalr

/-! ### Control space (R130) -/

theorem semOf_setSem (k : Core) (i j v : Nat) :
    semOf (setSem k i v) j = if j % 64 = i % 64 then v % 2 ^ 32 else semOf k j := by
  rw [semOf, setSem, mget_mset]
  split
  · exact BitVec.toNat_ofNat ..
  · rfl

/-- What a word of an epilogue record keeps of a value (03 R81). -/
theorem epiWord_toNat (w v : Nat) :
    (epiWord w v).toNat = if w = 7 then 0 else v % 2 ^ (if w = 5 ∨ w = 6 then 24 else 32) := by
  rw [epiWord, epiMask, BitVec.toNat_ofNat]
  split_ifs
  · rw [Nat.max_eq_right (by decide), Nat.mod_one, Nat.zero_mod]
  all_goals rw [Nat.max_eq_left (by decide)]; omega

/-- The entries of the control space that are semaphores, and those that are words of epilogue records. -/
abbrev IsSem (i : Nat) : Prop := 0x040 ≤ i ∧ i < 0x080
abbrev IsEpi (i : Nat) : Prop := 0x100 ≤ i ∧ i < 0x180

/-- The remaining entries that a write can change. -/
def IsStatus (i : Nat) : Prop := i = 0x011 ∨ i = 0x180 ∨ i = 0x181 ∨ i = 0x182 ∨ i = 0x183

section
variable (s : State) (c : Nat) (k : Core) {i e : Nat}

theorem csRead_sem (he : IsSem e) : csRead s c k e = some (BitVec.ofNat 64 (semOf k (e - 0x040))) := by
  unfold csRead
  exact if_pos he

theorem csRead_epi (he : IsEpi e) : csRead s c k e = some (BitVec.ofNat 64 (mget k.epi 0 (e - 0x100)).toNat) := by
  unfold csRead
  have hsem : ¬ (0x040 ≤ e ∧ e < 0x080) := by have := he.1; omega
  exact (if_neg hsem).trans (if_pos he)

theorem csWrite_sem (hi : IsSem i) (x : BitVec 64) : csWrite k i x = setSem k (i - 0x040) x.toNat := by
  unfold csWrite
  exact if_pos hi

theorem csWrite_epi (hi : IsEpi i) (x : BitVec 64) :
    csWrite k i x = { k with epi := mset k.epi 0 (i - 0x100) (epiWord (i % 8) x.toNat) } := by
  unfold csWrite
  have hsem : ¬ (0x040 ≤ i ∧ i < 0x080) := by have := hi.1; omega
  exact (if_neg hsem).trans (if_pos hi)

@[simp] theorem csWrite_pc (x : BitVec 64) : (csWrite k i x).pc = k.pc := by
  unfold csWrite
  split_ifs
  · rfl
  · rfl
  · split <;> rfl

@[simp] theorem csWrite_lastPcs (x : BitVec 64) : (csWrite k i x).lastPcs = k.lastPcs := by
  unfold csWrite
  split_ifs
  · rfl
  · rfl
  · split <;> rfl

theorem csWrite_read_only (hsem : ¬ IsSem i) (hepi : ¬ IsEpi i) (hst : ¬ IsStatus i) (x : BitVec 64) : csWrite k i x = k := by
  unfold csWrite
  refine (if_neg hsem).trans ((if_neg hepi).trans ?_)
  unfold IsStatus at hst
  split
  case h_6 => rfl
  all_goals omega

theorem csRead_setSem (j x : Nat) (he : ¬ IsSem e) : csRead s c (setSem k j x) e = csRead s c k e := by
  unfold csRead
  refine (if_neg he).trans (Eq.trans ?_ (if_neg he).symm)
  rfl

theorem csRead_csWrite_epi (hi : IsEpi i) (x : BitVec 64) (he : ¬ IsEpi e) :
    csRead s c (csWrite k i x) e = csRead s c k e := by
  rw [csWrite_epi k hi]
  unfold csRead
  split
  · rfl
  · rfl

theorem csRead_csWrite_status (hi : IsStatus i) (x : BitVec 64) (he : e ≠ i) :
    csRead s c (csWrite k i x) e = csRead s c k e := by
  unfold IsStatus at hi
  rcases hi with rfl | rfl | rfl | rfl | rfl
  all_goals
    unfold csRead
    split
    · rfl
    split
    · rfl
    · grind [csWrite]

theorem csRead_csWrite_ne (x : BitVec 64) (he : e ≠ i) : csRead s c (csWrite k i x) e = csRead s c k e := by
  by_cases hsem : IsSem i
  · rw [csWrite_sem k hsem]
    by_cases hsem' : IsSem e
    · have apart : ¬ (e - 0x040) % 64 = (i - 0x040) % 64 := by unfold IsSem at hsem hsem'; omega
      rw [csRead_sem s c _ hsem', csRead_sem s c _ hsem', semOf_setSem, if_neg apart]
    · exact csRead_setSem s c k _ _ hsem'
  by_cases hepi : IsEpi i
  · by_cases hepi' : IsEpi e
    · have apart : e - 0x100 ≠ i - 0x100 := by unfold IsEpi at hepi hepi'; omega
      rw [csWrite_epi k hepi, csRead_epi s c _ hepi', csRead_epi s c _ hepi', mget_mset_ne _ _ _ _ _ apart]
    · exact csRead_csWrite_epi s c k hepi x hepi'
  by_cases hst : IsStatus i
  · exact csRead_csWrite_status s c k hst x he
  · rw [csWrite_read_only k hsem hepi hst]

theorem getLsbD_two_flags (p q : Bool) (n : Nat) : (BitVec.ofNat 64 (b2n p + 2 * b2n q)).getLsbD n =
    match n with
    | 0 => p
    | 1 => q
    | _ => false := by
  rw [BitVec.getLsbD_ofNat]
  match n with
  | 0 | 1 => cases p <;> cases q <;> rfl
  | n + 2 => cases p <;> cases q <;> simp [b2n, Nat.testBit_succ]

/-- POISON_SEEN and SEM_SAT are cleared by the 1s of the value written (R130). -/
theorem status_cleared (p q : Bool) (x : BitVec 64) :
    BitVec.ofNat 64 (b2n (p && !bitOf x 0) + 2 * b2n (q && !bitOf x 1)) =
      BitVec.ofNat 64 (b2n p + 2 * b2n q) &&& ~~~x := by
  refine BitVec.eq_of_getLsbD_eq fun n hn => ?_
  rw [BitVec.getLsbD_and, BitVec.getLsbD_not, getLsbD_two_flags, getLsbD_two_flags]
  match n with
  | 0 | 1 => simp [bitOf]
  | n + 2 => simp

theorem csRead_csWrite_same {v : BitVec 64} (hv : csRead s c k i = some v) (x : BitVec 64) :
    csRead s c (csWrite k i x) i = some (if IsSem i then BitVec.ofNat 64 (x.toNat % 2 ^ 32)
       else if IsEpi i then
         (if i % 8 = 7 then 0 else BitVec.ofNat 64 (x.toNat % 2 ^ (if i % 8 = 5 ∨ i % 8 = 6 then 24 else 32)))
       else if i = 0x011 then v &&& ~~~x
       else if 0x180 ≤ i ∧ i < 0x184 then x else v) := by
  by_cases hsem : IsSem i
  · rw [if_pos hsem, csWrite_sem k hsem, csRead_sem s c _ hsem, semOf_setSem, if_pos rfl]
  by_cases hepi : IsEpi i
  · rw [if_neg hsem, if_pos hepi, csWrite_epi k hepi, csRead_epi s c _ hepi, mget_mset_same, epiWord_toNat]
    split <;> rfl
  rw [if_neg hsem, if_neg hepi]
  by_cases hst : IsStatus i
  · unfold IsStatus at hst
    rcases hst with rfl | rfl | rfl | rfl | rfl
    · obtain rfl := Option.some.inj hv
      exact congrArg some (status_cleared _ _ x)
    all_goals rfl
  · rw [csWrite_read_only k hsem hepi hst, hv]
    unfold IsStatus at hst
    rw [if_neg (by omega), if_neg (by omega)]

end

/-- Settles O9. -/
theorem csqRegistersAndControlSpace : Obligations.CsqRegistersAndControlSpace := by
  unfold Obligations.CsqRegistersAndControlSpace
  refine ⟨?entries, sget_sset⟩
  intro s c r imm v hrun hpc himm hv
  have index : csIndex imm = imm.toNat := Nat.mod_eq_of_lt himm
  refine ⟨?csrr, ?csrw, csRead_csWrite_same s c (core s c) hv, fun x e he => csRead_csWrite_ne s c (core s c) x he⟩
  case csrr =>
    change csrRead s c r 0 imm = _
    rw [csrRead, csqDo_runs hrun, index, hv]
    simp only [legal, himm, beq_self_eq_true, decide_true, Bool.and_self, if_true]
    exact advance_next s c _ (by simp) (by simp) hpc
  case csrw =>
    change csrWrite s c r 0 imm = _
    rw [csrWrite, csqDo_runs hrun, index, hv]
    simp only [legal, himm, beq_self_eq_true, decide_true, Option.isSome_some, Bool.and_self, if_true]
    exact advance_next s c _ (by simp) (by simp) hpc

/-! ### Semaphores and barriers (R142, R144) -/

@[simp] theorem setSem_pc (k : Core) (i v : Nat) : (setSem k i v).pc = k.pc := rfl
@[simp] theorem setSem_lastPcs (k : Core) (i v : Nat) : (setSem k i v).lastPcs = k.lastPcs := rfl

theorem semIndex_eq {k : Core} {x : SReg} {imm : BitVec 14} {i : Nat} (himm : imm.toNat < 64)
    (hi : ((sget k x).toNat + imm.toNat) % 64 = i) : semIndex k x imm = i := by
  rw [semIndex, Nat.mod_eq_of_lt himm, hi]

section
variable {s : State} {c : CoreId} (hrun : CsqRuns s c) (hpc : (core s c).pc + 4 < 2 ^ 18)
include hrun

/-- An instruction whose required-zero fields are 0 is legal (R129). -/
theorem csqDo_legal {ok : Core → Bool} {f : Core → Ans} (h : ok (core s c) = true) :
    csqDo s c (fun k => legal s c (ok k) (f k)) = f (core s c) := by
  rw [csqDo_runs hrun, legal, if_pos h]

theorem csqDo_illegal {ok : Core → Bool} {f : Core → Ans} (h : ok (core s c) = false) :
    csqDo s c (fun k => legal s c (ok k) (f k)) =
      .next (finish s (endProgram s c { outcome := 1, fault := 1, pc := (core s c).pc })) := by
  rw [csqDo_runs hrun, legal, h, if_neg Bool.false_ne_true, done_csqFault hrun]
  rfl

section
variable {x y : SReg} {imm : BitVec 14} (himm : imm.toNat < 64) {i n : Nat}
  (hi : ((sget (core s c) x).toNat + imm.toNat) % 64 = i) (hn : (sget (core s c) y).toNat % 2 ^ 32 = n)
include himm hi

theorem semWait_waits (hn : (sget (core s c) y).toNat % 2 ^ 32 = n) (h : semOf (core s c) i < n) :
    semWait s c x y imm = .next s := by
  rw [semWait, csqDo_legal hrun (by simpa using himm), semIndex_eq himm hi, low32, hn, if_neg (by omega)]

theorem semTakeOp_waits (hn : (sget (core s c) y).toNat % 2 ^ 32 = n) (h : semOf (core s c) i < n) :
    semTakeOp s c x y imm = .next s := by
  rw [semTakeOp, csqDo_legal hrun (by simpa using himm), semIndex_eq himm hi, low32, hn, semTake, if_neg (by omega)]

include hpc

theorem semTest_retires : semTest s c y x imm =
    .next (retire s c (sset (core s c) y (BitVec.ofNat 64 (semOf (core s c) i)))) := by
  rw [semTest, csqDo_legal hrun (by simpa using himm), semIndex_eq himm hi,
    advance_next s c _ (by simp) (by simp) hpc]

include hn

theorem semSig_retires : semSig s c x y imm = .next (retire s c (semAdd (core s c) i n)) := by
  rw [semSig, csqDo_legal hrun (by simpa using himm), semIndex_eq himm hi, low32, hn]
  refine advance_next s c _ ?_ ?_ hpc <;> unfold semAdd <;> split <;> rfl

theorem semWait_covered (h : n ≤ semOf (core s c) i) : semWait s c x y imm = .next (retire s c (core s c)) := by
  rw [semWait, csqDo_legal hrun (by simpa using himm), semIndex_eq himm hi, low32, hn, if_pos h]
  exact advance_next s c _ rfl rfl hpc

theorem semTakeOp_covered (h : n ≤ semOf (core s c) i) :
    semTakeOp s c x y imm = .next (retire s c (setSem (core s c) i (semOf (core s c) i - n))) := by
  rw [semTakeOp, csqDo_legal hrun (by simpa using himm), semIndex_eq himm hi, low32, hn, semTake, if_pos h]
  exact advance_next s c _ rfl rfl hpc

end

include hpc in
theorem csqBarrier_retires {imm : BitVec 14} (himm : imm.toNat < 2) :
    csqBarrier s c 0 0 imm = .next (retire s c (barArrive (core s c) (imm.toNat == 1))) := by
  rw [csqBarrier, csqDo_legal hrun (by simpa using himm)]
  refine advance_next s c _ ?_ ?_ hpc <;> unfold barArrive <;> split <;> rfl

end

/-- The cores that a list of logical cores names are set running, and nothing else changes. -/
theorem foldl_resume (s : State) (l : List Nat) :
    ∃ t, l.foldl (fun s n => updCore s (physOf s n) (fun k => { k with csq := .running })) s = t ∧
      (∀ n ∈ l, core t (physOf s n) = { core s (physOf s n) with csq := .running }) ∧
      (∀ x, (∀ n ∈ l, physOf s n ≠ x) → core t x = core s x) ∧ { t with cores := s.cores } = s := by
  induction l generalizing s with
  | nil => exact ⟨s, rfl, by simp, by simp, rfl⟩
  | cons a l ih =>
    obtain ⟨t, ht, named, others, frame⟩ := ih (updCore s (physOf s a) (fun k => { k with csq := .running }))
    have phys (n : Nat) : physOf (updCore s (physOf s a) (fun k => { k with csq := .running })) n = physOf s n := rfl
    simp only [phys, core_updCore] at named others
    refine ⟨t, ht, fun n hn => ?_, fun x hx => ?_, ?_⟩
    · by_cases hl : n ∈ l
      · rw [named n hl]
        split
        · next e => rw [e]
        · rfl
      · obtain rfl : n = a := (List.mem_cons.1 hn).resolve_right hl
        by_cases hm : ∃ m ∈ l, physOf s m = physOf s n
        · obtain ⟨m, hm, e⟩ := hm
          rw [← e, named m hm, e, if_pos rfl]
        · rw [others _ fun m hml e => hm ⟨m, hml, e⟩, if_pos rfl]
    · rw [others x fun n hn => hx n (by simp [hn]), if_neg (hx a (by simp)).symm]
    · calc { t with cores := s.cores }
          = { { t with cores := (updCore s (physOf s a) (fun k => { k with csq := .running })).cores } with
              cores := s.cores } := rfl
        _ = s := by rw [frame]; rfl

theorem releaseBarrier_arrived {s : State} {id g : Nat} {scope : Bool} {l : Launch} (hl : launchOf s id = some l)
    (hne : participants l scope g ≠ [])
    (hall : ∀ n ∈ participants l scope g, (core s (physOf s n)).launch = id ∧ (core s (physOf s n)).csq = .barrier scope) :
    releaseBarrier s id scope g =
      (participants l scope g).foldl (fun s n => updCore s (physOf s n) (fun k => { k with csq := .running })) s := by
  have arrived : allArrived s id scope g = true := by
    simp only [allArrived, hl, Bool.and_eq_true, Bool.not_eq_true', List.isEmpty_eq_false_iff, List.all_eq_true]
    exact ⟨hne, fun n hn => by simp [atBarrier, hall n hn]⟩
  rw [releaseBarrier, hl]
  exact if_pos arrived

/-- Settles O10. -/
theorem csqSemaphoresAndBarriers : Obligations.CsqSemaphoresAndBarriers := by
  unfold Obligations.CsqSemaphoresAndBarriers
  refine ⟨?semaphores, ?barriers⟩
  case semaphores =>
    intro s c x y imm hrun hpc himm k i j n
    unfold exec
    refine ⟨fun h => ?_, fun h => ?_, semWait_covered hrun hpc himm rfl rfl, semTakeOp_covered hrun hpc himm rfl rfl,
      fun h => ⟨semWait_waits hrun himm rfl rfl h, semTakeOp_waits hrun himm rfl rfl h⟩,
      semTest_retires hrun hpc himm rfl⟩
    · exact (semSig_retires hrun hpc himm rfl rfl).trans (by rw [semAdd, if_pos h])
    · exact (semSig_retires hrun hpc himm rfl rfl).trans (by rw [semAdd, if_neg (Nat.not_lt.2 h)])
  case barriers =>
    intro s c imm id scope g l
    refine ⟨fun hrun hpc himm => ?_, fun hawake hl hne hall => ?_⟩
    · change csqBarrier s c 0 0 imm = _
      rw [csqBarrier_retires hrun hpc himm, barArrive]
      simp only [beq_iff_eq]
    · obtain ⟨t, ht, named, others, frame⟩ := foldl_resume s (participants l scope g)
      refine ⟨t, ?_, named, others, frame⟩
      change execBarrierRelease id scope g s = _
      rw [execBarrierRelease, if_pos hawake, releaseBarrier_arrived hl hne hall, ht]

/-! ### TISSUE and HALT (R132 to R137, R149) -/

section
variable {s : State} {c : CoreId} (hrun : CsqRuns s c) {ra rb : SReg}
include hrun

theorem csqIssue_retires (hpc : (core s c).pc + 4 < 2 ^ 18) {e : TileEntry}
    (he : issueEntry s c (core s c) (tileWord (core s c) ra rb) = e) (hunit : e.unit < 4)
    (hroom : (unitQ (unitsOf s c) e.unit).length < 16) (hcheck : issueCheck e = none) :
    csqIssue s c 0 ra rb 0 = .next (retire (enqueue s c e) c (core s c)) := by
  have room : ¬ 16 ≤ qfill s c e.unit := Nat.not_le.2 hroom
  rw [csqIssue, csqDo_runs hrun, he]
  simp only [legal, hunit, room, hcheck, beq_self_eq_true, decide_true, Bool.and_self, if_true, if_false]
  exact advance_next (enqueue s c e) c (core s c) rfl rfl hpc

/-- The state in which the core has met HALT (R149). -/
def haltMet (s : State) (c : Nat) (ra : SReg) : State :=
  setCore s c { core s c with csq := .halting (BitVec.ofNat 32 (low32 (core s c) ra)) (core s c).pc, lastPcs := traced (core s c) }

theorem csqStop_ends : csqStop s c 0 ra 0 = .next (finish s (finishHalt (haltMet s c ra) c)) := by
  rw [csqStop, csqDo_runs hrun]
  exact done_awake hrun.awake _

omit hrun in
theorem finishHalt_haltMet : finishHalt (haltMet s c ra) c =
    if queuesEmpty (unitsOf s c) then
      endProgram (haltMet s c ra) c { exit := low32 (core s c) ra, outcome := 0, pc := (core s c).pc }
    else haltMet s c ra := by
  have exit : (BitVec.ofNat 32 (low32 (core s c) ra)).toNat = low32 (core s c) ra := Nat.mod_mod ..
  have csq : (core (haltMet s c ra) c).csq = .halting (BitVec.ofNat 32 (low32 (core s c) ra)) (core s c).pc := by
    simp [haltMet, setCore]
  rw [finishHalt, csq]
  simp only [exit]
  rfl

end

/-- Settles O11. -/
theorem csqTissueAndHalt : Obligations.CsqTissueAndHalt := by
  unfold Obligations.CsqTissueAndHalt
  intro s c ra rb hrun hpc k e h
  refine ⟨?tissue, fun hbusy => ?_, fun hempty => ?_⟩
  case tissue =>
    change e.unit < 4 → _ → _ → csqIssue s c 0 ra rb 0 = _
    exact csqIssue_retires hrun hpc rfl
  · change csqStop s c 0 ra 0 = _
    rw [csqStop_ends hrun, finishHalt_haltMet, hbusy, if_neg Bool.false_ne_true]
    rfl
  · change csqStop s c 0 ra 0 = _
    rw [csqStop_ends hrun, finishHalt_haltMet, if_pos hempty]
    rfl

/-! ### Faults, and instructions turned away (R129; log 4) -/

section
variable {s : State} {c : CoreId} (hrun : CsqRuns s c) {rd ra : SReg} {imm : BitVec 14} {n a : Nat}
include hrun

theorem csqLoad_faults (ha : eaOf (core s c) ra imm = a) {f : CsqFault} (hf : accessFault a n = some f)
    (ext : Nat → BitVec 64) : csqLoad s c rd ra imm n ext =
      .next (finish s (endProgram s c { outcome := 1, fault := f.code, pc := (core s c).pc })) := by
  rw [csqLoad, csqDo_runs hrun]
  simp only [ha, hf]
  exact done_csqFault hrun f

theorem csqStore_faults (ha : eaOf (core s c) ra imm = a) {f : CsqFault} (hf : accessFault a n = some f) :
    csqStore s c rd ra imm n =
      .next (finish s (endProgram s c { outcome := 1, fault := f.code, pc := (core s c).pc })) := by
  rw [csqStore, csqDo_runs hrun]
  simp only [ha, hf]
  exact done_csqFault hrun f

/-- A control-space access whose IMM14[13:12] or ra is not 0, or whose entry the table does not list, is illegal. -/
theorem csr_illegal (h : 4096 ≤ imm.toNat ∨ ra ≠ 0 ∨ csRead s c (core s c) (csIndex imm) = none) :
    csrRead s c rd ra imm = .next (finish s (endProgram s c { outcome := 1, fault := 1, pc := (core s c).pc })) ∧
    csrWrite s c rd ra imm = .next (finish s (endProgram s c { outcome := 1, fault := 1, pc := (core s c).pc })) := by
  have illegal : (ra == 0 && decide (imm.toNat < 4096) && (csRead s c (core s c) (csIndex imm)).isSome) = false := by
    rcases h with h | h | h
    · simp [Nat.not_lt.2 h]
    · rw [beq_eq_false_iff_ne.2 h, Bool.false_and, Bool.false_and]
    · simp [h]
  refine ⟨?_, csqDo_illegal hrun (ok := fun k => ra == 0 && decide (imm.toNat < 4096) && (csRead s c k (csIndex imm)).isSome)
    illegal⟩
  rw [csrRead, csqDo_runs hrun]
  cases hr : csRead s c (core s c) (csIndex imm) with
  | none =>
    rw [legal]
    split <;> exact done_csqFault hrun .illegal
  | some v =>
    rw [hr, Option.isSome_some, Bool.and_true] at illegal
    rw [legal, illegal, if_neg Bool.false_ne_true]
    exact done_csqFault hrun .illegal

end

/-- Every instruction that a word spells is one of the sequencer's, which a sequencer that does not execute turns away. -/
theorem exec_of_decodeCsq {c : CoreId} {w : BitVec 32} {i : Instr} (h : decodeCsq c w = some i) {s : State}
    (haway : csqReady s c = false) : exec i s = .next s := by
  have away : ¬ csqReady s c = true := Bool.eq_false_iff.1 haway
  unfold decodeCsq aluInstr at h
  split at h
  case h_1 =>
    split at h
    case h_19 => cases h
    all_goals
      cases h
      unfold exec
      exact if_neg away
  case h_40 => cases h
  all_goals
    cases h
    unfold exec
    exact if_neg away

/-- Settles O12. -/
theorem csqFaultsAndTurnedAway : Obligations.CsqFaultsAndTurnedAway := by
  unfold Obligations.CsqFaultsAndTurnedAway
  refine ⟨?faults, fun s c i w _ hd haway => exec_of_decodeCsq hd haway⟩
  intro s c rd ra imm hrun k a ends
  have ea : eaOf (core s c) ra imm = a := rfl
  have misaligned (h : a % 8 ≠ 0) : accessFault a 8 = some .misaligned := if_pos h
  have range (h : a % 8 = 0) (hr : 0xC00000 < a + 8) : accessFault a 8 = some .range := by
    rw [accessFault, if_neg (not_not.2 h)]
    exact if_pos hr
  have word (h : 64 ≤ imm.toNat) : decide (imm.toNat < 64) = false := by simpa using h
  refine ⟨fun h => ⟨?_, ?_⟩, fun h hr => ⟨?_, ?_⟩, fun h => ⟨?_, ?_⟩, fun h => ?_, fun h => ?_, fun h => ?_⟩
  · change csqLoad s c rd ra imm 8 (signExt 8) = _
    exact csqLoad_faults (f := .misaligned) hrun ea (misaligned h) (signExt 8)
  · change csqStore s c rd ra imm 8 = _
    exact csqStore_faults (f := .misaligned) hrun ea (misaligned h)
  · change csqLoad s c rd ra imm 8 (signExt 8) = _
    exact csqLoad_faults (f := .range) hrun ea (range h hr) (signExt 8)
  · change csqStore s c rd ra imm 8 = _
    exact csqStore_faults (f := .range) hrun ea (range h hr)
  · change shiftImm s c rd ra imm (fun a n => a <<< n) = _
    exact csqDo_illegal hrun (word h)
  · change semSig s c rd ra imm = _
    exact csqDo_illegal hrun (word h)
  · change execCsqJalr c rd ra imm s = _
    rw [execCsqJalr, csqDo_runs hrun]
    exact (if_pos h).trans (done_csqFault hrun .misaligned)
  · change csrRead s c rd ra imm = _ ∧ csrWrite s c rd ra imm = _
    exact csr_illegal hrun h
  · change csqBranch s c ra ra imm (· == ·) = _
    have outside : ¬ (branchTarget (core s c) imm true).toNat < pmSize := Nat.not_lt.2 h
    rw [csqBranch, csqDo_runs hrun, branchTarget_eq, beq_self_eq_true, goTo, if_neg outside, stepTo, if_neg outside,
      done_awake hrun.awake, csqFault, setCore, core_updCore_same]
    rfl

end Sys2Proof.Machine
end

section
/-! How a descriptor row comes to its end (08 R228, R230, R234, R239): what starting a descriptor changes, the checks before
the body, and the body of each opcode. -/

namespace Sys2Proof.Machine

/-! ### Starting a descriptor -/

section
variable (s : State) (h p q : Nat) (d : Desc)

theorem takeDesc_part (p' : Nat) : part (takeDesc s h p q d).1 p' =
    if p' = p then { part s p with started := (part s p).started + 1 } else part s p' := by
  simp [takeDesc, part_updPart]

theorem takeDesc_queue (h' q' : Nat) : queue (takeDesc s h p q d).1 h' q' =
    if h' = h ∧ q' = q then { queue s h q with sqHead := ((queue s h q).sqHead + 1) % (queue s h q).ringsz,
                                               lastDescs := (d :: (queue s h q).lastDescs).take 4 }
    else queue s h' q' := by
  simp [takeDesc, queue_updQueue]

theorem takeDesc_frame : { (takeDesc s h p q d).1 with hps := s.hps, parts := s.parts } = s := rfl

@[simp] theorem takeDesc_ecOf (c : Nat) : ecOf (takeDesc s h p q d).1 p c = ecOf s p c := by
  simp [ecOf, takeDesc_part]
@[simp] theorem takeDesc_unitPart (u : Nat) : unitPart (takeDesc s h p q d).1 u = unitPart s u := rfl
@[simp] theorem takeDesc_isOwner : isOwner (takeDesc s h p q d).1 h = isOwner s h := rfl
@[simp] theorem takeDesc_regF (i : RegInst) (off lo w : Nat) : regF (takeDesc s h p q d).1 i off lo w = regF s i off lo w := rfl
@[simp] theorem takeDesc_passed : passed (takeDesc s h p q d).1 p = passed s p := by simp [passed, takeDesc_part]
end

/-! ### The rows -/

theorem exec_descriptorRow (s : State) (h : HostId) (q : QueueId) (d : Desc) :
    ∀ r ∈ descriptorRows, exec (r.1 h q d) s = done s (descRow s h q d r.2.1 r.2.2) := by
  simp only [descriptorRows, List.cons_append, List.nil_append, List.forall_mem_cons, List.not_mem_nil, false_imp_iff,
    implies_true, and_true]
  repeat' apply And.intro
  all_goals rfl

theorem descRow_away {s : State} {h q : Nat} {d : Desc} {op k : Nat}
    (away : fitsRow s h d op k = false ∨ ∀ p, hpPart s h = some p → canStartDesc s h p q d = false) :
    descRow s h q d op k = s := by
  rcases away with unfit | stuck
  · simp [descRow, unfit]
  · have stays : startDesc s h q d = s := by
      unfold startDesc
      split
      · rfl
      · next p hp => simp [stuck p hp]
    simp [descRow, stays]

theorem descRow_can {s : State} {h p q : Nat} {d : Desc} {op k : Nat} (hp : hpPart s h = some p)
    (hc : canStartDesc s h p q d = true) (fits : fitsRow s h d op k = true) :
    descRow s h q d op k =
      (descBody (takeDesc s h p q d).1 h p (takeDesc s h p q d).2 none).run h (takeDesc s h p q d).2 := by
  rw [descRow, if_pos fits, startDesc_can hp hc]

/-- Settles O15. -/
theorem everyDescriptorRowStartsItsDescriptor : Obligations.EveryDescriptorRowStartsItsDescriptor := by
  unfold Obligations.EveryDescriptorRowStartsItsDescriptor
  intro s h q p d r hr hawake hp hc fits t f
  refine ⟨?_, ?_, ?_, fun h' q' other => ?_, fun p' other => ?_, takeDesc_frame s h p q d, rfl, rfl, rfl, rfl, rfl⟩
  · rw [Ends, exec_descriptorRow s h q d r hr, done_awake hawake, descRow_can hp hc fits]
  · exact (takeDesc_queue ..).trans (if_pos ⟨rfl, rfl⟩)
  · exact (takeDesc_part ..).trans (if_pos rfl)
  · exact (takeDesc_queue ..).trans (if_neg (not_and_or.2 other))
  · exact (takeDesc_part ..).trans (if_neg other)

/-! ### The sub-operation that tells the rows of an opcode apart (R239) -/

section
variable {s : State} {p : Nat} {d : Desc} {x k : Nat}

theorem listed_eq {n : Nat} (h : listed n k = some x) : x = k := by
  unfold listed at h
  split at h
  · exact (Option.some.inj h).symm
  · cases h

theorem descSub_of_single {op : Nat} (ho : dOpcode d = op) (hop : op ∉ [0x04, 0x0B, 0x10, 0x11, 0x1A, 0x1C, 0x1D])
    (h : descSub s p d = some x) : x = 0 := by
  unfold descSub at h
  rw [ho] at h
  split at h
  case h_8 => exact (Option.some.inj h).symm
  all_goals simp at hop

theorem descSub_coll (ho : dOpcode d = 0x04) (h : descSub s p d = some x) : x = coCop d := by
  rw [descSub, ho] at h
  exact listed_eq h

theorem descSub_optim (ho : dOpcode d = 0x0B) (h : descSub s p d = some x) :
    x = pbRecipe (vread s p (dF d 8 0 48) 160).data := by
  rw [descSub, ho] at h
  simp only at h
  split at h
  · exact listed_eq h
  · cases h

theorem descSub_snapshot (ho : dOpcode d = 0x10) (h : descSub s p d = some x) :
    x = if bitOf d 65 then 2 else b2n (bitOf d 64) := by
  rw [descSub, ho] at h
  exact (Option.some.inj h).symm

theorem descSub_restore_signal (ho : dOpcode d = 0x11 ∨ dOpcode d = 0x1A) (h : descSub s p d = some x) :
    x = b2n (bitOf d 64) := by
  rcases ho with ho | ho
  all_goals
    rw [descSub, ho] at h
    exact (Option.some.inj h).symm

theorem descSub_ctrl (ho : dOpcode d = 0x1C ∨ dOpcode d = 0x1D) (h : descSub s p d = some x) : x = dF d 8 0 8 := by
  rcases ho with ho | ho
  all_goals
    rw [descSub, ho] at h
    exact listed_eq h

end

/-! ### The bodies by opcode (R239) -/

section
variable {s : State} {h p : Nat} {f : Flight} {input : Option Blob}

theorem descBody_oos (oos : s.faults.oos = true) : descBody s h p f input = .fin s .fenced := by
  rw [descBody, if_pos oos]

section
variable (oos : s.faults.oos = false)
include oos

theorem descBody_encoding (hop : dOpcode f.desc ≠ 0x0B) (enc : encodingOk s h f.q f.desc = false) :
    descBody s h p f input = .fin s .badDesc := by
  simp [descBody, oos, hop, enc]

theorem descBody_optim (hop : dOpcode f.desc = 0x0B) : descBody s h p f input = optimBody s p h f := by
  simp [descBody, oos, hop]

variable (enc : encodingOk s h f.q f.desc = true)
include enc

theorem descBody_nop (hop : dOpcode f.desc = 0x00) : descBody s h p f input = .fin s .done := by
  simp [descBody, oos, enc, hop]
theorem descBody_copy (hop : dOpcode f.desc = 0x01) : descBody s h p f input = copyBody s p f input := by
  simp [descBody, oos, enc, hop]
theorem descBody_fill (hop : dOpcode f.desc = 0x02) : descBody s h p f input = fillBody s p f := by
  simp [descBody, oos, enc, hop]
theorem descBody_launch (hop : dOpcode f.desc = 0x03) : descBody s h p f input = launchBody s p f := by
  simp [descBody, oos, enc, hop]
theorem descBody_coll (hop : dOpcode f.desc = 0x04) (hcop : coCop f.desc < 6) :
    descBody s h p f input = collBody s p f := by
  simp [descBody, oos, enc, hop, hcop]
theorem descBody_rma (hop : dOpcode f.desc = 0x04) (hcop : coCop f.desc = 6 ∨ coCop f.desc = 7) :
    descBody s h p f input = rmaBody s p f := by
  rcases hcop with hcop | hcop <;> simp [descBody, oos, enc, hop, hcop]
theorem descBody_stepBegin (hop : dOpcode f.desc = 0x08) : descBody s h p f input = stepBeginBody s p f := by
  simp [descBody, oos, enc, hop]
theorem descBody_phase (hop : dOpcode f.desc = 0x09) : descBody s h p f input = phaseBody s p f := by
  simp [descBody, oos, enc, hop]
theorem descBody_stepEnd (hop : dOpcode f.desc = 0x0A) : descBody s h p f input = stepEndBody s p f := by
  simp [descBody, oos, enc, hop]
theorem descBody_scaleCommit (hop : dOpcode f.desc = 0x0C) : descBody s h p f input = scaleCommitBody s p f := by
  simp [descBody, oos, enc, hop]
theorem descBody_snapshot (hop : dOpcode f.desc = 0x10) : descBody s h p f input = snapshotBody s p f := by
  simp [descBody, oos, enc, hop]
theorem descBody_restore (hop : dOpcode f.desc = 0x11) : descBody s h p f input = restoreBody s p f := by
  simp [descBody, oos, enc, hop]
theorem descBody_drain (hop : dOpcode f.desc = 0x12) : descBody s h p f input = drainBody s p f := by
  simp [descBody, oos, enc, hop]
theorem descBody_fence (hop : dOpcode f.desc = 0x18) : descBody s h p f input = fenceBody s f := by
  simp [descBody, oos, enc, hop]
theorem descBody_wait (hop : dOpcode f.desc = 0x19) : descBody s h p f input = waitBody s f := by
  simp [descBody, oos, enc, hop]
theorem descBody_signal (hop : dOpcode f.desc = 0x1A) : descBody s h p f input = signalBody s p f := by
  simp [descBody, oos, enc, hop]
theorem descBody_proofCtrl (hop : dOpcode f.desc = 0x1C) : descBody s h p f input = proofCtrlBody s p f := by
  simp [descBody, oos, enc, hop]
theorem descBody_testCtrl (hop : dOpcode f.desc = 0x1D) : descBody s h p f input = testCtrlBody s p h f := by
  simp [descBody, oos, enc, hop]

end
end

/-! ### A row whose descriptor starts -/

section
variable {s : State} {h p q : Nat} {d : Desc} {n : Nat} (st : Starts s h p q d n)
include st

theorem Starts.oos : (takeDesc s h p q d).1.faults.oos = false := by obtain ⟨-, -, -, oos, -, -⟩ := st; exact oos

theorem Starts.enc : encodingOk (takeDesc s h p q d).1 h (takeDesc s h p q d).2.q (takeDesc s h p q d).2.desc = true := by
  obtain ⟨-, -, -, -, enc, -⟩ := st
  exact enc

theorem Starts.op : dOpcode (takeDesc s h p q d).2.desc = n := by obtain ⟨-, -, -, -, -, ho⟩ := st; exact ho

theorem Starts.opcode : dOpcode d = n := st.op

variable {i : Instr} {k : Nat} (hrow : exec i s = done s (descRow s h q d n k))
include hrow

/-- What follows the start of a descriptor of its row is the body of its opcode. -/
theorem ends_of_body (hsub : ∀ x, descSub s p d = some x → x = k) {b : Began}
    (hb : descBody (takeDesc s h p q d).1 h p (takeDesc s h p q d).2 none = b) :
    Ends i s (b.run h (takeDesc s h p q d).2) := by
  rw [Ends, hrow, done_awake st.1, descRow_starts st hsub, hb]

/-- A body that ends the descriptor with RESULT 0. -/
theorem completes_of_body (hsub : ∀ x, descSub s p d = some x → x = k) {status : St} {e : State → State}
    (hb : descBody (takeDesc s h p q d).1 h p (takeDesc s h p q d).2 none = .fin (e (takeDesc s h p q d).1) status) :
    Completes i s h p q d status 0 e :=
  ends_of_body st hrow hsub hb

/-- A body that puts the descriptor on the list of started descriptors. -/
theorem joins_of_body (hsub : ∀ x, descSub s p d = some x → x = k) {b e : State → State} {f : Flight → Flight}
    (hb : descBody (takeDesc s h p q d).1 h p (takeDesc s h p q d).2 none =
      .waits (b (takeDesc s h p q d).1) (f (takeDesc s h p q d).2) e) : Joins i s h p q d b f e := by
  rw [Joins, Ends, hrow, done_awake st.1, descRow_starts st hsub, hb]
  rfl

end

/-! ### Checks that pass and checks that fail -/

section
variable {s : State} {st : St} {k : Began} {a : Nat} {b : Bool}

theorem unless_of_good (h : b = false) : unless_ s b st k = k := by rw [unless_, h, if_neg Bool.false_ne_true]
theorem unless_of_bad (h : b = true) : unless_ s b st k = .fin s st := by rw [unless_, if_pos h]
theorem inScope_of_good (h : b = true) : inScope_ s b a k = k := by rw [inScope_, if_pos h]
theorem inScope_of_bad (h : b = false) : inScope_ s b a k = .ended s .outOfScope 0 a none := by
  rw [inScope_, h, if_neg Bool.false_ne_true]

end

theorem outside_range {a lo hi : Nat} (h : a < lo ∨ hi < a) : (decide (a < lo) || decide (hi < a)) = true := by
  simpa only [Bool.or_eq_true, decide_eq_true_eq] using h

theorem inside_range {a lo hi : Nat} (h1 : lo ≤ a) (h2 : a ≤ hi) : (decide (a < lo) || decide (hi < a)) = false := by
  simp only [Bool.or_eq_false_iff, decide_eq_false_iff_not]
  omega

/-! ### Descriptors that complete at once -/

section
variable {s : State} {p : Nat} {f : Flight}

theorem signalBody_set (hset : bitOf f.desc 64 = true) :
    signalBody s p f = .fin (setEc s p (dF f.desc 9 0 6) (dF f.desc 16 0 64)) .done := by
  rw [signalBody, if_pos hset]

theorem signalBody_add {v : Nat} (hset : bitOf f.desc 64 = false) (hv : dF f.desc 16 0 64 = v) : signalBody s p f =
    unless_ s (v == 0) .doneEmpty (.fin (setEc s p (dF f.desc 9 0 6) (ecOf s p (dF f.desc 9 0 6) + v)) .done) := by
  rw [signalBody, hset, if_neg Bool.false_ne_true, hv]
  rfl

end

section
variable {s : State} {p h : Nat} {f : Flight} {a : Nat} (ha : dF f.desc 10 0 16 = a)
include ha

theorem proofCtrlBody_setW (hpop : dF f.desc 8 0 8 = 0) : proofCtrlBody s p f =
    unless_ s (a < 1 || 4 < a) .badDesc (.fin (updProof s p (fun x => { x with wNext := a })) .done) := by
  rw [proofCtrlBody, hpop, ha]
  rfl

theorem proofCtrlBody_setSample (hpop : dF f.desc 8 0 8 = 1) : proofCtrlBody s p f =
    unless_ s (a < 4 || 10 < a) .badDesc (.fin (updProof s p (fun x => { x with sampleK := a })) .done) := by
  rw [proofCtrlBody, hpop, ha]
  rfl

theorem testCtrlBody_interval (htop : dF f.desc 8 0 8 = 1) : testCtrlBody s p h f =
    unless_ s (a < 1 || 3600 < a) .badDesc
      (unless_ s (!isOwner s h) .unsupported (.fin (setRegF s .dev 0x00C0804 0 12 a) .done)) := by
  rw [testCtrlBody, htop, ha]
  rfl

theorem testCtrlBody_inject (htop : dF f.desc 8 0 8 = 3) {u : Nat} {g : State → State}
    (hu : injectFault (a / 4096) (a % 4096) = some (u, g)) : testCtrlBody s p h f =
    unless_ s (unitPart s u != p) .badDesc
      (unless_ s (regF s .dev 0x00C0804 12 1 == 0) .unsupported (.fin (g s) .done)) := by
  rw [testCtrlBody, htop, ha]
  simp only [hu]

omit ha

theorem proofCtrlBody_failStep (hpop : dF f.desc 8 0 8 = 3) : proofCtrlBody s p f =
    match (proof s p).openStep with
    | some n => .fin (raise s p 0x0B (some n) (ucHost (partHp s p))) .done
    | none => .fin s .badDesc := by
  rw [proofCtrlBody, hpop]
  rfl

end

/-- Settles O16: the checks come before the body, and each body begins with its own. -/
theorem descriptorChecks : Obligations.DescriptorChecks := by
  unfold Obligations.DescriptorChecks
  refine ⟨?before, ?away, ?own⟩
  case before =>
    intro s h q p d r hr hawake hp hc fits
    have row := exec_descriptorRow s h q d r hr
    refine ⟨fun oos => ?_, fun oos hop enc => ?_⟩
    · have body : descBody (takeDesc s h p q d).1 h p (takeDesc s h p q d).2 none = .fin _ .fenced := descBody_oos oos
      rw [Completes, Ends, row, done_awake hawake, descRow_can hp hc fits, body]
      rfl
    · have body : descBody (takeDesc s h p q d).1 h p (takeDesc s h p q d).2 none = .fin _ .badDesc :=
        descBody_encoding oos hop enc
      rw [Completes, Ends, row, done_awake hawake, descRow_can hp hc fits, body]
      rfl
  case away =>
    intro s h q d r hr
    have row := exec_descriptorRow s h q d r hr
    refine ⟨fun asleep => ?_, fun hawake unfit => ?_, fun hawake stuck => ?_⟩
    · rw [row, done_asleep asleep]
    · rw [Ends, row, done_awake hawake, descRow_away (.inl unfit)]
    · rw [Ends, row, done_awake hawake, descRow_away (.inr stuck)]
  case own =>
    intro s h q p d a pop
    have proofCtrl (st : Starts s h p q d 0x1C) {k : Nat} (hpop : pop = k) (x : Nat) (hx : descSub s p d = some x) : x = k :=
      (descSub_ctrl (.inl st.opcode) hx).trans hpop
    have testCtrl (st : Starts s h p q d 0x1D) {k : Nat} (hpop : pop = k) (x : Nat) (hx : descSub s p d = some x) : x = k :=
      (descSub_ctrl (.inr st.opcode) hx).trans hpop
    refine ⟨fun st hpop ha => ?_, fun st hpop ha => ?_, fun st hpop hn => ?_, fun st hpop ha => ?_, fun st hpop h1 h2 ho => ?_,
      fun u g st hpop hu hpart hen => ?_⟩
    · refine completes_of_body st rfl (proofCtrl st hpop) (e := id) ?_
      rw [descBody_proofCtrl st.oos st.enc st.op, proofCtrlBody_setW (f := (takeDesc s h p q d).2) (a := a) rfl hpop,
        unless_of_bad (outside_range ha)]
      rfl
    · refine completes_of_body st rfl (proofCtrl st hpop) (e := id) ?_
      rw [descBody_proofCtrl st.oos st.enc st.op, proofCtrlBody_setSample (f := (takeDesc s h p q d).2) (a := a) rfl hpop,
        unless_of_bad (outside_range ha)]
      rfl
    · refine completes_of_body st rfl (proofCtrl st hpop) (e := id) ?_
      rw [descBody_proofCtrl st.oos st.enc st.op, proofCtrlBody_failStep (f := (takeDesc s h p q d).2) hpop, takeDesc_proof, hn]
      rfl
    · refine completes_of_body st rfl (testCtrl st hpop) (e := id) ?_
      rw [descBody_testCtrl st.oos st.enc st.op, testCtrlBody_interval (f := (takeDesc s h p q d).2) (a := a) rfl hpop,
        unless_of_bad (outside_range ha)]
      rfl
    · refine completes_of_body st rfl (testCtrl st hpop) (e := id) ?_
      rw [descBody_testCtrl st.oos st.enc st.op, testCtrlBody_interval (f := (takeDesc s h p q d).2) (a := a) rfl hpop,
        unless_of_good (inside_range h1 h2), unless_of_bad (by simpa using ho)]
      rfl
    · refine completes_of_body st rfl (testCtrl st hpop) (e := id) ?_
      rw [descBody_testCtrl st.oos st.enc st.op, testCtrlBody_inject (f := (takeDesc s h p q d).2) (a := a) rfl hpop hu,
        takeDesc_unitPart, takeDesc_regF,
        unless_of_good (bne_eq_false_iff_eq.2 hpart),
        unless_of_bad (beq_iff_eq.2 hen)]
      rfl

/-- Settles O17. -/
theorem descriptorsThatCompleteAtOnce : Obligations.DescriptorsThatCompleteAtOnce := by
  unfold Obligations.DescriptorsThatCompleteAtOnce
  intro s h q p d a k v pop
  have signal {b : Bool} (st : Starts s h p q d 0x1A) (hset : bitOf d 64 = b) (x : Nat)
      (hx : descSub s p d = some x) : x = b2n b := by rw [descSub_restore_signal (.inr st.opcode) hx, hset]
  have proofCtrl (st : Starts s h p q d 0x1C) {k : Nat} (hpop : pop = k) (x : Nat) (hx : descSub s p d = some x) : x = k :=
    (descSub_ctrl (.inl st.opcode) hx).trans hpop
  have testCtrl (st : Starts s h p q d 0x1D) {k : Nat} (hpop : pop = k) (x : Nat) (hx : descSub s p d = some x) : x = k :=
    (descSub_ctrl (.inr st.opcode) hx).trans hpop
  refine ⟨fun st => ?nop, fun st hset => ⟨fun hv => ?signalAdd, fun hv => ?signalNone⟩, fun st hset => ?signalSet,
    fun st hpop h1 h2 => ?setW, fun st hpop h1 h2 => ?setSample, fun n st hpop hn => ?failStep,
    fun st hpop h1 h2 ho => ?interval, fun u g st hpop hu hpart hen => ?inject, fun n st hn hstep h1 h2 => ?scaleCommit⟩
  case nop =>
    refine completes_of_body st rfl (fun x => descSub_of_single st.opcode (by decide)) (e := id) ?_
    exact descBody_nop st.oos st.enc st.op
  case signalAdd =>
    refine completes_of_body st rfl (signal st hset) ?_
    rw [descBody_signal st.oos st.enc st.op, signalBody_add (f := (takeDesc s h p q d).2) (v := v) hset rfl,
      unless_of_good (beq_eq_false_iff_ne.2 hv), takeDesc_ecOf]
    rfl
  case signalNone =>
    refine completes_of_body st rfl (signal st hset) (e := id) ?_
    rw [descBody_signal st.oos st.enc st.op, signalBody_add (f := (takeDesc s h p q d).2) (v := v) hset rfl,
      unless_of_bad (beq_iff_eq.2 hv)]
    rfl
  case signalSet =>
    refine completes_of_body st rfl (signal st hset) ?_
    exact (descBody_signal st.oos st.enc st.op).trans (signalBody_set (f := (takeDesc s h p q d).2) hset)
  case setW =>
    refine completes_of_body st rfl (proofCtrl st hpop) ?_
    rw [descBody_proofCtrl st.oos st.enc st.op, proofCtrlBody_setW (f := (takeDesc s h p q d).2) (a := a) rfl hpop,
      unless_of_good (inside_range h1 h2)]
  case setSample =>
    refine completes_of_body st rfl (proofCtrl st hpop) ?_
    rw [descBody_proofCtrl st.oos st.enc st.op, proofCtrlBody_setSample (f := (takeDesc s h p q d).2) (a := a) rfl hpop,
      unless_of_good (inside_range h1 h2)]
  case failStep =>
    refine completes_of_body st rfl (proofCtrl st hpop) ?_
    rw [descBody_proofCtrl st.oos st.enc st.op, proofCtrlBody_failStep (f := (takeDesc s h p q d).2) hpop, takeDesc_proof, hn]
    rfl
  case interval =>
    refine completes_of_body st rfl (testCtrl st hpop) ?_
    rw [descBody_testCtrl st.oos st.enc st.op, testCtrlBody_interval (f := (takeDesc s h p q d).2) (a := a) rfl hpop,
      unless_of_good (inside_range h1 h2),
      unless_of_good (by simpa using ho)]
  case inject =>
    refine completes_of_body st rfl (testCtrl st hpop) ?_
    have enabled : (regF s .dev 0x00C0804 12 1 == 0) = false := by rw [hen]; rfl
    rw [descBody_testCtrl st.oos st.enc st.op, testCtrlBody_inject (f := (takeDesc s h p q d).2) (a := a) rfl hpop hu,
      takeDesc_unitPart, takeDesc_regF,
        unless_of_good (bne_eq_false_iff_eq.2 hpart),
      unless_of_good enabled]
  case scaleCommit =>
    refine completes_of_body st rfl (fun x => descSub_of_single st.opcode (by decide)) ?_
    rw [descBody_scaleCommit st.oos st.enc st.op]
    subst hn
    simp only [scaleCommitBody, takeDesc_desc, takeDesc_step, hstep]
    have few : decide (65536 < dF d 20 0 32) = false := decide_eq_false (Nat.not_lt.2 h2)
    have some_scales : (dF d 20 0 32 == 0) = false := beq_eq_false_iff_ne.2 (Nat.one_le_iff_ne_zero.1 h1)
    exact (unless_of_good (Bool.or_eq_false_iff.2 ⟨few, bne_self_eq_false _⟩)).trans (unless_of_good some_scales)

end Sys2Proof.Machine
end

section
/-! What recording an event, setting a sticky bit and raising an interrupt leave alone (15 R466, R474; 17 R496, R498). -/

namespace Sys2Proof.Machine

/-- A table read elsewhere than where it was written, whatever its default. -/
theorem mget_mset_other {α : Type} [DecidableEq α] (m : Map α) (d e : α) {k j : Nat} (v : α) (away : j ≠ k) :
    mget (mset m d k v) e j = mget m e j := by
  have entry : ∀ c ∈ (if v = d then ([] : Map α) else [(k, v)]), c.1 ≠ j := by
    intro c hc
    split at hc
    · simp at hc
    · simp only [List.mem_singleton] at hc
      subst hc
      exact away.symm
  rcases Nat.lt_or_gt_of_ne away with lt | gt
  · rw [mset, List.append_assoc, mget_append_absent, mget_mbelow, if_pos lt]
    intro c hc
    rcases List.mem_append.1 hc with hc | hc
    · exact entry c hc
    · have := (mem_mfrom.1 hc).2
      omega
  · rw [mset, List.append_assoc, mget_append_of_absent _ _ _ _ fun c hc => by have := (mem_mbelow.1 hc).2; omega,
      mget_append_of_absent _ _ _ _ entry, mget_mfrom, if_pos (by omega)]

/-- The offsets of the sticky registers (17 R496). -/
def stickyOffs : List Nat := [0x00C0000, 0x00C0004, 0x00C0008]

/-- `t` is `s` but for the event recorder, what went out, the sticky registers, and the interrupt state of the host ports. -/
structure Reports (s t : State) : Prop where
  frame : t = { s with evr := t.evr, out := t.out, regs := t.regs, hps := t.hps }
  hp : ∀ h, hport t h = { hport s h with asyncCause := (hport t h).asyncCause, msix := (hport t h).msix }
  regs : ∀ i off, off < 2 ^ 26 → off ∉ stickyOffs → regW t i off = regW s i off

namespace Reports

theorem refl (s : State) : Reports s s := ⟨rfl, fun _ => rfl, fun _ _ _ _ => rfl⟩

theorem trans {s t u : State} (a : Reports s t) (b : Reports t u) : Reports s u where
  frame := by rw [b.frame, a.frame]
  hp h := by rw [b.hp h, a.hp h]
  regs i off lt plain := (b.regs i off lt plain).trans (a.regs i off lt plain)

theorem foldl {α : Type} {g : State → α → State} (hg : ∀ s a, Reports s (g s a)) (l : List α) (s : State) :
    Reports s (l.foldl g s) := by
  induction l generalizing s with
  | nil => exact refl s
  | cons a l ih => exact (hg s a).trans (ih (g s a))

section
variable {s t : State} (r : Reports s t)
include r
theorem ms : t.ms = s.ms := by rw [r.frame]
theorem parts : t.parts = s.parts := by rw [r.frame]
theorem cores : t.cores = s.cores := by rw [r.frame]
theorem units : t.units = s.units := by rw [r.frame]
theorem ports : t.ports = s.ports := by rw [r.frame]
theorem pmode : t.pmode = s.pmode := by rw [r.frame]
theorem retiredCores : t.retiredCores = s.retiredCores := by rw [r.frame]
theorem core (c : Nat) : core t c = Machine.core s c := by rw [Machine.core, Machine.core, r.cores]
theorem physOf (l : Nat) : physOf t l = Machine.physOf s l := by rw [Machine.physOf, Machine.physOf, r.frame]
theorem part (p : Nat) : part t p = Machine.part s p := by rw [Machine.part, Machine.part, r.parts]
theorem queue (h q : Nat) : queue t h q = Machine.queue s h q := by rw [Machine.queue, r.hp h]; rfl
theorem flights (h : Nat) : (hport t h).flights = (hport s h).flights := by rw [r.hp h]
end

end Reports

/-! ### Interrupts and sticky bits -/

section
variable (s : State)

theorem reports_emit (o : Out) : Reports s (emit s o) := ⟨rfl, fun _ => rfl, fun _ _ _ _ => rfl⟩

theorem key_mod (i : RegInst) {off : Nat} (lt : off < 2 ^ 26) : i.key off % 2 ^ 26 = off := by
  cases i <;> simp only [RegInst.key] <;> omega

theorem reports_setReg (i : RegInst) {off : Nat} (v : Nat) (sticky : off ∈ stickyOffs) : Reports s (setReg s i off v) where
  frame := rfl
  hp _ := rfl
  regs j x lt plain := by
    have off_lt : off < 2 ^ 26 := by
      have small : ∀ o ∈ stickyOffs, o < 2 ^ 26 := by decide
      exact small off sticky
    refine mget_mset_other _ _ _ _ fun e => plain ?_
    have := congrArg (· % 2 ^ 26) e
    simp only [key_mod _ lt, key_mod _ off_lt] at this
    rwa [this]

theorem reports_updHp {h : Nat} {f : HostPort → HostPort}
    (hf : ∀ x, f x = { x with asyncCause := (f x).asyncCause, msix := (f x).msix }) : Reports s (updHp s h f) where
  frame := rfl
  hp k := by
    rw [hport_updHp]
    split
    · next e => subst e; exact hf _
    · rfl
  regs _ _ _ _ := rfl

theorem reports_sendMsix (h v : Nat) : Reports s (sendMsix s h v) := by
  unfold sendMsix
  split
  · split
    · exact reports_updHp s fun _ => rfl
    · exact reports_emit s _
  · exact .refl s

theorem reports_asyncCause (h bit : Nat) : Reports s (asyncCause s h bit) := by
  unfold asyncCause
  split
  · exact .refl s
  · refine (reports_updHp s (h := h) (f := fun x => { x with asyncCause := x.asyncCause ||| 2 ^ bit }) fun _ => rfl).trans ?_
    dsimp only
    split
    · exact reports_sendMsix _ _ _
    · exact .refl _

theorem reports_stickyCause (hs : List Nat) : Reports s (stickyCause s hs) :=
  .foldl (fun s h => reports_asyncCause s h 4) hs s

theorem reports_stickyPart (p bit : Nat) : Reports s (stickyPart s p bit) := by
  unfold stickyPart
  dsimp only
  split
  · exact .refl s
  · exact (reports_setReg s _ _ (by decide)).trans (reports_stickyCause _ _)

theorem reports_stickyDev (bit : Nat) : Reports s (stickyDev s bit) := by
  unfold stickyDev
  dsimp only
  split
  · exact .refl s
  · exact (reports_setReg s _ _ (by decide)).trans (reports_stickyCause _ _)

/-! ### Records -/

theorem reports_updEvr (f : Recorder → Recorder) : Reports s (updEvr s f) := ⟨rfl, fun _ => rfl, fun _ _ _ _ => rfl⟩

theorem reports_storeEvent (e : Event) : Reports s (storeEvent s e) := by
  unfold storeEvent
  dsimp only
  split
  · split
    · exact ⟨rfl, fun _ => rfl, fun _ _ _ _ => rfl⟩
    · exact (reports_updEvr s _).trans (reports_stickyDev _ _)
  · exact ⟨rfl, fun _ => rfl, fun _ _ _ _ => rfl⟩

theorem reports_flushEvents : Reports s (flushEvents s) := by
  unfold flushEvents
  split
  · exact .refl s
  · exact reports_updEvr s _

theorem reports_recordE (p src oper ev : Nat) (detail : Bytes) (inj : Bool) : Reports s (recordE s p src oper ev detail inj) := by
  unfold recordE
  extract_lets sev dev pr e stored
  have kept : Reports s stored := by
    subst stored
    split
    · split
      · exact reports_updEvr s _
      · exact reports_storeEvent s _
    · exact reports_storeEvent s _
  split
  · exact .refl s
  · split
    · exact reports_updEvr s _
    · split
      · exact kept.trans (reports_flushEvents _)
      · exact kept

theorem reports_record (p src oper ev : Nat) (detail : Bytes) : Reports s (record s p src oper ev detail) :=
  reports_recordE s p src oper ev detail false

end

end Sys2Proof.Machine
end

section
/-! Descriptors that move bytes and write records (R240, R256; 11 R361; 13 R393). -/

namespace Sys2Proof.Machine

/-! ### What starting a descriptor leaves alone of memory, scope and journals -/

section
variable (s : State) (h p q : Nat) (d : Desc) (p' : Nat)

@[simp] theorem takeDesc_scopeOk (c : Cls) (wr : Bool) (va n : Nat) :
    scopeOk (takeDesc s h p q d).1 p' c wr va n = scopeOk s p' c wr va n := rfl
@[simp] theorem takeDesc_badVa (c : Cls) (wr : Bool) (va n : Nat) :
    badVa (takeDesc s h p q d).1 p' c wr va n = badVa s p' c wr va n := rfl
@[simp] theorem takeDesc_fencedMem (va n : Nat) : fencedMem (takeDesc s h p q d).1 p' va n = fencedMem s p' va n := rfl
@[simp] theorem takeDesc_journal : (part (takeDesc s h p q d).1 p').journal = (part s p').journal := by
  rw [takeDesc_part]
  split
  · next e => rw [e]
  · rfl

@[simp] theorem takeDesc_stackSegs (k : Nat) : stackSegs (takeDesc s h p q d).1 p' k = stackSegs s p' k := by
  simp [stackSegs]
@[simp] theorem takeDesc_hasPreImage (n ppn : Nat) :
    hasPreImage (takeDesc s h p q d).1 p' n ppn = hasPreImage s p' n ppn := by simp [hasPreImage]
@[simp] theorem takeDesc_journalUsed (k n m : Nat) :
    journalUsed (takeDesc s h p q d).1 p' k n m = journalUsed s p' k n m := by simp [journalUsed]
@[simp] theorem takeDesc_journalOlder (k n : Nat) :
    journalOlder (takeDesc s h p q d).1 p' k n = journalOlder s p' k n := by simp [journalOlder]

theorem takeDesc_journalStalls (o : Option Nat) (l : List (Nat × Nat)) :
    journalStalls (takeDesc s h p q d).1 p' o l = journalStalls s p' o l := by
  cases o with
  | none => rfl
  | some n =>
    simp only [journalStalls, takeDesc_hasPreImage, takeDesc_journalUsed, takeDesc_journalOlder]
    rfl

theorem takeDesc_inputHeld : inputHeld (takeDesc s h p q d).1 p' = inputHeld s p' := by simp [inputHeld]

end

theorem unlessStalled_of_room {s : State} {p h q : Nat} {d : Desc} {f : Flight} {l : List (Nat × Nat)} {input : Option Blob}
    {k : Began} (room : HasRoom s p l) : unlessStalled (takeDesc s h p q d).1 p f l input k = k := by
  rw [unlessStalled, takeDesc_proof, takeDesc_journalStalls, room, if_neg Bool.false_ne_true]

/-! ### COPY and FILL -/

section
variable {s : State} {p : Nat} {f : Flight} {input : Option Blob}

theorem copyGo_plain (keep : keepsInput s p f.desc = false) :
    copyGo s p f input = unlessStalled s p f [(cpDst f.desc, cpLen f.desc)] input (finCopy s p f.desc false input) := by
  simp [copyGo, keep]

theorem finCopy_eq {d : Desc} {keep : Bool} : finCopy s p d keep input =
    .ended (moveCopy s p d input).1 (if (moveCopy s p d input).2.bad then .poisoned else .done) 0 0
      (if keep then some (moveCopy s p d input).2 else none) := rfl

theorem copyGo_kept {k : Nat} (keep : keepsInput s p f.desc = true) (first : f.replay = false) (hk : f.step = some k)
    (fits : inputHeld s p + cpLen f.desc ≤ inputRoom s p) :
    copyGo s p f input = unlessStalled s p f [(cpDst f.desc, cpLen f.desc)] input (finCopy s p f.desc true none) := by
  simp [copyGo, keep, first, hk, fits]

end


section
variable {s : State} {h p q : Nat} {d : Desc}

/-- A COPY that passes its checks of form and fences. -/
theorem copyBody_checked (apart : (isHostVa (cpSrc d) && isHostVa (cpDst d)) = false)
    (disjoint : rangesMeet (cpSrc d, cpLen d) (cpDst d, cpLen d) = false)
    (fsrc : fencedMem s p (cpSrc d) (cpLen d) = false) (fdst : fencedMem s p (cpDst d) (cpLen d) = false) :
    copyBody (takeDesc s h p q d).1 p (takeDesc s h p q d).2 none =
      unless_ (takeDesc s h p q d).1 (cpLen d == 0) .doneEmpty
        (inScope_ (takeDesc s h p q d).1 (scopeOk s p .host false (cpSrc d) (cpLen d)) (badVa s p .host false (cpSrc d) (cpLen d))
          (inScope_ (takeDesc s h p q d).1 (scopeOk s p .host true (cpDst d) (cpLen d)) (badVa s p .host true (cpDst d) (cpLen d))
            (copyGo (takeDesc s h p q d).1 p (takeDesc s h p q d).2 none))) := by
  simp only [copyBody, takeDesc_desc, apart, disjoint, takeDesc_fencedMem, fsrc, fdst, Bool.or_self, takeDesc_scopeOk,
    takeDesc_badVa]
  rfl

/-- A COPY of a length other than 0, in scope, goes on with its bytes. -/
theorem copyBody_go (apart : (isHostVa (cpSrc d) && isHostVa (cpDst d)) = false)
    (disjoint : rangesMeet (cpSrc d, cpLen d) (cpDst d, cpLen d) = false)
    (fsrc : fencedMem s p (cpSrc d) (cpLen d) = false) (fdst : fencedMem s p (cpDst d) (cpLen d) = false)
    (some_bytes : cpLen d ≠ 0) (reads : scopeOk s p .host false (cpSrc d) (cpLen d) = true)
    (writes : scopeOk s p .host true (cpDst d) (cpLen d) = true) :
    copyBody (takeDesc s h p q d).1 p (takeDesc s h p q d).2 none =
      copyGo (takeDesc s h p q d).1 p (takeDesc s h p q d).2 none := by
  rw [copyBody_checked apart disjoint fsrc fdst, unless_of_good (beq_eq_false_iff_ne.2 some_bytes), inScope_of_good reads,
    inScope_of_good writes]

theorem copyGo_take_plain (room : HasRoom s p [(cpDst d, cpLen d)]) (keep : keepsInput s p d = false) :
    copyGo (takeDesc s h p q d).1 p (takeDesc s h p q d).2 none = finCopy (takeDesc s h p q d).1 p d false none :=
  (copyGo_plain (s := (takeDesc s h p q d).1) (f := (takeDesc s h p q d).2) keep).trans (unlessStalled_of_room room)

theorem copyGo_take_kept {k : Nat} (room : HasRoom s p [(cpDst d, cpLen d)]) (keep : keepsInput s p d = true)
    (hk : stepOf s p d = some k) (fits : inputHeld s p + cpLen d ≤ inputRoom s p) :
    copyGo (takeDesc s h p q d).1 p (takeDesc s h p q d).2 none = finCopy (takeDesc s h p q d).1 p d true none :=
  (copyGo_kept (s := (takeDesc s h p q d).1) (f := (takeDesc s h p q d).2) keep rfl hk (by rw [takeDesc_inputHeld]; exact fits)).trans
    (unlessStalled_of_room room)

theorem fillBody_checked (fdst : fencedMem s p (dF d 8 0 48) (dF d 16 0 40) = false) :
    fillBody (takeDesc s h p q d).1 p (takeDesc s h p q d).2 =
      unless_ (takeDesc s h p q d).1 (dF d 16 0 40 == 0) .doneEmpty
        (inScope_ (takeDesc s h p q d).1 (scopeOk s p .host true (dF d 8 0 48) (dF d 16 0 40))
          (badVa s p .host true (dF d 8 0 48) (dF d 16 0 40))
          (unlessStalled (takeDesc s h p q d).1 p (takeDesc s h p q d).2 [(dF d 8 0 48, dF d 16 0 40)] none
            (.fin (vwrite (takeDesc s h p q d).1 p (dF d 8 0 48) (.clean (fillBytes d))) .done))) := by
  simp only [fillBody, takeDesc_desc, takeDesc_fencedMem, fdst, takeDesc_scopeOk, takeDesc_badVa]
  rfl

end

/-! ### Records -/

theorem proofRecord_length (s : State) (p : Nat) : (proofRecord s p).length = 64 := by simp [proofRecord, leBytes_length]

theorem testReport_length (s : State) : (testReport s).length = 64 := by simp [testReport, zeros, leBytes_length]

theorem recordBody_writes {s : State} {p va n : Nat} {bs : Bytes} (hn : bs.length = n) (hf : fencedMem s p va n = false)
    (hs : scopeOk s p .host true va n = true) : recordBody s p va bs = .fin (vwrite s p va (.clean bs)) .done := by
  subst hn
  rw [recordBody, unless_of_good hf, inScope_of_good hs]


section
variable {s : State} {p h : Nat} {f : Flight}

theorem proofCtrlBody_query (hpop : dF f.desc 8 0 8 = 2) :
    proofCtrlBody s p f = recordBody s p (dF f.desc 16 0 48) (proofRecord s p) := by
  rw [proofCtrlBody, hpop]
  rfl

theorem testCtrlBody_report (htop : dF f.desc 8 0 8 = 2) :
    testCtrlBody s p h f = recordBody s p (dF f.desc 16 0 48) (testReport s) := by
  rw [testCtrlBody, htop]
  rfl

end

section
variable (s : State) (h p q : Nat) (d : Desc)

theorem takeDesc_proofRecord (p' : Nat) : proofRecord (takeDesc s h p q d).1 p' = proofRecord s p' := by
  simp only [proofRecord, takeDesc_proof, takeDesc_xport]
  rfl

theorem takeDesc_testReport : testReport (takeDesc s h p q d).1 = testReport s := by
  simp only [testReport, underObservation, takeDesc_proof]
  rfl

end

/-! ### A FILL out of scope -/

section
variable (s : State)

theorem hwritePz_ms (h a : Nat) (b : Blob) : (hwritePz s h a b).ms = s.ms := by
  unfold hwritePz
  split
  · exact (Reports.foldl (fun s _ => reports_emit s _) _ _).ms
  · rfl

theorem queueIrq_ms (h q : Nat) (irq : Bool) : (queueIrq s h q irq).ms = s.ms := by
  unfold queueIrq
  dsimp only
  split
  · exact (reports_sendMsix _ _ _).ms
  · rfl

theorem writeEntry_ms (h q didx qgen : Nat) (d : Desc) (step : Option Nat) (status result : Nat) :
    (writeEntry s h q didx qgen d step status result).ms = s.ms := by
  unfold writeEntry
  dsimp only
  split
  · rw [queueIrq_ms, updQueue_ms, hwrite, hwritePz_ms]
  · rfl

theorem completeDesc_ms {h : Nat} {f : Flight} {st : St} {result addr : Nat} {input : Option Blob} :
    (completeDesc s h f st result false addr input).ms = s.ms := by
  unfold completeDesc
  split
  · rfl
  · extract_lets p counted logged entered
    have e1 : counted.ms = s.ms := by subst counted; split <;> rfl
    have e2 : logged.ms = s.ms := by
      rw [← e1]
      subst logged
      split
      · split <;> rfl
      · rfl
    have e3 : entered.ms = s.ms := by
      rw [← e2]
      subst entered
      split
      · rfl
      · exact writeEntry_ms ..
    rw [if_neg (by simp), e3]

theorem completeDesc_outOfScope {h : Nat} {f : Flight} (first : f.replay = false) (result addr : Nat) (input : Option Blob) :
    completeDesc s h f .outOfScope result true addr input =
      freezeQueue (completeDesc s h f .outOfScope result false 0 input) h f.q addr := by
  simp [completeDesc, first]

theorem freezeQueue_state (h q addr : Nat) : (queue (freezeQueue s h q addr) h q).state = 3 := by
  unfold freezeQueue
  dsimp only
  rw [(reports_asyncCause _ _ _).queue, (reports_stickyPart _ _ _).queue, recordFreeze, (reports_record _ _ _ _ _ _).queue,
    queue_updQueue_same]

end

/-- Settles O18. -/
theorem copyFillAndRecords : Obligations.CopyFillAndRecords := by
  unfold Obligations.CopyFillAndRecords
  refine ⟨fun s h q p d => ?runs, fun s h q p d => ?frozen⟩
  case runs =>
    intro n t f m st dst len va
    refine ⟨fun start apart disjoint fsrc fdst => ⟨fun hn => ?copyEmpty, fun hn reads writes room => ?copies⟩,
      fun start fdst => ⟨fun hn => ?fillEmpty, fun hn writes room => ?fills⟩, fun start hpop hf hs => ?query,
      fun start hpop hf hs => ?report⟩
    case copyEmpty =>
      refine completes_of_body start rfl (fun x => descSub_of_single start.opcode (by decide)) (e := id) ?_
      rw [descBody_copy start.oos start.enc start.op, copyBody_checked apart disjoint fsrc fdst, unless_of_bad (beq_iff_eq.2 hn)]
      rfl
    case copies =>
      have body := (descBody_copy (input := none) start.oos start.enc start.op).trans
        (copyBody_go apart disjoint fsrc fdst hn reads writes)
      refine ⟨fun keep => ?_, fun k keep hk fits => ?_⟩
      · have ends := ends_of_body (i := .copy h q d) start rfl (fun x => descSub_of_single start.opcode (by decide))
          ((body.trans (copyGo_take_plain room keep)).trans finCopy_eq)
        rwa [Began.run] at ends
      · have ends := ends_of_body (i := .copy h q d) start rfl (fun x => descSub_of_single start.opcode (by decide))
          ((body.trans (copyGo_take_kept room keep hk fits)).trans finCopy_eq)
        rwa [Began.run] at ends
    case fillEmpty =>
      refine completes_of_body start rfl (fun x => descSub_of_single start.opcode (by decide)) (e := id) ?_
      rw [descBody_fill start.oos start.enc start.op, fillBody_checked fdst, unless_of_bad (beq_iff_eq.2 hn)]
      rfl
    case fills =>
      refine completes_of_body start rfl (fun x => descSub_of_single start.opcode (by decide)) ?_
      rw [descBody_fill start.oos start.enc start.op, fillBody_checked fdst, unless_of_good (beq_eq_false_iff_ne.2 hn),
        inScope_of_good writes, unlessStalled_of_room room]
      rfl
    case query =>
      refine completes_of_body start rfl (fun x hx => (descSub_ctrl (.inl start.opcode) hx).trans hpop) ?_
      rw [descBody_proofCtrl start.oos start.enc start.op, proofCtrlBody_query (f := (takeDesc s h p q d).2) hpop,
        takeDesc_proofRecord]
      exact recordBody_writes (proofRecord_length s p) hf hs
    case report =>
      refine completes_of_body start rfl (fun x hx => (descSub_ctrl (.inr start.opcode) hx).trans hpop) ?_
      rw [descBody_testCtrl start.oos start.enc start.op, testCtrlBody_report (f := (takeDesc s h p q d).2) hpop,
        takeDesc_testReport]
      exact recordBody_writes (testReport_length s) hf hs
  case frozen =>
    intro dst len t f start fdst hn out
    refine ⟨_, ?_, rfl, freezeQueue_state _ _ _ _, completeDesc_ms t⟩
    have body := (descBody_fill (input := none) start.oos start.enc start.op).trans (fillBody_checked fdst)
    rw [unless_of_good (beq_eq_false_iff_ne.2 hn), inScope_of_bad out] at body
    have ends := ends_of_body start rfl (i := .fill h q d) (fun x => descSub_of_single start.opcode (by decide)) body
    rwa [Began.run, completeDesc_outOfScope _ rfl] at ends

end Sys2Proof.Machine
end

section
/-! Descriptors that join the started ones and complete later (R237, R241, R244, R245, R248; 12 R370; 13 R393). -/

namespace Sys2Proof.Machine

section
variable {s : State} {h p q : Nat} {d : Desc}

theorem waitBody_waits (hc : dF d 8 0 3 ≤ 3) : waitBody (takeDesc s h p q d).1 (takeDesc s h p q d).2 =
    .waits (takeDesc s h p q d).1
      { (takeDesc s h p q d).2 with waits := .cond (dF d 8 0 3) (dF d 9 0 6) (dF d 16 0 64) } id :=
  unless_of_good (decide_eq_false (Nat.not_lt.2 hc))

theorem stepBeginBody_waits {n va : Nat} (hn : dF d 8 0 48 = n) (hva : dF d 16 0 48 = va) (hpass : passed s p = true)
    (aligned : va % 32 = 0) (next : n = (proof s p).nextStep) (epoch : dF d 14 0 16 = (xport s p).epoch)
    (unfenced : fencedMem s p va 32 = false) (scope : scopeOk s p .host true va 32 = true) :
    stepBeginBody (takeDesc s h p q d).1 p (takeDesc s h p q d).2 =
      .waits (updProof (takeDesc s h p q d).1 p (fun x => { x with begun := true, nextStep := n + 1 }))
        { (takeDesc s h p q d).2 with step := some n, waits := .stepBegin n va } id := by
  simp only [stepBeginBody, takeDesc_desc, hn, hva, takeDesc_passed, takeDesc_proof, takeDesc_xport, hpass, ← next, epoch,
    aligned, takeDesc_fencedMem, unfenced, takeDesc_scopeOk, scope]
  rw [unless_of_good (by simp), unless_of_good (by simp), unless_of_good rfl, inScope_of_good rfl]

theorem stepEndBody_waits {n : Nat} (hn : dF d 8 0 48 = n) (hpass : passed s p = true) (hopen : (proof s p).openStep = some n) :
    stepEndBody (takeDesc s h p q d).1 p (takeDesc s h p q d).2 =
      .waits (updProof (takeDesc s h p q d).1 p (fun x => { x with ending := true }))
        { (takeDesc s h p q d).2 with waits := .stepEnd n } id := by
  simp only [stepEndBody, takeDesc_desc, hn, takeDesc_passed, takeDesc_proof, hpass, hopen]
  rw [unless_of_good (by simp)]

theorem snapshotBody_waits (hpass : passed s p = true) (running : bitOf d 65 = false) (hstep : (stepOf s p d).isSome = true)
    (atMbb : (proof s p).mbb = none ∨ ∃ x, (proof s p).mbb = some (true, x))
    (free : snapRefused (takeDesc s h p q d).1 p false = false) (ports : bitOf d 66 = true → storagePorts s p ≠ []) :
    snapshotBody (takeDesc s h p q d).1 p (takeDesc s h p q d).2 =
      .waits (updSnap (takeDesc s h p q d).1 p
          (fun x => { x with held := some (bitOf d 64, false, bitOf d 66, dF d 9 0 8, false) }))
        { (takeDesc s h p q d).2 with waits := .snapshot } id := by
  have no_step : (stepOf s p d).isNone = false := by simpa using hstep
  have no_port : (bitOf d 66 && (storagePorts (takeDesc s h p q d).1 p).isEmpty) = false := by
    cases auto : bitOf d 66 with
    | false => rfl
    | true =>
      rw [Bool.true_and, List.isEmpty_eq_false_iff]
      exact ports auto
  simp only [snapshotBody, takeDesc_desc, takeDesc_passed, takeDesc_proof, takeDesc_step, hpass, running, free, no_step,
    no_port]
  rw [unless_of_good rfl]
  rcases atMbb with none_ | ⟨x, some_⟩
  · rw [none_]; rfl
  · rw [some_]; rfl

theorem testCtrlBody_run {a : Nat} (htop : dF d 8 0 8 = 0) (ha : dF d 10 0 16 = a) (known : a ≤ 139)
    (kept : unitRetired s (testUnit a) = false) (own : unitPart s (testUnit a) = p) :
    testCtrlBody (takeDesc s h p q d).1 p h (takeDesc s h p q d).2 =
      .waits (updFaults (takeDesc s h p q d).1 (fun x => { x with asked := x.asked ++ [testUnit a] }))
        { (takeDesc s h p q d).2 with waits := .test (testUnit a) } id := by
  have kept' : unitRetired (takeDesc s h p q d).1 (testUnit a) = false := kept
  simp only [testCtrlBody, takeDesc_desc, htop, ha, takeDesc_unitPart, own, kept', Bool.or_false, beq_self_eq_true]
  exact (unless_of_good (decide_eq_false (Nat.not_lt.2 known))).trans (inScope_of_good rfl)

/-- Every logical core that a LAUNCH of loaded programs names is the partition's own, with a valid image, and not frozen. -/
def CanLaunch (s : State) (p : Nat) (named : List Nat) : Prop :=
  ∀ c ∈ named, lcorePart s c = p ∧ (core s (physOf s c)).imageValid = true ∧ smem s.frozenCores c = false

theorem CanLaunch.mine {named : List Nat} (ok : CanLaunch s p named) :
    named.filter (fun n => lcorePart s n == p) = named :=
  List.filter_eq_self.2 fun c hc => beq_iff_eq.2 (ok c hc).1

theorem launchBody_waits {mask : Nat} {named : List Nat} {range : Nat} (hmask : dF d 8 0 120 = mask)
    (hnamed : bitsSet mask 120 = named) (hrange : 16 * (named.foldl max 0) + 16 = range) (aligned : dF d 32 0 48 % 16 = 0)
    (loaded : dF d 48 0 1 = 0) (some_core : named ≠ []) (ok : CanLaunch s p named)
    (unfenced : fencedMem s p (dF d 32 0 48) range = false) (scope : scopeOk s p .host true (dF d 32 0 48) range = true) :
    launchBody (takeDesc s h p q d).1 p (takeDesc s h p q d).2 =
      acceptLaunch (takeDesc s h p q d).1 p (takeDesc s h p q d).2 mask (dF d 24 0 48) (dF d 32 0 48) none := by
  have mine : named.filter (fun n => lcorePart (takeDesc s h p q d).1 n == p) = named := ok.mine
  have images : named.any (fun n => !(core (takeDesc s h p q d).1 (physOf (takeDesc s h p q d).1 n)).imageValid) = false := by
    rw [List.any_eq_false]
    intro c hc
    obtain ⟨-, valid, -⟩ := ok c hc
    rw [Bool.not_eq_true', Bool.not_eq_false]
    exact valid
  have thawed : named.any (smem (takeDesc s h p q d).1.frozenCores) = false := by
    rw [List.any_eq_false]
    intro c hc
    obtain ⟨-, -, frozen⟩ := ok c hc
    exact Bool.not_eq_true _ ▸ frozen
  have nonempty : named.isEmpty = false := by simpa using some_core
  simp only [launchBody, takeDesc_desc, hmask, hnamed, hrange, aligned, loaded, mine, images, thawed, nonempty,
    takeDesc_fencedMem, unfenced, takeDesc_scopeOk, scope, beq_self_eq_true]
  rfl

end

/-- Settles O19. -/
theorem descriptorsThatWait : Obligations.DescriptorsThatWait := by
  unfold Obligations.DescriptorsThatWait
  intro s h q p d n va mask named range
  refine ⟨fun st => ?fence, fun st hc => ?wait, fun st hpass aligned next epoch unfenced scope => ?stepBegin,
    fun st hpass hopen => ?stepEnd,
    fun st hpass running hstep atMbb free ports => ⟨fun eager => ?snapshotEager, fun cow => ?snapshotCow⟩,
    fun st htop known kept own => ?run, fun st aligned loaded some_core ok unfenced scope => ?launch⟩
  case fence =>
    refine joins_of_body st rfl (fun x => descSub_of_single st.opcode (by decide)) (b := id)
      (f := fun f => { f with waits := .fence (bitOf d 64) }) ?_
    exact descBody_fence st.oos st.enc st.op
  case wait =>
    refine joins_of_body st rfl (fun x => descSub_of_single st.opcode (by decide)) (b := id)
      (f := fun f => { f with waits := .cond (dF d 8 0 3) (dF d 9 0 6) (dF d 16 0 64) }) ?_
    exact (descBody_wait st.oos st.enc st.op).trans (waitBody_waits hc)
  case stepBegin =>
    refine joins_of_body st rfl (fun x => descSub_of_single st.opcode (by decide)) ?_
    exact (descBody_stepBegin st.oos st.enc st.op).trans
      (stepBeginBody_waits rfl rfl hpass aligned next epoch unfenced scope)
  case stepEnd =>
    refine joins_of_body st rfl (fun x => descSub_of_single st.opcode (by decide)) ?_
    exact (descBody_stepEnd st.oos st.enc st.op).trans (stepEndBody_waits rfl hpass hopen)
  case snapshotEager =>
    refine joins_of_body st rfl (fun x hx => by rw [descSub_snapshot st.opcode hx, running, eager]; rfl) ?_
    exact (descBody_snapshot st.oos st.enc st.op).trans
      (eager ▸ snapshotBody_waits hpass running hstep atMbb free ports)
  case snapshotCow =>
    refine joins_of_body st rfl (fun x hx => by rw [descSub_snapshot st.opcode hx, running, cow]; rfl) ?_
    exact (descBody_snapshot st.oos st.enc st.op).trans
      (cow ▸ snapshotBody_waits hpass running hstep atMbb free ports)
  case run =>
    refine joins_of_body st rfl (fun x hx => (descSub_ctrl (.inr st.opcode) hx).trans htop) ?_
    exact (descBody_testCtrl st.oos st.enc st.op).trans (testCtrlBody_run htop rfl known kept own)
  case launch =>
    refine joins_of_body st rfl (fun x => descSub_of_single st.opcode (by decide)) ?_
    exact (descBody_launch st.oos st.enc st.op).trans
      (launchBody_waits rfl rfl rfl aligned loaded some_core ok unfenced scope)

end Sys2Proof.Machine
end

section
/-! Collectives and remote accesses as they begin (10 R311 to R315). -/

namespace Sys2Proof.Machine

/-! ### Reads that meet no ECC error (13 R393) -/

section
variable {s : State} (clean : NoneInjected s)
include clean

theorem touchPhys_clean (pa n : Nat) : touchPhys s pa n = s := by
  obtain ⟨none_injected, none_met⟩ := clean
  simp [touchPhys, none_injected, none_met]

theorem touch_clean (p va n : Nat) : touch s p va n = s := by
  unfold touch
  split
  · rfl
  · exact foldl_eq_self_of_mem fun x _ => touchPhys_clean clean _ _

end

/-! ### What starting a descriptor leaves alone of the groups -/

section
variable (s : State) (h p q : Nat) (d : Desc) (p' : Nat)

@[simp] theorem takeDesc_hostUp (k : Nat) : hostUp (takeDesc s h p q d).1 k = hostUp s k := by
  have linked : (hport (takeDesc s h p q d).1 k).linkUp = (hport s k).linkUp ∧
      (hport (takeDesc s h p q d).1 k).cfg = (hport s k).cfg := by
    rw [takeDesc, updPart_hport, hport_updQueue]
    split
    · next e => rw [e]; exact ⟨rfl, rfl⟩
    · exact ⟨rfl, rfl⟩
  rw [hostUp, hostUp, linked.1, linked.2]

theorem takeDesc_vread (va n : Nat) : vread (takeDesc s h p q d).1 p' va n = vread s p' va n := by
  simp only [vread, hread, takeDesc_hostUp]
  rfl

@[simp] theorem takeDesc_ownRank : ownRank (takeDesc s h p q d).1 p' = ownRank s p' := by simp [ownRank]
@[simp] theorem takeDesc_familyOf (g : Nat) : familyOf (takeDesc s h p q d).1 p' g = familyOf s p' g := by
  simp [familyOf]
@[simp] theorem takeDesc_groupRanks (g : Nat) : groupRanks (takeDesc s h p q d).1 p' g = groupRanks s p' g := by
  simp [groupRanks]
@[simp] theorem takeDesc_groupRank (g : Nat) : groupRank (takeDesc s h p q d).1 p' g = groupRank s p' g := by
  simp [groupRank]
@[simp] theorem takeDesc_coOk (e : Desc) : coOk (takeDesc s h p q d).1 p' e = coOk s p' e := by simp [coOk]
@[simp] theorem takeDesc_coFenced (e : Desc) : coFenced (takeDesc s h p q d).1 p' e = coFenced s p' e := by simp [coFenced]
@[simp] theorem takeDesc_coScope (e : Desc) : coScope (takeDesc s h p q d).1 p' e = coScope s p' e := by simp [coScope]
@[simp] theorem takeDesc_rmaPeer (e : Desc) : rmaPeer (takeDesc s h p q d).1 p' e = rmaPeer s p' e := by simp [rmaPeer]

end

/-! ### The bodies -/

section
variable {s : State} {h p q : Nat} {d : Desc}

theorem collBody_waits (hpass : passed s p = true) (hok : coOk s p d = true) (unfenced : coCount d = 0 ∨ coFenced s p d = false)
    (scope : coCount d = 0 ∨ coScope s p d = true) :
    collBody (takeDesc s h p q d).1 p (takeDesc s h p q d).2 =
      .waits (updXport (takeDesc s h p q d).1 p (fun x => { x with nextMsg := x.nextMsg + 1 }))
        { (takeDesc s h p q d).2 with waits := .coll ((xport s p).nextMsg % 2 ^ 32) }
        (fun t => startColl t p d (stepOf s p d) ((xport s p).nextMsg % 2 ^ 32)) := by
  have unfenced' : (coCount d != 0 && coFenced s p d) = false := by rcases unfenced with e | e <;> simp [e]
  have scope' : (coCount d == 0 || coScope s p d) = true := by rcases scope with e | e <;> simp [e]
  simp only [collBody, takeDesc_desc, takeDesc_passed, takeDesc_coOk, takeDesc_coFenced, takeDesc_coScope, hpass, hok,
    unfenced', scope', nextMsg, takeDesc_xport]
  rfl

/-- The two ranges of a remote access: the one on this rank, and the one on its peer. -/
structure RmaRanges (d : Desc) (put : Bool) (here there : Nat) : Prop where
  isPut : (coCop d == 6) = put
  near : (if put then coSrc d else coDst d) = here
  far : (if put then coDst d else coSrc d) = there

theorem rmaRanges_put (hcop : coCop d = 6) : RmaRanges d true (coSrc d) (coDst d) := ⟨beq_iff_eq.2 hcop, rfl, rfl⟩

theorem rmaRanges_get (hcop : coCop d = 7) : RmaRanges d false (coDst d) (coSrc d) :=
  ⟨beq_eq_false_iff_ne.2 (by simp [hcop]), rfl, rfl⟩

section
variable {r here there : Nat} {put : Bool} (ranges : RmaRanges d put here there) (hr : rmaPeer s p d = some r)
  (hpass : passed s p = true) (fhere : fencedMem s p here (coCount d) = false)
  (fthere : r = ownRank s p → fencedMem s p there (coCount d) = false)
include ranges hr hpass fhere fthere

theorem rmaBody_checked : rmaBody (takeDesc s h p q d).1 p (takeDesc s h p q d).2 =
    unless_ (takeDesc s h p q d).1 (coCount d == 0) .doneEmpty
      (inScope_ (takeDesc s h p q d).1 (scopeOk s p .peer (!put) here (coCount d)) (badVa s p .peer (!put) here (coCount d))
        (if r == ownRank s p then
          inScope_ (takeDesc s h p q d).1 (scopeOk s p .peer put there (coCount d)) (badVa s p .peer put there (coCount d))
            (.fin (localRma (touch (takeDesc s h p q d).1 p (coSrc d) (coCount d)) p d).1
              (if (localRma (touch (takeDesc s h p q d).1 p (coSrc d) (coCount d)) p d).2 then .poisoned else .done))
        else
          .waits (updXport (takeDesc s h p q d).1 p (fun x => { x with nextMsg := x.nextMsg + 1 }))
            { (takeDesc s h p q d).2 with waits := .rma ((xport s p).nextMsg % 2 ^ 32) }
            (fun t => startRma t p d r ((xport s p).nextMsg % 2 ^ 32)))) := by
  have unfenced : (fencedMem s p here (coCount d) || (r == ownRank s p && fencedMem s p there (coCount d))) = false := by
    rw [fhere, Bool.false_or]
    by_cases own : r = ownRank s p
    · rw [fthere own, Bool.and_false]
    · rw [beq_eq_false_iff_ne.2 own, Bool.false_and]
  simp only [rmaBody, takeDesc_desc, takeDesc_rmaPeer, takeDesc_ownRank, takeDesc_passed, takeDesc_fencedMem,
    takeDesc_scopeOk, takeDesc_badVa, takeDesc_xport, nextMsg, hr, hpass, ranges.isPut, ranges.near, ranges.far, unfenced]
  rfl

theorem rmaBody_empty (none_ : coCount d = 0) : rmaBody (takeDesc s h p q d).1 p (takeDesc s h p q d).2 =
    .fin (takeDesc s h p q d).1 .doneEmpty := by
  rw [rmaBody_checked ranges hr hpass fhere fthere, unless_of_bad (beq_iff_eq.2 none_)]

variable (some_ : coCount d ≠ 0) (scope : scopeOk s p .peer (!put) here (coCount d) = true)
include some_ scope

theorem rmaBody_remote (away : r ≠ ownRank s p) : rmaBody (takeDesc s h p q d).1 p (takeDesc s h p q d).2 =
    .waits (updXport (takeDesc s h p q d).1 p (fun x => { x with nextMsg := x.nextMsg + 1 }))
      { (takeDesc s h p q d).2 with waits := .rma ((xport s p).nextMsg % 2 ^ 32) }
      (fun t => startRma t p d r ((xport s p).nextMsg % 2 ^ 32)) := by
  rw [rmaBody_checked ranges hr hpass fhere fthere, unless_of_good (beq_eq_false_iff_ne.2 some_), inScope_of_good scope,
    if_neg (by simpa using away)]

theorem rmaBody_local (own : r = ownRank s p) (scope' : scopeOk s p .peer put there (coCount d) = true) (clean : NoneInjected s) :
    rmaBody (takeDesc s h p q d).1 p (takeDesc s h p q d).2 =
      .fin (vwrite (takeDesc s h p q d).1 p (coDst d) (vread s p (coSrc d) (coCount d)))
        (if (vread s p (coSrc d) (coCount d)).bad then .poisoned else .done) := by
  have met : touch (takeDesc s h p q d).1 p (coSrc d) (coCount d) = (takeDesc s h p q d).1 :=
    touch_clean (s := (takeDesc s h p q d).1) clean ..
  rw [rmaBody_checked ranges hr hpass fhere fthere, unless_of_good (beq_eq_false_iff_ne.2 some_), inScope_of_good scope,
    if_pos (beq_iff_eq.2 own), inScope_of_good scope', met,
    localRma, takeDesc_vread]

end

end

/-- Settles O20. -/
theorem collectivesAndRemoteAccess : Obligations.CollectivesAndRemoteAccess := by
  unfold Obligations.CollectivesAndRemoteAccess
  intro s h q p d st hpass m b n joins goes copies
  have row {k : Nat} (hcop : coCop d = k) (x : Nat) (hx : descSub s p d = some x) : x = k :=
    (descSub_coll st.opcode hx).trans hcop
  refine ⟨fun hok unfenced scope => ?collectives, fun r hcop hr fhere fthere => ?put, fun r hcop hr fhere fthere => ?get⟩
  case collectives =>
    have coll {i : Instr} {k : Nat} (hk : k < 6) (hcop : coCop d = k) (hi : exec i s = done s (descRow s h q d 0x04 k)) : joins i :=
      joins_of_body st hi (row hcop) ((descBody_coll st.oos st.enc st.op (hcop ▸ hk)).trans
        (collBody_waits hpass hok unfenced scope))
    exact ⟨fun e => coll (by decide) e rfl, fun e => coll (by decide) e rfl, fun e => coll (by decide) e rfl,
      fun e => coll (by decide) e rfl, fun e => coll (by decide) e rfl, fun e => coll (by decide) e rfl⟩
  case put =>
    have body := descBody_rma (p := p) (input := none) st.oos st.enc st.op (.inl hcop)
    have ranges := rmaRanges_put hcop
    refine ⟨fun none_ => ?_, fun some_ reads => ⟨fun away => ?_, fun own writes clean => ?_⟩⟩
    · exact completes_of_body st rfl (row hcop) (e := id) (body.trans (rmaBody_empty ranges hr hpass fhere fthere none_))
    · exact joins_of_body st rfl (row hcop) (body.trans (rmaBody_remote ranges hr hpass fhere fthere some_ reads away))
    · exact completes_of_body st rfl (row hcop)
        (body.trans (rmaBody_local ranges hr hpass fhere fthere some_ reads own writes clean))
  case get =>
    have body := descBody_rma (p := p) (input := none) st.oos st.enc st.op (.inr hcop)
    have ranges := rmaRanges_get hcop
    refine ⟨fun none_ => ?_, fun some_ writes => ⟨fun away => ?_, fun own reads clean => ?_⟩⟩
    · exact completes_of_body st rfl (row hcop) (e := id) (body.trans (rmaBody_empty ranges hr hpass fhere fthere none_))
    · exact joins_of_body st rfl (row hcop) (body.trans (rmaBody_remote ranges hr hpass fhere fthere some_ writes away))
    · exact completes_of_body st rfl (row hcop)
        (body.trans (rmaBody_local ranges hr hpass fhere fthere some_ writes own reads clean))

end Sys2Proof.Machine
end

section
/-! OPTIM as it runs (07 R187 to R198): the checks of its parameter block, and its two ends. -/

namespace Sys2Proof.Machine

/-! ### Reads of no bytes, and consumption of no poison -/

theorem vread_zero (s : State) (p va : Nat) : (vread s p va 0).bad = false := by
  unfold vread
  split
  · rw [Blob.bad, List.any_eq_false, hread]
    intro r hr
    dsimp only at hr
    split at hr
    · obtain ⟨x, -, rfl⟩ := List.mem_map.1 hr
      simp only [decide_eq_true_eq]
      omega
    · simp only [List.mem_singleton] at hr
      subst hr
      simp
  · rfl

/-- The bytes that an OPTIM reads where its block asks for them carry no poison. -/
theorem vread_if_clean {s : State} {p va n : Nat} {c : Bool} (clean : c = true → CleanRange s p va n) :
    (vread s p va (if c then n else 0)).bad = false := by
  cases c with
  | false => exact vread_zero s p va
  | true => exact (clean rfl).1

theorem consumeByEngines_clean {s : State} {p base va n sz first oper : Nat} {step : Option Nat} (clean : CleanRange s p va n) :
    consumeByEngines s p base va n sz first step oper = s := by
  obtain ⟨-, unpoisoned⟩ := clean
  rw [consumeByEngines, List.map_eq_nil_iff.1 unpoisoned]
  rfl

theorem consumeByEngines_if_clean {s : State} {p base va n sz first oper : Nat} {step : Option Nat} {c : Bool}
    (clean : c = true → CleanRange s p va n) :
    (if c then consumeByEngines s p base va n sz first step oper else s) = s := by
  cases c with
  | false => rfl
  | true => exact consumeByEngines_clean (clean rfl)

/-! ### The checks of an OPTIM -/

section
variable {s : State} {p va n : Nat} {b : Bytes} (hb : (vread s p va 160).data = b)
  (scope : scopeOk s p .engine false va 160 = true) (clean : CleanRange s p va 160) (fmt : pbFormatOk b = true)
  (unfenced : pbFenced s p va b = false)
include hb scope clean fmt unfenced

theorem optimRun_empty (none_ : pbCount b = 0) :
    optimRun s p va (some n) true = (optimEmpty s p b false, .doneEmpty) := by
  have untouched : (vread s p va 160).bad = false := clean.1
  simp only [optimRun, scope, hb, fmt, unfenced, none_, untouched, consumeByEngines_clean clean]
  rfl

theorem optimRun_runs (some_ : pbCount b ≠ 0) (scopes : pbScopeOk s p b = true)
    (cleanProg : (pbRecipe b == 3) = true → CleanRange s p (pbP b) 144)
    (cleanAcc : (pbUpdates b && pbClipSrc b) = true → CleanRange s p (pbAcc b) 32) {r : Recipe}
    (hr : pbRecipeOf b (vread s p (pbP b) (if pbRecipe b == 3 then 144 else 0)).data = some r)
    (fits : journalFits s p n ((if pbUpdates b then pbStored b r else []) ++ (if pbRen b then [(pbR b, 48)] else [])) = true) :
    optimRun s p va (some n) true =
      if pbUpdates b then
        optimUpdate s p n b r (vread s p (pbAcc b) (if pbUpdates b && pbClipSrc b then 32 else 0)).data false
      else optimReduce s p n b false := by
  have untouched : (vread s p va 160).bad = false := clean.1
  simp only [optimRun, scope, hb, fmt, unfenced, some_, scopes, hr, fits, untouched, vread_if_clean cleanProg,
    vread_if_clean cleanAcc, consumeByEngines_clean clean, consumeByEngines_if_clean cleanProg,
    consumeByEngines_if_clean cleanAcc]
  rfl

end

/-! ### OPTIM as a descriptor -/

theorem journalStalls_nil (s : State) (p : Nat) (o : Option Nat) : journalStalls s p o [] = false := by
  cases o with
  | none => rfl
  | some n => exact List.any_eq_false.2 fun k _ => by simp

theorem completeDesc_addr {s : State} {h : Nat} {f : Flight} {st : St} {result addr : Nat} {own : Bool} {input : Option Blob}
    (inside : st ≠ .outOfScope) : completeDesc s h f st result own addr input = completeDesc s h f st result own 0 input := by
  simp [completeDesc, inside]

section
variable (s : State) (h p q : Nat) (d : Desc) (p' : Nat)

theorem takeDesc_optimBadVa (va : Nat) : optimBadVa (takeDesc s h p q d).1 p' va = optimBadVa s p' va := by
  simp only [optimBadVa, takeDesc_vread, takeDesc_scopeOk, takeDesc_badVa]

theorem takeDesc_optimWrites (b : Bytes) : optimWrites (takeDesc s h p q d).1 p' b = optimWrites s p' b := by
  simp only [optimWrites, takeDesc_vread]

theorem takeDesc_journalFits (n : Nat) (l : List (Nat × Nat)) :
    journalFits (takeDesc s h p q d).1 p' n l = journalFits s p' n l := by
  simp only [journalFits, takeDesc_journal]
  rfl

variable {s h p q d p'}

theorem CleanRange.take {va n : Nat} (clean : CleanRange s p' va n) : CleanRange (takeDesc s h p q d).1 p' va n := by
  rw [CleanRange, takeDesc_vread]
  exact clean

theorem optimBody_ends {va n : Nat} (st : Starts s h p q d 0x0B) (hstep : stepOf s p d = some n) (hva : dF d 8 0 48 = va)
    (aligned : va % 32 = 0) (unmet : NoneInjected s) (room : HasRoom s p (optimWrites s p (vread s p va 160).data))
    {x : State × St} (hx : optimRun (takeDesc s h p q d).1 p va (some n) true = x) :
    optimBody (takeDesc s h p q d).1 p h (takeDesc s h p q d).2 = .ended x.1 x.2 0 (optimBadVa s p va) none := by
  subst hx
  have met : touch (takeDesc s h p q d).1 p va 160 = (takeDesc s h p q d).1 :=
    touch_clean (s := (takeDesc s h p q d).1) unmet p va 160
  have enc := st.enc
  rw [takeDesc_desc] at enc
  simp only [optimBody, takeDesc_desc, hva, takeDesc_step, hstep, met, enc, aligned, takeDesc_optimBadVa, takeDesc_vread,
    takeDesc_optimWrites, Bool.true_and, beq_self_eq_true, unlessStalled_of_room room, ite_self]

end

/-- Settles O21. -/
theorem optimRuns : Obligations.OptimRuns := by
  unfold Obligations.OptimRuns
  intro s h q p n d va t f b usesA prog acc empty ends st hstep aligned scope unmet clean fmt unfenced
  have hb : (vread t p va 160).data = b := congrArg Blob.data (takeDesc_vread ..)
  have row {k : Nat} (hk : pbRecipe b = k) (x : Nat) (hx : descSub s p d = some x) : x = k :=
    (descSub_optim st.opcode hx).trans hk
  refine ⟨fun none_ => ?empty, fun some_ scopes cleanProg cleanAcc room r hr fits => ?runs⟩
  case empty =>
    have room : HasRoom s p (optimWrites s p b) := by
      rw [optimWrites, if_pos none_]
      exact journalStalls_nil ..
    have body := (descBody_optim (input := none) st.oos st.op).trans
      (optimBody_ends st hstep rfl aligned unmet room (optimRun_empty hb scope clean.take fmt unfenced none_))
    have ends {i : Instr} {k : Nat} (hi : exec i s = done s (descRow s h q d 0x0B k)) (hk : pbRecipe b = k) : empty i := by
      have e := ends_of_body (i := i) st hi (row hk) body
      rwa [Began.run, completeDesc_addr (st := .doneEmpty) (nofun)] at e
    exact ⟨ends rfl, ends rfl, ends rfl, ends rfl, ends rfl, ends rfl⟩
  case runs =>
    have hprog : (vread t p (pbP b) (if pbRecipe b == 3 then 144 else 0)).data = prog :=
      congrArg Blob.data (takeDesc_vread ..)
    have hacc : (vread t p (pbAcc b) (if pbUpdates b && pbClipSrc b then 32 else 0)).data = acc :=
      congrArg Blob.data (takeDesc_vread ..)
    have run := optimRun_runs (n := n) hb scope clean.take fmt unfenced some_ scopes
      (fun e => (cleanProg (beq_iff_eq.1 e)).take) (fun e => (cleanAcc e).take) (hprog ▸ hr)
      ((takeDesc_journalFits ..).trans fits)
    rw [hacc] at run
    have body := (descBody_optim (input := none) st.oos st.op).trans (optimBody_ends st hstep rfl aligned unmet room run)
    have row_ends {i : Instr} {k : Nat} (hi : exec i s = done s (descRow s h q d 0x0B k)) (hk : pbRecipe b = k) :=
      ends_of_body (i := i) st hi (row hk) body
    have updates {i : Instr} {k : Nat} (hi : exec i s = done s (descRow s h q d 0x0B k)) (low : k < 4)
        (hk : pbRecipe b = k) : ends i (optimUpdate t p n b r acc false) := by
      have e := row_ends hi hk
      rwa [if_pos (show pbUpdates b = true from decide_eq_true (hk ▸ low))] at e
    have reduces {i : Instr} {k : Nat} (hi : exec i s = done s (descRow s h q d 0x0B k)) (high : 4 ≤ k)
        (hk : pbRecipe b = k) : ends i (optimReduce t p n b false) := by
      have e := row_ends hi hk
      rwa [if_neg (show ¬ pbUpdates b = true by simpa [pbUpdates, hk] using high)] at e
    exact ⟨updates rfl (by decide), updates rfl (by decide), updates rfl (by decide), updates rfl (by decide),
      reduces rfl (by decide), reduces rfl (by decide)⟩

end Sys2Proof.Machine
end

section
/-! PHASE, SNAPSHOT with QUIESCE, RESTORE and DRAIN as they begin (R246; 12 R369, R377 to R383). -/

namespace Sys2Proof.Machine

/-! ### Two writes of one entry -/

theorem mset_mset {α : Type} [DecidableEq α] (m : Map α) (d : α) (k : Nat) (v w : α) :
    mset (mset m d k v) d k w = mset m d k w := by
  have entry (P : Nat → Bool) (hP : P k = false) :
      List.filter (fun c : Nat × α => P c.1) (if v = d then [] else [(k, v)]) = [] := by
    split
    · rfl
    · rw [List.filter_cons_of_neg (by simp [hP]), List.filter_nil]
  have below : mbelow (mset m d k v) k = mbelow m k := by
    have cut : List.filter (fun c : Nat × α => decide (c.1 < k)) (mfrom m (k + 1)) = [] :=
      List.filter_eq_nil_iff.2 fun c hc => by have := (mem_mfrom.1 hc).2; simp only [decide_eq_true_eq]; omega
    have keep : List.filter (fun c : Nat × α => decide (c.1 < k)) (mbelow m k) = mbelow m k :=
      List.filter_eq_self.2 fun c hc => decide_eq_true (mem_mbelow.1 hc).2
    rw [mbelow, mset, List.filter_append, List.filter_append, keep, entry (fun i => decide (i < k)) (by simp), cut,
      List.append_nil, List.append_nil]
  have above : mfrom (mset m d k v) (k + 1) = mfrom m (k + 1) := by
    have cut : List.filter (fun c : Nat × α => decide (k + 1 ≤ c.1)) (mbelow m k) = [] :=
      List.filter_eq_nil_iff.2 fun c hc => by have := (mem_mbelow.1 hc).2; simp only [decide_eq_true_eq]; omega
    have keep : List.filter (fun c : Nat × α => decide (k + 1 ≤ c.1)) (mfrom m (k + 1)) = mfrom m (k + 1) :=
      List.filter_eq_self.2 fun c hc => decide_eq_true (mem_mfrom.1 hc).2
    rw [mfrom, mset, List.filter_append, List.filter_append, keep, entry (fun i => decide (k + 1 ≤ i)) (by simp), cut,
      List.nil_append, List.nil_append]
  rw [mset, below, above]
  rfl

theorem updPart_updPart (s : State) (p : Nat) (f g : Part → Part) :
    updPart (updPart s p f) p g = updPart s p (fun x => g (f x)) := by
  have same : part (updPart s p f) p = f (part s p) := part_updPart_same s p f
  rw [updPart, same]
  simp only [updPart, setPart, mset_mset]

/-! ### What starting a descriptor leaves alone of the snapshots -/

section
variable (s : State) (h p q : Nat) (d : Desc) (p' : Nat)

@[simp] theorem takeDesc_newestSlot : newestSlot (takeDesc s h p q d).1 p' = newestSlot s p' := by simp [newestSlot]
@[simp] theorem takeDesc_targetSlot : targetSlot (takeDesc s h p q d).1 p' = targetSlot s p' := by simp [targetSlot]
@[simp] theorem takeDesc_slotOf (i : Nat) : slotOf (takeDesc s h p q d).1 p' i = slotOf s p' i := by simp [slotOf]
@[simp] theorem takeDesc_stepActive : stepActive (takeDesc s h p q d).1 p' = stepActive s p' := by simp [stepActive]
@[simp] theorem takeDesc_storagePorts : storagePorts (takeDesc s h p q d).1 p' = storagePorts s p' := rfl
@[simp] theorem takeDesc_restoreOk (sl r m t : Nat) (v : List Nat) :
    restoreOk (takeDesc s h p q d).1 p' sl r m t v = restoreOk s p' sl r m t v := by
  simp only [restoreOk, takeDesc_xport, takeDesc_ownRank]
  rfl

end

/-! ### The bodies -/

section
variable {s : State} {h p q : Nat} {d : Desc}

theorem phaseBody_sets (mid : dF d 10 0 1 = 0) : phaseBody (takeDesc s h p q d).1 p (takeDesc s h p q d).2 =
    .fin (updPart (takeDesc s h p q d).1 p (fun y => { y with
      opReq := dF d 9 0 3, phased := true
      proof := { y.proof with phase := dF d 8 0 3, mbb := some (false, dF d 12 0 32) } })) .done := by
  have plain : (0 == 1) = false := rfl
  simp only [phaseBody, takeDesc_desc, mid, plain, Bool.false_eq_true, if_false, updProof, updPart_updPart]

theorem snapshotBody_quiesced (hpass : passed s p = true) (quiesce : bitOf d 65 = true) (idle : stepActive s p = false)
    (free : snapRefused (takeDesc s h p q d).1 p true = false) (ports : bitOf d 66 = true → storagePorts s p ≠ []) {c : State}
    (hc : capture (takeDesc s h p q d).1 p (bitOf d 64) true (bitOf d 66) (dF d 9 0 8) = c) :
    snapshotBody (takeDesc s h p q d).1 p (takeDesc s h p q d).2 =
      .ended (autoDrain (if hasFacing c p then copyMirror c p else c) p (targetSlot s p))
        (if slotPoisoned (slotOf c p (targetSlot s p)) then .poisoned else .done) (targetSlot s p) 0 none := by
  have no_port : (bitOf d 66 && (storagePorts s p).isEmpty) = false := by
    cases auto : bitOf d 66 with
    | false => rfl
    | true => rw [Bool.true_and, List.isEmpty_eq_false_iff]; exact ports auto
  simp only [snapshotBody, takeDesc_desc, takeDesc_passed, hpass, quiesce, takeDesc_stepActive, idle, free,
    takeDesc_storagePorts, no_port, takeDesc_targetSlot, hc]
  rfl

section
variable (hpass : passed s p = true) (idle : stepActive s p = false) (epoch : dF d 14 0 16 = (xport s p).epoch)
include hpass idle epoch

theorem restoreBody_storage (storage : bitOf d 64 = true) : restoreBody (takeDesc s h p q d).1 p (takeDesc s h p q d).2 =
    .waits (takeDesc s h p q d).1 { (takeDesc s h p q d).2 with waits := .restore }
      (fun t => startObject t p (dF d 24 0 64)) := by
  simp only [restoreBody, takeDesc_desc, takeDesc_passed, hpass, takeDesc_stepActive, idle, takeDesc_xport, epoch, storage,
    bne_self_eq_false]
  rfl

theorem restoreBody_slot {k : Nat} (local_ : bitOf d 64 = false) (hk : newestSlot s p = some k)
    (check : bitOf d 65 = true → (slotOf s p k).step = dF d 16 0 48)
    (ok : restoreOk s p (slotOf s p k).slice (slotOf s p k).rank s.pmode p ((slotOf s p k).pages.map (·.vpn)) = true) :
    restoreBody (takeDesc s h p q d).1 p (takeDesc s h p q d).2 =
      .waits (takeDesc s h p q d).1 { (takeDesc s h p q d).2 with waits := .restore } (fun t => restoreSlot t p k) := by
  have step_ok : (bitOf d 65 && (slotOf s p k).step != dF d 16 0 48) = false := by
    cases chk : bitOf d 65 with
    | false => rfl
    | true => rw [check chk, bne_self_eq_false]; rfl
  simp only [restoreBody, takeDesc_desc, takeDesc_passed, hpass, takeDesc_stepActive, idle, takeDesc_xport, epoch, local_,
    bne_self_eq_false, takeDesc_newestSlot, hk, takeDesc_slotOf, step_ok, takeDesc_restoreOk, takeDesc_pmode, ok]
  rfl

end

theorem drainBody_opens {k sel : Nat} {named js : List Nat} (hsel : dF d 8 0 2 = sel)
    (hnamed : (bitsSet (dF d 9 0 4) 4).map (28 + ·) = named)
    (hjs : (if named.isEmpty then storagePorts s p else named) = js) (hpass : passed s p = true) (legal : sel ≠ 3)
    (hk : (if sel = 2 then newestSlot s p else some sel) = some k) (committed : (slotOf s p k).state = 3) (some_port : js ≠ [])
    (own : ∀ j ∈ js, portPart s j = some p ∧ jpRole s j = 1) :
    drainBody (takeDesc s h p q d).1 p (takeDesc s h p q d).2 =
      .waits (updXport (takeDesc s h p q d).1 p (fun x => { x with nextMsg := x.nextMsg + 1 }))
        { (takeDesc s h p q d).2 with waits := .drain ((xport s p).nextMsg % 2 ^ 32) }
        (fun t => startDrain t p ((xport s p).nextMsg % 2 ^ 32) k (dF d 16 0 64) js (dF d 10 0 8) true) := by
  have mine : js.all (fun j => portPart (takeDesc s h p q d).1 j == some p) = true :=
    List.all_eq_true.2 fun j hj => beq_iff_eq.2 (own j hj).1
  have storage : js.any (fun j => jpRole (takeDesc s h p q d).1 j != 1) = false :=
    List.any_eq_false.2 fun j hj => by
      have role : jpRole (takeDesc s h p q d).1 j = 1 := (own j hj).2
      simp [role]
  have nonempty : js.isEmpty = false := by rwa [List.isEmpty_eq_false_iff]
  simp only [drainBody, takeDesc_desc, hsel, hnamed, takeDesc_storagePorts, hjs, takeDesc_newestSlot, hk, takeDesc_passed, hpass,
    takeDesc_slotOf, committed, mine, storage, nonempty, nextMsg, takeDesc_xport, beq_eq_false_iff_ne.2 legal]
  rfl

end

/-- Settles O22. -/
theorem phaseSnapshotRestoreAndDrain : Obligations.PhaseSnapshotRestoreAndDrain := by
  unfold Obligations.PhaseSnapshotRestoreAndDrain
  intro s h q p d t f i c filled sel named js m
  refine ⟨fun st mid => ?phase, fun st hpass quiesce idle free ports => ?snapshot,
    fun st hpass idle epoch => ⟨fun storage => ?storage, fun k local_ hk check ok => ?slot⟩,
    fun k st hpass legal newest chosen committed some_port own => ?drain⟩
  case phase =>
    refine completes_of_body st rfl (fun x => descSub_of_single st.opcode (by decide)) ?_
    exact (descBody_phase st.oos st.enc st.op).trans (phaseBody_sets mid)
  case snapshot =>
    have body := (descBody_snapshot (input := none) st.oos st.enc st.op).trans
      (snapshotBody_quiesced hpass quiesce idle free ports (c := c) rfl)
    have ends := ends_of_body (i := .snapshotQuiesce h q d) st rfl
      (fun x hx => by rw [descSub_snapshot st.opcode hx, quiesce]; rfl) body
    rwa [Began.run] at ends
  case storage =>
    refine joins_of_body st rfl (fun x hx => by rw [descSub_restore_signal (.inl st.opcode) hx, storage]; rfl) (b := id) ?_
    exact (descBody_restore st.oos st.enc st.op).trans (restoreBody_storage hpass idle epoch storage)
  case slot =>
    refine joins_of_body st rfl (fun x hx => by rw [descSub_restore_signal (.inl st.opcode) hx, local_]; rfl) (b := id) ?_
    exact (descBody_restore st.oos st.enc st.op).trans (restoreBody_slot hpass idle epoch local_ hk check ok)
  case drain =>
    refine joins_of_body st rfl (fun x => descSub_of_single st.opcode (by decide)) ?_
    have hk : (if sel = 2 then newestSlot s p else some sel) = some k := by
      split
      · next e => exact newest e
      · next e => rw [chosen e]
    exact (descBody_drain st.oos st.enc st.op).trans
      (drainBody_opens rfl rfl rfl hpass legal hk committed some_port own)

end Sys2Proof.Machine
end

section
/-! What writes of memory and completions leave alone of the ports and the transport (R230 to R233, R247; 06 R173). -/

namespace Sys2Proof.Machine

/-- `t` has the ports, the registers of the ports, the mode and the transport state of `s`. -/
structure KeepsPorts (s t : State) : Prop where
  pmode : t.pmode = s.pmode
  ports : t.ports = s.ports
  xport : ∀ p, xport t p = xport s p
  regs : ∀ i off, off < 2 ^ 26 → off ∉ stickyOffs → regW t i off = regW s i off

namespace KeepsPorts

theorem refl (s : State) : KeepsPorts s s := ⟨rfl, rfl, fun _ => rfl, fun _ _ _ _ => rfl⟩

theorem trans {s t u : State} (a : KeepsPorts s t) (b : KeepsPorts t u) : KeepsPorts s u where
  pmode := b.pmode.trans a.pmode
  ports := b.ports.trans a.ports
  xport p := (b.xport p).trans (a.xport p)
  regs i off lt plain := (b.regs i off lt plain).trans (a.regs i off lt plain)

theorem of_reports {s t : State} (r : Reports s t) : KeepsPorts s t where
  pmode := r.pmode
  ports := r.ports
  xport p := by rw [Machine.xport, Machine.xport, r.part]
  regs := r.regs

theorem foldl {α : Type} {g : State → α → State} (hg : ∀ s a, KeepsPorts s (g s a)) (l : List α) (s : State) :
    KeepsPorts s (l.foldl g s) := by
  induction l generalizing s with
  | nil => exact refl s
  | cons a l ih => exact (hg s a).trans (ih (g s a))

theorem of_ite {s t u : State} {c : Prop} [Decidable c] (a : KeepsPorts s t) (b : KeepsPorts s u) :
    KeepsPorts s (if c then t else u) := by
  split
  · exact a
  · exact b

section
variable {s t : State} (k : KeepsPorts s t)
include k

theorem partHp (p : Nat) : partHp t p = Machine.partHp s p := by rw [Machine.partHp, Machine.partHp, nparts, nparts, k.pmode]

theorem port (j : Nat) : port t j = Machine.port s j := by rw [Machine.port, Machine.port, k.ports]

theorem portPart {j : Nat} (small : j < 32) : portPart t j = Machine.portPart s j := by
  have same : regW t .dev (0x0010100 + 4 * j) = regW s .dev (0x0010100 + 4 * j) := by
    refine k.regs _ _ (by omega) fun sticky => ?_
    simp only [stickyOffs, List.mem_cons, List.not_mem_nil, or_false] at sticky
    omega
  rw [Machine.portPart, Machine.portPart, same]

theorem partPorts (p : Nat) : partPorts t p = Machine.partPorts s p :=
  List.filter_congr fun j hj => by rw [k.portPart (List.mem_range.1 hj)]

theorem hasFacing (p : Nat) : hasFacing t p = Machine.hasFacing s p := by
  simp only [Machine.hasFacing, facingRank, rankEntry, ownRank, k.xport]

end

end KeepsPorts

section
variable (s : State)

theorem keepsPorts_updPart {p : Nat} {f : Part → Part} (same : ∀ x, (f x).xport = x.xport) : KeepsPorts s (updPart s p f) where
  pmode := rfl
  ports := rfl
  xport p' := by
    rw [xport, part_updPart]
    split
    · next e => rw [e]; exact same _
    · rfl
  regs _ _ _ _ := rfl

theorem keepsPorts_updProof (p : Nat) (f : Proof → Proof) : KeepsPorts s (updProof s p f) := keepsPorts_updPart s fun _ => rfl
theorem keepsPorts_updSnap (p : Nat) (f : Snap → Snap) : KeepsPorts s (updSnap s p f) := keepsPorts_updPart s fun _ => rfl
theorem keepsPorts_updStep (p n : Nat) (f : StepRec → StepRec) : KeepsPorts s (updStep s p n f) := keepsPorts_updProof s p _
theorem keepsPorts_setEc (p c v : Nat) : KeepsPorts s (setEc s p c v) := keepsPorts_updPart s fun _ => rfl
theorem keepsPorts_addEc (p c v : Nat) : KeepsPorts s (addEc s p c v) := keepsPorts_setEc s p c _
theorem keepsPorts_updMs (f : MemSys → MemSys) : KeepsPorts s (updMs s f) := ⟨rfl, rfl, fun _ => rfl, fun _ _ _ _ => rfl⟩
theorem keepsPorts_updHp (h : Nat) (f : HostPort → HostPort) : KeepsPorts s (updHp s h f) :=
  ⟨rfl, rfl, fun _ => rfl, fun _ _ _ _ => rfl⟩
theorem keepsPorts_updQueue (h q : Nat) (f : Queue → Queue) : KeepsPorts s (updQueue s h q f) := keepsPorts_updHp s h _
theorem keepsPorts_updUnits (c : Nat) (f : Units → Units) : KeepsPorts s (updUnits s c f) :=
  ⟨rfl, rfl, fun _ => rfl, fun _ _ _ _ => rfl⟩
theorem keepsPorts_raise (p reason : Nat) (step : Option Nat) (unit : Nat) : KeepsPorts s (raise s p reason step unit) :=
  ⟨rfl, rfl, fun _ => rfl, fun _ _ _ _ => rfl⟩

/-! ### Writes -/

theorem keepsPorts_hwritePz (h a : Nat) (b : Blob) : KeepsPorts s (hwritePz s h a b) := by
  unfold hwritePz
  split
  · refine KeepsPorts.trans (t := { s with hostMem := mset s.hostMem [] h (wrBytes (mget s.hostMem [] h) a b.data) })
      ⟨rfl, rfl, fun _ => rfl, fun _ _ _ _ => rfl⟩ ?_
    exact .foldl (fun s _ => .of_reports (reports_emit s _)) _ _
  · exact .refl s

theorem keepsPorts_cowHook (ppn : Nat) : KeepsPorts s (cowHook s ppn) := by
  refine .foldl (fun s p => ?_) _ _
  dsimp only
  exact .of_ite (keepsPorts_updSnap s p _) (.refl s)

theorem keepsPorts_pwrite (pa : Nat) (b : Blob) : KeepsPorts s (pwrite s pa b) := by
  unfold pwrite
  exact (KeepsPorts.foldl keepsPorts_cowHook _ s).trans (keepsPorts_updMs _ _)

theorem keepsPorts_journalPage (p vpn n : Nat) : KeepsPorts s (journalPage s p vpn n) := by
  unfold journalPage
  dsimp only
  exact .of_ite (.of_ite (.refl s) (.of_ite (keepsPorts_updPart s fun _ => rfl) (keepsPorts_raise s _ _ _ _))) (.refl s)

theorem keepsPorts_vwriteFor (p va : Nat) (b : Blob) (step : Option Nat) : KeepsPorts s (vwriteFor s p va b step) := by
  unfold vwriteFor
  refine .of_ite (keepsPorts_hwritePz s _ _ _) ?_
  cases step with
  | none => exact .foldl (fun s x => keepsPorts_pwrite s _ _) _ _
  | some n =>
    exact (KeepsPorts.foldl (fun s v => keepsPorts_journalPage s p v n) _ s).trans
      (.foldl (fun s x => keepsPorts_pwrite s _ _) _ _)

theorem keepsPorts_vwrite (p va : Nat) (b : Blob) : KeepsPorts s (vwrite s p va b) := keepsPorts_vwriteFor s p va b _

/-! ### Completions and the records of steps -/

theorem keepsPorts_queueIrq (h q : Nat) (irq : Bool) : KeepsPorts s (queueIrq s h q irq) := by
  unfold queueIrq
  dsimp only
  exact .of_ite ((keepsPorts_updQueue s h q _).trans (.of_reports (reports_sendMsix _ _ _))) (.refl s)

theorem keepsPorts_writeEntry (h q didx qgen : Nat) (d : Desc) (step : Option Nat) (status result : Nat) :
    KeepsPorts s (writeEntry s h q didx qgen d step status result) := by
  unfold writeEntry
  dsimp only
  exact .of_ite (((keepsPorts_hwritePz s _ _ _).trans (keepsPorts_updQueue _ h q _)).trans (keepsPorts_queueIrq _ h q _)) (.refl s)

theorem keepsPorts_freezeQueue (h q addr : Nat) : KeepsPorts s (freezeQueue s h q addr) := by
  unfold freezeQueue
  exact (keepsPorts_updQueue s h q _).trans
    (.of_reports (((reports_record _ _ _ _ _ _).trans (reports_stickyPart _ _ _)).trans (reports_asyncCause _ _ _)))

theorem keepsPorts_completeDesc (h : Nat) (f : Flight) (st : St) (result addr : Nat) (own : Bool) (input : Option Blob) :
    KeepsPorts s (completeDesc s h f st result own addr input) := by
  unfold completeDesc
  split
  · exact .refl s
  · extract_lets p counted logged entered
    have k1 : KeepsPorts s counted := .of_ite (keepsPorts_addEc s _ _ _) (.refl s)
    have k2 : KeepsPorts counted logged := by
      subst logged
      split
      · exact .of_ite (keepsPorts_updProof _ _ _) (.refl _)
      · exact .refl _
    have k3 : KeepsPorts logged entered := .of_ite (.refl _) (keepsPorts_writeEntry _ _ _ _ _ _ _ _ _)
    exact ((k1.trans k2).trans k3).trans (.of_ite (keepsPorts_freezeQueue _ _ _ _) (.refl _))

theorem keepsPorts_finishFlight (h : Nat) (f : Flight) (st : St) (result : Nat) :
    KeepsPorts s (finishFlight s h f st result) :=
  (keepsPorts_updHp s h _).trans (keepsPorts_completeDesc _ _ _ _ _ _ _ _)

theorem keepsPorts_writeStepRec (p n : Nat) : KeepsPorts s (writeStepRec s p n) := by
  unfold writeStepRec
  split
  · exact .refl s
  · dsimp only
    refine .of_ite (.of_reports (reports_record s _ _ _ _ _)) (.of_ite (.refl s) ?_)
    exact ((keepsPorts_updStep s p n _).trans (keepsPorts_vwrite _ _ _ _)).trans (.of_reports (reports_sendMsix _ _ _))

theorem keepsPorts_clearOrdinals (p : Nat) : KeepsPorts s (clearOrdinals s p) :=
  .foldl (fun s _ => keepsPorts_updUnits s _ _) _ s

theorem keepsPorts_setStep (p n st : Nat) (f : StepRec → StepRec) : KeepsPorts s (setStep s p n st f) :=
  (keepsPorts_updStep s p n _).trans (keepsPorts_writeStepRec _ p n)

end

end Sys2Proof.Machine
end

section
/-! Steps open and compute, snapshots are captured, and pages are copied (R244, R245, R247; 12 R370, R371). -/

namespace Sys2Proof.Machine

/-! ### STEP_OPEN -/

/-- The state in which a step has a record OPEN that is written, before its STEP_BEGIN completes. -/
def stepOpened (s : State) (p n va : Nat) (replay : Bool) : State :=
  writeStepRec (clearOrdinals (updProof s p (fun x => { x with
    steps := x.steps.filter (fun r => r.step != n) ++ [openRec x n va replay]
    openStep := some n, kNow := x.sampleK, mbb := none, ending := false, phase := 0 })) p) p n

theorem keepsPorts_stepOpened (s : State) (p n va : Nat) (replay : Bool) : KeepsPorts s (stepOpened s p n va replay) :=
  ((keepsPorts_updProof s p _).trans (keepsPorts_clearOrdinals _ p)).trans (keepsPorts_writeStepRec _ p n)

section
variable {s : State} {p : Nat} {f : Flight} {n va : Nat}

theorem openStep_none (h : flightOf s p waitsToOpen = none) : openStep s p = s := by rw [openStep, h]

section
variable (found : flightOf s p waitsToOpen = some f) (waits : f.waits = .stepBegin n va)
include found waits

theorem openStep_opens (closed : (proof s p).openStep = none) (proven : n ≤ (proof s p).lastProven + (proof s p).w + 1)
    (settled : ∀ l ∈ upto (p * lcores s) (lcores s), copyDue s l = false) :
    openStep s p = finishFlight (stepOpened s p n va f.replay) (partHp s p) f .done 0 := by
  have ready : (proof s p).openStep.isNone ∧ n ≤ (proof s p).lastProven + (proof s p).w + 1 ∧
      (upto (p * lcores s) (lcores s)).all (fun l => !copyDue s l) = true :=
    ⟨by rw [closed]; rfl, proven, List.all_eq_true.2 fun l hl => by rw [settled l hl]; rfl⟩
  rw [openStep, found, ← (keepsPorts_stepOpened s p n va f.replay).partHp p]
  simp only [waits]
  exact if_pos ready

theorem openStep_waits (blocked : (proof s p).openStep ≠ none ∨ (proof s p).lastProven + (proof s p).w + 1 < n ∨
    ∃ l ∈ upto (p * lcores s) (lcores s), copyDue s l = true) : openStep s p = s := by
  have unready : ¬ ((proof s p).openStep.isNone ∧ n ≤ (proof s p).lastProven + (proof s p).w + 1 ∧
      (upto (p * lcores s) (lcores s)).all (fun l => !copyDue s l) = true) := by
    rintro ⟨closed, proven, settled⟩
    rcases blocked with open_ | ahead | ⟨l, hl, due⟩
    · exact open_ (Option.isNone_iff_eq_none.1 closed)
    · omega
    · simpa [due] using List.all_eq_true.1 settled l hl
  rw [openStep, found]
  simp only [waits]
  exact if_neg unready

end

/-! ### STEP_COMPUTED -/

theorem computeStep_none (h : flightOf s p waitsToCompute = none) : computeStep s p = s := by rw [computeStep, h]

/-- The state in which a step has become COMPUTED and its journal segments SEALED. -/
def stepSealed (s : State) (p n : Nat) : State :=
  updPart (setStep (updProof s p (fun x => { x with
    openStep := none, ending := false, lastComputed := max x.lastComputed n })) p n 2 id) p (fun y => { y with
    journal := y.journal.map (fun g => if g.step = n then { g with state := 2 } else g) })

theorem keepsPorts_stepSealed (s : State) (p n : Nat) : KeepsPorts s (stepSealed s p n) :=
  ((keepsPorts_updProof s p _).trans (keepsPorts_setStep _ p n 2 id)).trans (keepsPorts_updPart _ fun _ => rfl)

/-- Where no port holds a retraining back, none starts. -/
theorem askDeferred_none {t : State} (keeps : KeepsPorts s t) (undeferred : ∀ j ∈ partPorts s p, (port s j).deferred = false) :
    (partPorts t p).foldl (fun s j => if (port s j).deferred then askRetrain s j 1 else s) t = t := by
  refine foldl_eq_self_of_mem fun j hj => ?_
  rw [keeps.partPorts] at hj
  rw [keeps.port, undeferred j hj, if_neg Bool.false_ne_true]

section
variable (found : flightOf s p waitsToCompute = some f) (waits : f.waits = .stepEnd n)
include found waits

theorem computeStep_waits (busy : ∃ g ∈ (hport s (partHp s p)).flights, g ≠ f ∧ g.step = some n) : computeStep s p = s := by
  obtain ⟨g, hg, other, of_step⟩ := busy
  have unready : ((hport s (partHp s p)).flights.all (fun g => g == f || g.step != some n) && (snap s p).held.isNone) ≠ true := by
    rw [Ne, Bool.and_eq_true, List.all_eq_true]
    rintro ⟨all_done, -⟩
    simpa [other, of_step] using all_done g hg
  rw [computeStep, found]
  simp only [waits]
  exact if_neg unready

theorem computeStep_computes (all_done : ∀ g ∈ (hport s (partHp s p)).flights, g = f ∨ g.step ≠ some n)
    (unheld : (snap s p).held = none) (alone : hasFacing s p = false)
    (undeferred : ∀ j ∈ partPorts s p, (port s j).deferred = false) :
    computeStep s p = finishFlight (stepSealed s p n) (partHp s p) f .done 0 := by
  have ready : ((hport s (partHp s p)).flights.all (fun g => g == f || g.step != some n) && (snap s p).held.isNone) = true := by
    rw [Bool.and_eq_true, unheld, List.all_eq_true]
    exact ⟨fun g hg => by simpa using all_done g hg, rfl⟩
  have keeps : KeepsPorts s (finishFlight (stepSealed s p n) (partHp s p) f .done 0) :=
    (keepsPorts_stepSealed s p n).trans (keepsPorts_finishFlight _ _ _ _ _)
  have no_digest : ¬ hasFacing (finishFlight (stepSealed s p n) (partHp s p) f .done 0) p = true := by
    rw [keeps.hasFacing, alone]
    exact Bool.false_ne_true
  rw [computeStep, found]
  simp only [waits]
  refine (if_pos ready).trans ?_
  exact (congrArg (fun t => (partPorts t p).foldl (fun s j => if (port s j).deferred then askRetrain s j 1 else s) t)
    (if_neg no_digest)).trans (askDeferred_none keeps undeferred)

end

/-! ### CAPTURE_POINT -/

theorem capturePoint_none (h : (snap s p).held = none) : capturePoint s p = s := by rw [capturePoint, h]

theorem capturePoint_captures {cow q dr x : Bool} {k : Nat} (held : (snap s p).held = some (cow, q, dr, k, x))
    (found : flightOf s p (fun g => g.waits == .snapshot) = some f)
    (all_done : ∀ g ∈ (hport s (partHp s p)).flights, g.waits = .snapshot ∨ g.step = none ∨ g.step ≠ (proof s p).openStep) {c : State}
    (hc : capture s p cow false dr k = c) :
    capturePoint s p = tryCommit (finishFlight c (partHp s p) f
      (if slotPoisoned (slotOf c p (targetSlot s p)) then .poisoned else .done) (targetSlot s p)) p := by
  have ready : (hport s (partHp s p)).flights.all (fun g =>
      g.waits == .snapshot || g.step.isNone || g.step != (proof s p).openStep) = true :=
    List.all_eq_true.2 fun g hg => by simpa [or_assoc] using all_done g hg
  have found' : flightOf c p (fun g => g.waits == .snapshot) = some f := by
    subst hc
    exact found
  rw [capturePoint, held]
  simp only [ready, hc, found']
  rfl

end

/-! ### COW_COPY -/

/-- A captured slot of copy-on-write with a page that has not been copied. -/
def HasUncopied (x : Slot) : Prop := x.state = 2 ∧ x.cow = true ∧ ∃ g ∈ x.pages, g.copied = false

theorem hasUncopied_iff (x : Slot) : (x.state == 2 && x.cow && x.pages.any (fun g => !g.copied)) = true ↔ HasUncopied x := by
  simp [HasUncopied, and_assoc]

section
variable {s : State} {p : Nat}

theorem cowCopy_first (h : HasUncopied (slotOf s p 0)) :
    cowCopy s p = tryCommit (updSlotN s p 0 (fun x => { x with pages := copyFirst s.ms x.pages })) p := by
  have a := (hasUncopied_iff (snap s p).a).2 h
  simp only [cowCopy, a, if_true, slotOf]

theorem cowCopy_not_first (h : ¬ HasUncopied (slotOf s p 0)) :
    cowCopy s p = if (slotOf s p 1).state == 2 && (slotOf s p 1).cow && (slotOf s p 1).pages.any (fun g => !g.copied) then
      tryCommit (updSlotN s p 1 (fun x => { x with pages := copyFirst s.ms x.pages })) p else s := by
  have a : ((snap s p).a.state == 2 && (snap s p).a.cow && (snap s p).a.pages.any (fun g => !g.copied)) = false :=
    Bool.eq_false_iff.2 fun e => h ((hasUncopied_iff _).1 e)
  simp only [cowCopy, a, Bool.false_eq_true, if_false]

theorem cowCopy_second (h : ¬ HasUncopied (slotOf s p 0)) (h1 : HasUncopied (slotOf s p 1)) :
    cowCopy s p = tryCommit (updSlotN s p 1 (fun x => { x with pages := copyFirst s.ms x.pages })) p := by
  rw [cowCopy_not_first h, if_pos ((hasUncopied_iff _).2 h1)]

theorem cowCopy_idle (h : ¬ HasUncopied (slotOf s p 0)) (h1 : ¬ HasUncopied (slotOf s p 1)) : cowCopy s p = s := by
  rw [cowCopy_not_first h, if_neg (mt (hasUncopied_iff _).1 h1)]

end

theorem copyPage_copied (m : MemSys) (g : SnapPage) : (copyPage m g).copied = true := by
  unfold copyPage
  split
  · next copied => exact copied
  · rfl

theorem copyFirst_uncopied (m : MemSys) (l : List SnapPage) :
    ((copyFirst m l).filter (fun g => !g.copied)).length = (l.filter (fun g => !g.copied)).length - 1 := by
  induction l with
  | nil => rfl
  | cons g l ih =>
    cases copied : g.copied with
    | true => simp [copyFirst, copied, ih]
    | false => simp [copyFirst, copied, copyPage_copied]

/-- Settles O24. -/
theorem stepsOpenAndCompute : Obligations.StepsOpenAndCompute := by
  unfold Obligations.StepsOpenAndCompute
  refine ⟨fun s p hawake => ?steps, fun s p hawake => ?cow⟩
  case steps =>
    have ends {u v : State} (e : u = v) : done s u = .next (finish s v) := by rw [done_awake hawake, e]
    refine ⟨fun f n va found waits => ⟨fun closed proven settled => ?_, fun blocked => ?_⟩,
      fun f n found waits => ⟨fun all_done unheld alone undeferred => ?_, fun busy => ?_⟩, fun none_ => ?_, fun none_ => ?_,
      fun none_ => ?_, fun f cow q dr k x held found all_done => ?_⟩
    · exact ⟨_, _, ends (openStep_opens found waits closed proven settled), rfl, rfl⟩
    · exact ends (openStep_waits found waits blocked)
    · exact ⟨stepSealed s p n, ends (computeStep_computes found waits all_done unheld alone undeferred), rfl,
        fun j => by rw [(keepsPorts_stepSealed s p n).port]⟩
    · exact ends (computeStep_waits found waits busy)
    · exact ends (openStep_none none_)
    · exact ends (computeStep_none none_)
    · exact ends (capturePoint_none none_)
    · exact ends (capturePoint_captures held found all_done rfl)
  case cow =>
    intro todo copied
    have ends {u v : State} (e : u = v) : done s u = .next (finish s v) := by rw [done_awake hawake, e]
    exact ⟨fun first => ends (cowCopy_first first), fun other second => ends (cowCopy_second other second),
      fun other idle => ends (cowCopy_idle other idle), copyFirst_uncopied s.ms⟩

end Sys2Proof.Machine
end

section
/-! Doorbells, queue control and interrupt coalescing (R225, R229 to R231, R234). -/

namespace Sys2Proof.Machine

/-- A command of an awake device whose own effect is `v`. -/
theorem done_next {s u v : State} (hawake : awake s = true) (e : u = v) : done s u = .next (finish s v) := by
  rw [done_awake hawake, e]

section
variable {s : State} {h q : Nat}

theorem hostWrite_ready {off v : Nat} {f : State → State} (can : hostCan s h = true) (ready : isReady s = true) :
    hostWrite s h off v f = f s := by rw [hostWrite, if_pos can, if_pos ready]

section
variable {v : Nat} (can : hostCan s h = true) (ready : isReady s = true)
include can ready

theorem ringDoorbell_taken (gen : natFld v 16 8 = (queue s h q).gen) (inside : natFld v 0 16 < (queue s h q).ringsz)
    (open_ : (queue s h q).state = 1 ∨ (queue s h q).state = 2) :
    ringDoorbell s h q v = updQueue s h q (fun x => { x with tail := natFld v 0 16, doorbell := v % 2 ^ 24 }) :=
  (hostWrite_ready can ready).trans (if_pos ⟨gen, inside, open_⟩)

theorem ringDoorbell_dropped (bad : natFld v 16 8 ≠ (queue s h q).gen ∨ (queue s h q).ringsz ≤ natFld v 0 16 ∨
    (queue s h q).state = 0 ∨ (queue s h q).state = 3) :
    ringDoorbell s h q v = record s ((hpPart s h).getD 7) (ucHost h) operReg 0x0004 (leBytes 1 q ++ leBytes 4 v) :=
  (hostWrite_ready can ready).trans (if_neg fun ⟨gen, inside, open_⟩ => by
    rcases bad with bad | bad | bad | bad
    · exact bad gen
    · exact Nat.not_lt.2 bad inside
    · omega
    · omega)

end

/-- A queue that QCTRL leaves alone: FROZEN, or of a STRUCK partition (log 20). -/
def Shut (s : State) (h q : Nat) : Prop := (queue s h q).state = 3 ∨ hostStruck s h = true

/-- The registers of a queue that can be enabled (R229). -/
def QueueLegal (x : Queue) : Prop := ringOk x.ringsz = true ∧ x.sqBase ≠ 0 ∧ x.cqBase ≠ 0

theorem queueLegal_iff (x : Queue) : (ringOk x.ringsz && x.sqBase != 0 && x.cqBase != 0) = true ↔ QueueLegal x := by
  simp [QueueLegal, and_assoc]

theorem enableQueue_shut (shut : Shut s h q) : enableQueue s h q = writeIgnored s h (qctrlOff q) 1 0 := if_pos shut

theorem disableQueue_shut (shut : Shut s h q) : disableQueue s h q = writeIgnored s h (qctrlOff q) 0 0 := if_pos shut

theorem disableQueue_open (open_ : ¬ Shut s h q) :
    disableQueue s h q = updQueue s h q (fun x => { x with en := false, state := 0, stopwhy := 0 }) := if_neg open_

section
variable (open_ : ¬ Shut s h q)
include open_

theorem enableQueue_legal (off : (queue s h q).state = 0) (legal : QueueLegal (queue s h q)) :
    enableQueue s h q = updQueue s h q (fun x => { x with en := true, state := 1, stopwhy := 0, estatus := 0 }) :=
  ((if_neg open_).trans (if_pos off)).trans (if_pos ((queueLegal_iff _).2 legal))

theorem enableQueue_illegal (off : (queue s h q).state = 0) (illegal : ¬ QueueLegal (queue s h q)) :
    enableQueue s h q = updQueue s h q (fun x => { x with en := true, estatus := 0x20 }) :=
  ((if_neg open_).trans (if_pos off)).trans (if_neg (mt (queueLegal_iff _).1 illegal))

theorem enableQueue_again (on : (queue s h q).state ≠ 0) :
    enableQueue s h q = updQueue s h q (fun x => { x with en := true, state := 1, stopwhy := 0 }) :=
  (if_neg open_).trans (if_neg on)

end

theorem hostCan_iff : hostCan s h = true ↔ (hpPart s h).isSome = true ∧ hostUp s h = true ∧ (hport s h).frozen = false := by
  simp [hostCan, and_assoc]

theorem fetchFails_stops (can : hostCan s h = true) (enabled : (queue s h q).state = 1)
    (some_ : (queue s h q).sqHead ≠ (queue s h q).tail) :
    fetchFails s h q = record (updQueue s h q (fun x => { x with state := 2, stopwhy := 4 })) ((hpPart s h).getD 7) (ucHost h) 0
      0x0003 (leBytes 4 ((queue s h q).sqBase + 64 * (queue s h q).sqHead) ++ leBytes 1 64) := by
  obtain ⟨-, up, thawed⟩ := hostCan_iff.1 can
  exact if_pos ⟨enabled, up, by rw [thawed]; rfl, some_⟩

theorem coalesce_sends (ien : (queue s h q).ien = true) (timed : (queue s h q).coalTime ≠ 0)
    (uncovered : (queue s h q).uncovered ≠ 0) :
    coalesce s h q = sendMsix (updQueue s h q (fun x => { x with uncovered := 0 })) h (queue s h q).iv :=
  if_pos (by simp [ien, timed, uncovered])

theorem coalesce_idle (idle : (queue s h q).ien = false ∨ (queue s h q).coalTime = 0 ∨ (queue s h q).uncovered = 0) :
    coalesce s h q = s :=
  if_neg (by rcases idle with e | e | e <;> simp [e])

end

/-- Settles O25. -/
theorem queueControl : Obligations.QueueControl := by
  unfold Obligations.QueueControl
  intro s h q v hawake can ready x tail legal put shut
  have write {off w : Nat} {f : State → State} : hostWrite s h off w f = f s := hostWrite_ready can ready
  refine ⟨fun gen inside open_ => ?_, fun bad => ?_, fun open_ off ok => ?_, fun open_ off bad => ?_, fun open_ on => ?_,
    fun open_ => ?_, fun closed => ⟨?_, ?_⟩, ?_, fun enabled some_ => ?_, fun ien timed uncovered => ?_, fun idle => ?_⟩
  · exact done_next hawake (ringDoorbell_taken can ready gen inside open_)
  · exact done_next hawake (ringDoorbell_dropped can ready bad)
  · exact done_next hawake (write.trans (enableQueue_legal open_ off ok))
  · exact done_next hawake (write.trans (enableQueue_illegal open_ off bad))
  · exact done_next hawake (write.trans (enableQueue_again open_ on))
  · exact done_next hawake (write.trans (disableQueue_open open_))
  · exact done_next hawake (write.trans (enableQueue_shut closed))
  · exact done_next hawake (write.trans (disableQueue_shut closed))
  · exact done_next hawake write
  · exact done_next hawake (fetchFails_stops can enabled some_)
  · exact done_next hawake (coalesce_sends ien timed uncovered)
  · exact done_next hawake (coalesce_idle idle)

end Sys2Proof.Machine
end

section
/-! The host port's link, resets, streams and BAR4 (R218, R220 to R223, R226, R227, R259, R260; 15 R465; 17 R483). -/

namespace Sys2Proof.Machine

/-! ### Tables: the entries of one key, and the first `n` entries changed -/

section
variable {α : Type}

/-- The entries of a table for one key. -/
def keyed (m : Map α) (k : Nat) : Map α := m.filter (fun c => c.1 == k)

theorem mget_keyed (m : Map α) (d : α) (k : Nat) : mget (keyed m k) d k = mget m d k := by
  simpa [keyed] using mget_filter m d k (fun i => i == k)

theorem keyed_mbelow (m : Map α) {j k : Nat} : keyed (mbelow m j) k = if k < j then keyed m k else [] := by
  rw [keyed, mbelow, List.filter_filter]
  split
  · exact List.filter_congr fun c _ => by rw [Bool.and_eq_left_iff_imp]; simp only [beq_iff_eq, decide_eq_true_eq]; omega
  · exact List.filter_eq_nil_iff.2 fun c _ => by simp only [Bool.and_eq_true, beq_iff_eq, decide_eq_true_eq]; omega

theorem keyed_mfrom (m : Map α) {j k : Nat} : keyed (mfrom m j) k = if j ≤ k then keyed m k else [] := by
  rw [keyed, mfrom, List.filter_filter]
  split
  · exact List.filter_congr fun c _ => by rw [Bool.and_eq_left_iff_imp]; simp only [beq_iff_eq, decide_eq_true_eq]; omega
  · exact List.filter_eq_nil_iff.2 fun c _ => by simp only [Bool.and_eq_true, beq_iff_eq, decide_eq_true_eq]; omega

theorem keyed_append (m n : Map α) (k : Nat) : keyed (m ++ n) k = keyed m k ++ keyed n k := List.filter_append ..

variable [DecidableEq α]

/-- A table holds at most one entry for a key, and none where it reads as the default. -/
def Single (m : Map α) (d : α) (k : Nat) : Prop := keyed m k = if mget m d k = d then [] else [(k, mget m d k)]

theorem keyed_mset (m : Map α) (d : α) (j k : Nat) (v : α) :
    keyed (mset m d j v) k = if j = k then (if v = d then [] else [(k, v)]) else keyed m k := by
  rw [mset, keyed_append, keyed_append, keyed_mbelow, keyed_mfrom]
  have entry : keyed (if v = d then ([] : Map α) else [(j, v)]) k = if j = k then (if v = d then [] else [(k, v)]) else [] := by
    by_cases e : j = k <;> by_cases e' : v = d <;> simp [keyed, e, e']
  rw [entry]
  rcases Nat.lt_trichotomy k j with lt | rfl | gt
  · simp [lt, show ¬ j + 1 ≤ k by omega, show j ≠ k by omega]
  · simp
  · simp [gt, show ¬ k < j by omega, show j ≠ k by omega]

theorem single_mset_same (m : Map α) (d : α) (k : Nat) (v : α) : Single (mset m d k v) d k := by
  rw [Single, keyed_mset, if_pos rfl, mget_mset_same]

theorem Single.mset_ne {m : Map α} {d : α} {j k : Nat} {v : α} (single : Single m d k) (away : j ≠ k) :
    Single (mset m d j v) d k := by
  rw [Single, keyed_mset, if_neg away, mget_mset_ne _ _ _ _ _ away.symm]
  exact single

/-- A change of every entry that keeps the default, read where the table holds at most one entry. -/
theorem mget_mmapIf_all {m : Map α} {d : α} {k : Nat} {f : α → α} (single : Single m d k) (keeps : f d = d) :
    mget (mmapIf m d (fun _ => true) f) d k = f (mget m d k) := by
  have cut : keyed (mmapIf m d (fun _ => true) f) k = mmapIf (keyed m k) d (fun _ => true) f := by
    simp only [keyed, mmapIf, if_true, List.filter_filter, List.filter_map, Bool.and_comm]
    congr 1
  rw [← mget_keyed, cut, single]
  by_cases e : mget m d k = d
  · simp [e, keeps, mmapIf, mget]
  · rw [if_neg e]
    by_cases e' : f (mget m d k) = d <;> simp [mmapIf, e', mget]

theorem mget_foldl_mset (m : Map α) (d : α) (g : α → α) (n k : Nat) :
    mget ((List.range n).foldl (fun m i => mset m d i (g (mget m d i))) m) d k =
      if k < n then g (mget m d k) else mget m d k := by
  induction n with
  | zero => simp
  | succ n ih =>
    rw [List.range_succ, List.foldl_append, List.foldl_cons, List.foldl_nil, mget_mset]
    by_cases e : k = n
    · subst e
      rw [if_pos rfl, if_pos (Nat.lt_succ_self k), ih, if_neg (Nat.lt_irrefl k)]
    · rw [if_neg e, ih]
      have : k < n ↔ k < n + 1 := by omega
      simp only [this]

theorem single_foldl_mset (m : Map α) (d : α) (g : α → α) {n k : Nat} (inside : k < n) :
    Single ((List.range n).foldl (fun m i => mset m d i (g (mget m d i))) m) d k := by
  induction n with
  | zero => omega
  | succ n ih =>
    rw [List.range_succ, List.foldl_append, List.foldl_cons, List.foldl_nil]
    by_cases e : n = k
    · subst e
      exact single_mset_same _ _ _ _
    · exact (ih (by omega)).mset_ne e

end

/-! ### The queues of a host port -/

theorem hport_foldl_updQueue (s : State) (h n : Nat) (g : Queue → Queue) :
    hport ((List.range n).foldl (fun s q => updQueue s h q g) s) h = { hport s h with
      queues := (List.range n).foldl (fun m i => mset m {} i (g (mget m {} i))) (hport s h).queues } := by
  induction n with
  | zero => rfl
  | succ n ih =>
    rw [List.range_succ, List.foldl_append, List.foldl_cons, List.foldl_nil, hport_updQueue, if_pos rfl, queue, ih,
      List.foldl_append]
    rfl

/-- A queue that a halt stops: all but a FROZEN one. -/
def stopped (why : Nat) (x : Queue) : Queue := if x.state = 3 then x else { x with state := 2, stopwhy := why }

theorem queue_stopQueues (s : State) (h why q : Nat) (small : q < 64) :
    queue (stopQueues s h why) h q = stopped why (queue s h q) := by
  have cut : (hport (stopQueues s h why) h).queues =
      (List.range 64).foldl (fun m i => mset m {} i (stopped why (mget m {} i))) (hport s h).queues := by
    simp only [stopQueues, hport_updHp_same, stopped]
  rw [queue, cut, mget_foldl_mset, if_pos small]
  rfl

/-- A queue after a queue reset (R234). -/
def queueReset (x : Queue) : Queue :=
  { x with gen := (x.gen + 1) % 256, sqHead := 0, tail := 0, cqNext := 0, phase := true, state := if x.state = 3 then 3 else 0
           stopwhy := 0, en := false, uncovered := 0 }

/-- A queue whose registers are at their reset values (17 R483). -/
def queueCleared (x : Queue) : Queue :=
  { x with sqBase := 0, cqBase := 0, ringsz := 0, iv := 0, ien := false, coalCnt := 0, coalTime := 0, estatus := 0, doorbell := 0 }

theorem resetPortRegs_hport (s : State) (h : Nat) : hport (resetPortRegs s h) h = { hport s h with
    cfg := {}, armed := false, indAddr := 0, autoInc := false, indErr := 0, msix := [], asyncCause := 0, asyncMask := 63
    rdSeq := 0, rdRecord := [], rdStat := 0, latch := 0, latchOff := 0
    queues := mmapIf (hport s h).queues {} (fun _ => true) queueCleared } := by
  simp only [resetPortRegs, List.foldl_cons, List.foldl_nil, setReg_hport, hport_updHp_same]
  rfl

section
variable (s : State) (us : List Nat)

@[simp] theorem dumpMeetsReset_hport (h : Nat) : hport (dumpMeetsReset s us) h = hport s h := by
  unfold dumpMeetsReset
  split <;> rfl

/-- The host port after every queue is reset and its registers are at their reset values. -/
theorem hport_portReset (h : Nat) :
    hport (resetPortRegs ((List.range 64).foldl (fun s q => resetQueue s h q) (dumpMeetsReset s us)) h) h = { hport s h with
      cfg := {}, armed := false, indAddr := 0, autoInc := false, indErr := 0, msix := [], asyncCause := 0, asyncMask := 63
      rdSeq := 0, rdRecord := [], rdStat := 0, latch := 0, latchOff := 0
      queues := mmapIf ((List.range 64).foldl (fun m i => mset m {} i (queueReset (mget m {} i))) (hport s h).queues) {}
        (fun _ => true) queueCleared } := by
  have reset : (fun s q => resetQueue s h q) = (fun s q => updQueue s h q queueReset) := rfl
  rw [resetPortRegs_hport, reset, hport_foldl_updQueue, dumpMeetsReset_hport]

theorem queue_portReset (h : Nat) {q : Nat} (small : q < 64) :
    queue (resetPortRegs ((List.range 64).foldl (fun s q => resetQueue s h q) (dumpMeetsReset s us)) h) h q =
      queueCleared (queueReset (queue s h q)) := by
  rw [queue, hport_portReset, mget_mmapIf_all (single_foldl_mset _ _ _ small) rfl, mget_foldl_mset, if_pos small]
  rfl

end

/-! ### Events of the host port -/

section
variable {s : State} {h : Nat}

theorem linkDown_up (up : (hport s h).linkUp = true) : linkDown s h = stopQueues (updHp s h (fun x => { x with
    linkUp := false, flights := x.flights.map (fun f => { f with lost := true }) })) h 2 := if_pos up

theorem linkDown_down (down : (hport s h).linkUp = false) : linkDown s h = s := if_neg (by simp [down])

theorem resetHostPort_some {p : Nat} (hp : hpPart s h = some p) (cause : Nat) : resetHostPort s h cause =
    recordReset (resetPortRegs ((List.range 64).foldl (fun s q => resetQueue s h q) (dumpMeetsReset s [ucHost h])) h) p
      (ucHost h) 6 cause := by
  rw [resetHostPort, hp]

theorem perst_high (high : s.pins.resetN = true) {p : Nat} (hp : hpPart s h = some p) :
    perst s h = resetHostPort (linkDown s h) h 4 := if_pos (by rw [high, hp]; rfl)

theorem hostTrained_up {rate width p : Nat} (hp : hpPart s h = some p) (on : s.power.ioOff.contains (h / 2) = false)
    (booted : s.pins.stage ≠ .recovery) (speush : speushUp s = true) : hostTrained s h rate width =
      if rate < 128 ∨ width < 16 / nparts s then
        stickyHost (updHp s h (fun x => { x with linkUp := true, noFlit := false })) h 0
      else updHp s h (fun x => { x with linkUp := true, noFlit := false }) := by
  have can : ((hpPart s h).isSome && !s.power.ioOff.contains (h / 2) && s.pins.stage != .recovery && speushUp s) = true := by
    simp only [hp, on, speush, bne_iff_ne.2 booted]
    rfl
  exact if_pos can

/-! ### DOE requests -/

section
variable {p : Nat} {req : Bytes} (hp : hpPart s h = some p) (up : hostUp s h = true)
include hp up

theorem doeRequest_discovery (ty : doeType req = some 0) : doeRequest s h req = emit s (.doe h (doeDiscovery req)) := by
  simp [doeRequest, hp, up, ty]

theorem doeRequest_spdm (ty : doeType req = some 1) : ∃ l, l ≤ 4 ∧ doeRequest s h req =
    emit (updHp { s with freeCtr := s.freeCtr + 1 } h (fun x => { x with sessions := l })) (.doe h (protocolAnswer s.freeCtr)) := by
  refine ⟨min 4 ((hport s h).sessions + (Config.protocolByte (4096 * s.freeCtr + 4094)).toNat % 2), Nat.min_le_left .., ?_⟩
  simp only [doeRequest, hp, up, ty, fresh]
  rfl

theorem doeRequest_secured (ty : doeType req = some 2) (session : (hport s h).sessions ≠ 0) : doeRequest s h req =
    emit (updHp { s with freeCtr := s.freeCtr + 1 } h (fun x => securedMessage x s.freeCtr)) (.doe h (protocolAnswer s.freeCtr)) := by
  simp [doeRequest, hp, up, ty, fresh, session]

theorem doeRequest_sessionless (ty : doeType req = some 2) (session : (hport s h).sessions = 0) : doeRequest s h req = s := by
  simp [doeRequest, hp, up, ty, session]

omit hp up in
theorem doeRequest_unknown (ty : doeType req = none) : doeRequest s h req = s := by simp [doeRequest, ty]

end

/-! ### BAR4 -/

/-- What a BAR4 access that is refused answers: a read all ones, a write nothing. -/
def bar4Deny (h : Nat) (write : Bool) (n : Nat) (s : State) : State := if write then s else allOnes s h n

section
variable {p off len n va : Nat} {write ep : Bool} {data : Bytes} (hp : hpPart s h = some p) (up : hostUp s h = true)
  (hn : (if write then data.length else len) = n) (hva : (regF s (.hp h) 0x001000C 0 28 * pageSize + off) % 2 ^ 47 = va)
  (some_ : n ≠ 0) (inside : off + n ≤ 2 ^ (hport s h).cfg.bar4Log)
include hp up hn hva some_ inside

theorem bar4_eq : bar4 s h off write len data ep =
    if (hport s h).frozen then bar4Deny h write n s
    else if !scopeOk s p .host write va n then bar4Deny h write n (freezeHost s h (badVa s p .host write va n))
    else if fencedMem s p va n then bar4Deny h write n s
    else if write then vwrite s p va ⟨data, if ep then [(0, n)] else []⟩
    else emit (touch s p va n) (.bar4 h (vread (touch s p va n) p va n).data (vread (touch s p va n) p va n).bad) := by
  have own : (!hostUp s h || n == 0 || decide (2 ^ (hport s h).cfg.bar4Log < off + n)) = false := by
    simp only [up, beq_eq_false_iff_ne.2 some_, decide_eq_false (Nat.not_lt.2 inside)]
    rfl
  simp only [bar4, hp, hn, hva, own]
  rfl

theorem bar4_frozen (frozen : (hport s h).frozen = true) : bar4 s h off write len data ep = bar4Deny h write n s := by
  rw [bar4_eq hp up hn hva some_ inside, if_pos frozen]

variable (thawed : (hport s h).frozen = false)
include thawed

theorem bar4_outOfScope (out : scopeOk s p .host write va n = false) :
    bar4 s h off write len data ep = bar4Deny h write n (freezeHost s h (badVa s p .host write va n)) := by
  rw [bar4_eq hp up hn hva some_ inside, if_neg (by simp [thawed]), if_pos (by simp [out])]

theorem bar4_access (scope : scopeOk s p .host write va n = true) (unfenced : fencedMem s p va n = false) :
    bar4 s h off write len data ep =
      if write then vwrite s p va ⟨data, if ep then [(0, n)] else []⟩
      else emit (touch s p va n) (.bar4 h (vread (touch s p va n) p va n).data (vread (touch s p va n) p va n).bad) := by
  rw [bar4_eq hp up hn hva some_ inside, if_neg (by simp [thawed]), if_neg (by simp [scope]), if_neg (by simp [unfenced])]

end

end

/-- Settles O26. -/
theorem hostPortEvents : Obligations.HostPortEvents := by
  unfold Obligations.HostPortEvents
  refine ⟨fun s h p req rate width hawake hp => ?events, fun s h p off len data ep hawake hp up readIn writeIn => ?window⟩
  case events =>
    refine ⟨fun up => ?down, fun down => ?_, ?reset, fun high => ?_, fun secure => ?_, fun insecure => ?_,
      fun speush up => ?doe, fun on booted speush => ?_⟩
    case down =>
      refine ⟨_, done_next hawake (linkDown_up up), rfl, fun q small running => ?_, fun q small frozen => ?_⟩
      · rw [queue_stopQueues _ _ _ _ small, queue, hport_updHp_same, stopped]
        exact (congrArg (fun x : Queue => x.state = 2 ∧ x.stopwhy = 2) (if_neg running)).mpr ⟨rfl, rfl⟩
      · rw [queue_stopQueues _ _ _ _ small, queue, hport_updHp_same, stopped]
        exact if_pos frozen
    case reset =>
      refine ⟨_, done_next hawake (resetHostPort_some hp 4), rfl, fun q small => ?_, ?_, ?_⟩
      · rw [queue_portReset _ _ _ small]
        exact ⟨rfl, rfl, rfl, rfl, fun running => if_neg running⟩
      · rw [hport_portReset]
      · rw [hport_portReset]
    case doe =>
      have asked {u v : State} (e : u = v) : done s (if speushUp s then u else s) = .next (finish s v) :=
        done_next hawake ((if_pos speush).trans e)
      refine ⟨fun ty => ?_, fun ty => ?_, fun ty session => ?_, fun ty session => ?_, fun ty => ?_⟩
      · exact asked (doeRequest_discovery hp up ty)
      · obtain ⟨l, small, e⟩ := doeRequest_spdm hp up ty
        exact ⟨l, small, asked e⟩
      · exact asked (doeRequest_secured hp up ty session)
      · exact asked (doeRequest_sessionless hp up ty session)
      · exact asked (doeRequest_unknown ty)
    · exact done_next hawake (linkDown_down down)
    · exact done_next hawake (perst_high high hp)
    · exact done_next hawake (if_pos secure)
    · exact done_next hawake (if_neg insecure)
    · exact done_next hawake (hostTrained_up hp on booted speush)
  case window =>
    intro va ones
    refine ⟨fun some_ thawed scope unfenced => ?_, fun some_ thawed scope unfenced unmet => ?_, fun some_ thawed out => ?_,
      fun some_ thawed out => ?_, fun frozen => ⟨fun some_ => ?_, fun some_ => ?_⟩⟩
    · have write := bar4_access (write := true) (len := len) (data := data) (ep := ep) hp up rfl rfl
        (mt List.length_eq_zero_iff.1 some_) writeIn thawed scope unfenced
      rw [if_pos rfl] at write
      exact done_next hawake write
    · have read := bar4_access (write := false) (data := data) (ep := ep) hp up rfl rfl some_ readIn thawed scope unfenced
      rw [touch_clean unmet, if_neg Bool.false_ne_true] at read
      exact done_next hawake read
    · exact done_next hawake (bar4_outOfScope (write := true) hp up rfl rfl (mt List.length_eq_zero_iff.1 some_) writeIn thawed out)
    · exact done_next hawake (bar4_outOfScope (write := false) hp up rfl rfl some_ readIn thawed out)
    · exact done_next hawake (bar4_frozen (write := true) hp up rfl rfl (mt List.length_eq_zero_iff.1 some_) writeIn frozen)
    · exact done_next hawake (bar4_frozen (write := false) hp up rfl rfl some_ readIn frozen)

end Sys2Proof.Machine
end

section
/-! Programs start with their registers, and cores are substituted (05 R131, R145, R146, R148; 01 R26, R27). -/

namespace Sys2Proof.Machine

/-! ### Loading the image of a LAUNCH -/

/-- `t` is `s` but for the states of cores and the LAUNCHes. -/
structure LoadsCores (s t : State) : Prop where
  frame : t = { s with cores := t.cores, launches := t.launches }

namespace LoadsCores

theorem trans {s t u : State} (a : LoadsCores s t) (b : LoadsCores t u) : LoadsCores s u := ⟨by rw [b.frame, a.frame]⟩

section
variable {s t : State} (k : LoadsCores s t)
include k
theorem ms : t.ms = s.ms := by rw [k.frame]
theorem parts : t.parts = s.parts := by rw [k.frame]
theorem hps : t.hps = s.hps := by rw [k.frame]
end

theorem foldl_updCore (s : State) (g : State → Nat → Nat) (f : Core → Core) (l : List Nat) :
    LoadsCores s (l.foldl (fun s n => updCore s (g s n) f) s) := by
  induction l generalizing s with
  | nil => exact ⟨rfl⟩
  | cons n l ih => exact (⟨rfl⟩ : LoadsCores s (updCore s (g s n) f)).trans (ih _)

end LoadsCores

theorem loadsCores_loadLaunch (s : State) (l : Launch) : LoadsCores s (loadLaunch s l) := by
  unfold loadLaunch
  split
  · next im _ _ =>
    exact (LoadsCores.foldl_updCore s physOf (fun k => loadProgram k im) l.waiting).trans ⟨rfl⟩
  · exact ⟨rfl⟩

/-! ### PROGRAM_START -/

/-- The state after a waiting core of a LAUNCH has started its program, the image loaded. -/
def programStarted (s : State) (l : Launch) (id n : Nat) : State :=
  updLaunch (updUnits (updCore (loadLaunch s l) (physOf s n) (startCore (loadLaunch s l) l n)) (physOf s n) emptyQueues) id
    (fun l => { l with waiting := l.waiting.filter (· != n), running := l.running ++ [n] })

section
variable {s : State} {id n : Nat} {l : Launch}

theorem canStart_of (waits : n ∈ l.waiting) (among : amongEight s l = true)
    (free : ∀ m ∈ l.waiting, coreFree s l m = true ∧ copyDue s m = false) : canStart s l n = true := by
  simp only [canStart, among, Bool.and_true, Bool.and_eq_true, List.contains_iff_mem, List.all_eq_true]
  refine ⟨waits, fun m hm => ?_⟩
  obtain ⟨idle, settled⟩ := free m hm
  simp [idle, settled]

theorem startProgram_starts (found : launchOf s id = some l) (can : canStart s l n = true)
    (thawed : ∀ m ∈ l.waiting, smem s.frozenCores m = false) : startProgram s id n = programStarted s l id n := by
  have none_frozen : l.waiting.any (smem s.frozenCores) = false :=
    List.any_eq_false.2 fun m hm => by rw [thawed m hm]; exact Bool.false_ne_true
  have same : physOf (loadLaunch s l) n = physOf s n := by
    rw [physOf, physOf, (loadsCores_loadLaunch s l).frame]
  simp only [startProgram, found, can, none_frozen, same]
  rfl

theorem startProgram_stays (stays : launchOf s id = none ∨ (launchOf s id = some l ∧ canStart s l n = false)) :
    startProgram s id n = s := by
  rcases stays with none_ | ⟨found, cannot⟩
  · rw [startProgram, none_]
  · simp [startProgram, found, cannot]

theorem core_programStarted (y : Nat) : core (programStarted s l id n) y =
    if y = physOf s n then startCore (loadLaunch s l) l n (core (loadLaunch s l) (physOf s n)) else core (loadLaunch s l) y :=
  core_updCore ..

end

section
variable (s : State) (l : Launch) (n : Nat) (k : Core)

/-- The scalar registers that a program starts with (R148). -/
theorem sget_startCore : sget (startCore s l n k) 1 = BitVec.ofNat 64 l.argva ∧
    sget (startCore s l n k) 2 = BitVec.ofNat 64 n ∧ sget (startCore s l n k) 5 = 0 := by
  simp [startCore, startRegs, sget, mget_mset, mget]

end

theorem queuesEmpty_emptyQueues (u : Units) : queuesEmpty (emptyQueues u) = true := rfl

/-! ### CORE_SUBSTITUTION -/

theorem smem_sins (l : List Nat) (k : Nat) : smem (sins l k) k = true := by simp [smem, sins]

/-- Core `o` joins the retired cores. -/
def withRetired (s : State) (o : Nat) : State := { s with retiredCores := sins s.retiredCores o }

/-- The cores and units after core `o` has been copied to core `c` and cleared. -/
def coresMoved (s : State) (l o c : Nat) : State :=
  updUnits (updCore (updUnits (updCore (updFaults s (fun f => { f with subst := f.subst.filter (fun x => x.1 != l) })) c
    (fun _ => { core s o with cycleBase := (core s c).cycleBase })) c
    (fun v => { v with formes := (unitsOf s o).formes })) o (fun _ => coreCleared {} (mget s.pulses 0 (o / 8)))) o unitsCleared

theorem core_coresMoved {s : State} {l o c : Nat} (other : c ≠ o) :
    core (coresMoved s l o c) c = { core s o with cycleBase := (core s c).cycleBase } := by
  rw [coresMoved, updUnits_core, core_updCore, if_neg other, updUnits_core, core_updCore_same]

/-- The state after logical core `l`, so far core `o`, is core `c` and `o` is retired, before this is recorded. -/
def substituted (s : State) (l o c : Nat) : State := setPhys (withRetired (coresMoved s l o c) o) l c

section
variable {s : State} {l o c : Nat}

theorem substituteCore_substitutes (found : s.faults.subst.find? (fun x => x.1 == l && !x.2.2) = some (l, o, false))
    (idle : running s o = false) (boundary : (proof s (lcorePart s l)).openStep = none)
    (by_ : replacement (updFaults s (fun f => { f with subst := f.subst.filter (fun x => x.1 != l) })) (lcorePart s l) o = some c) :
    substituteCore s l = stickyDev (record (substituted s l o c) (lcorePart s l) (ucCore o) 0 0x0052 (leBytes 2 (ucCore c))) 0 := by
  have ready : !running s o ∧ (proof s (lcorePart s l)).openStep.isNone := by rw [idle, boundary]; exact ⟨rfl, rfl⟩
  rw [substituteCore, found]
  refine (if_pos ready).trans ?_
  simp only [substitute, by_]
  rfl

theorem physOf_substituted (m : Nat) : physOf (substituted s l o c) m = if m = l then c else physOf s m := by
  have kept : (coresMoved s l o c).coreMap = s.coreMap := by simp [coresMoved]
  have map : (substituted s l o c).coreMap = mset s.coreMap (defaultPhys l) l c := by
    rw [substituted, setPhys, withRetired, kept]
  rw [physOf, physOf, map]
  split
  · next e => subst e; exact mget_mset_same _ _ _ _
  · next e => exact mget_mset_other _ _ _ _ e

theorem substituted_ms : (substituted s l o c).ms = s.ms := by simp [substituted, withRetired, coresMoved]

theorem substituted_parts : (substituted s l o c).parts = s.parts := by simp [substituted, withRetired, coresMoved]

theorem core_substituted (k : Nat) : core (substituted s l o c) k = core (coresMoved s l o c) k := by
  simp [substituted, withRetired, core]

theorem retired_substituted : smem (substituted s l o c).retiredCores o = true := by
  rw [substituted, setPhys_retiredCores]
  exact smem_sins _ _

end

/-- Settles O27. -/
theorem programsStartAndCoresAreSubstituted : Obligations.ProgramsStartAndCoresAreSubstituted := by
  unfold Obligations.ProgramsStartAndCoresAreSubstituted
  intro s id n l o c hawake
  refine ⟨fun found waits among free => ?starts, fun stays => done_next hawake (startProgram_stays stays),
    fun found idle boundary by_ other => ?substitutes⟩
  case starts =>
    intro x u
    have can : canStart s l n = true := canStart_of waits among fun m hm => ⟨(free m hm).1, (free m hm).2.1⟩
    have here : core (programStarted s l id n) x = startCore u l n (core u x) := (core_programStarted x).trans (if_pos rfl)
    obtain ⟨r1, r2, r5⟩ := sget_startCore u l n (core u x)
    refine ⟨programStarted s l id n, done_next hawake (startProgram_starts found can fun m hm => (free m hm).2.2), here,
      by rw [here]; rfl, by rw [here]; rfl, by rw [here]; exact r1, by rw [here]; exact r2, by rw [here]; exact r5,
      fun i => by rw [here]; rfl, ?_, fun y away => (core_programStarted y).trans (if_neg away),
      ?_, ?_, ?_⟩
    · have units : unitsOf (programStarted s l id n) x = emptyQueues (unitsOf (updCore u x (startCore u l n)) x) :=
        unitsOf_updUnits_same _ _ _
      rw [units]
      exact queuesEmpty_emptyQueues _
    · exact (loadsCores_loadLaunch s l).ms
    · exact (loadsCores_loadLaunch s l).parts
    · exact (loadsCores_loadLaunch s l).hps
  case substitutes =>
    have reports : Reports (substituted s n o c) (stickyDev (record (substituted s n o c) (lcorePart s n) (ucCore o) 0 0x0052
        (leBytes 2 (ucCore c))) 0) := (reports_record _ _ _ _ _ _).trans (reports_stickyDev _ _)
    refine ⟨_, done_next hawake (substituteCore_substitutes found idle boundary by_), ?_, ?_, ?_, fun m away => ?_, ?_, ?_⟩
    · rw [reports.physOf, physOf_substituted, if_pos rfl]
    · rw [reports.core, core_substituted, core_coresMoved other]
    · rw [reports.retiredCores]
      exact retired_substituted
    · rw [reports.physOf, physOf_substituted, if_neg away]
    · exact reports.ms.trans substituted_ms
    · exact reports.parts.trans substituted_parts

end Sys2Proof.Machine
end

section
/-! The instruction at the head of a unit's queue: matrix, stream and mover (03 R61 to R64; 04 R103, R111, R115; 05 R134,
R138 to R142). -/

namespace Sys2Proof.Machine

/-! ### The length of a read -/

/-- The segments of a range, up to a page: together they are as long as the part of the range below that page. -/
theorem segs_length (va n m : Nat) (inside : m = 0 ∨ (va / pageSize + (m - 1)) * pageSize ≤ va + n) :
    (((upto (va / pageSize) m).map (fun v => min (va + n) ((v + 1) * pageSize) - max va (v * pageSize))).sum) =
      min (va + n) ((va / pageSize + m) * pageSize) - va := by
  have start : va / pageSize * pageSize ≤ va := Nat.div_mul_le_self _ _
  induction m with
  | zero =>
    simp only [upto, List.range_zero, List.map_nil, List.sum_nil, Nat.add_zero]
    omega
  | succ m ih =>
    have here : (va / pageSize + m) * pageSize ≤ va + n := by
      rcases inside with e | e
      · omega
      · simpa using e
    have below : m = 0 ∨ (va / pageSize + (m - 1)) * pageSize ≤ va + n :=
      .inr (le_trans (Nat.mul_le_mul_right _ (by omega)) here)
    have next : (va / pageSize + (m + 1)) * pageSize = (va / pageSize + m) * pageSize + pageSize := by
      rw [← Nat.add_assoc, Nat.add_mul _ 1, Nat.one_mul]
    have one : (va / pageSize + m + 1) * pageSize = (va / pageSize + m) * pageSize + pageSize := by
      rw [Nat.add_mul _ 1, Nat.one_mul]
    have cut : upto (va / pageSize) (m + 1) = upto (va / pageSize) m ++ [va / pageSize + m] := by
      simp [upto, List.range_succ]
    rw [cut, List.map_append, List.sum_append, ih below, List.map_singleton, List.sum_singleton, next, one]
    omega

theorem segsOf_length (s : State) (p va n : Nat) : ((segsOf s p va n).map (fun x => x.2.2)).sum = n := by
  have positive : 0 < pageSize := by decide
  rw [segsOf, List.map_map]
  by_cases none_ : n = 0
  · simp [pagesIn, none_]
  · have last := Nat.div_mul_le_self (va + n - 1) pageSize
    have after := Nat.lt_div_mul_add positive (a := va + n - 1)
    have order : va / pageSize ≤ (va + n - 1) / pageSize := Nat.div_le_div_right (by omega)
    have whole : va / pageSize + ((va + n - 1) / pageSize - va / pageSize + 1) = (va + n - 1) / pageSize + 1 := by omega
    have sum := segs_length va n ((va + n - 1) / pageSize - va / pageSize + 1) (.inr (by
      rw [Nat.add_sub_cancel, Nat.add_sub_cancel' order]
      omega))
    rw [whole, Nat.add_mul, Nat.one_mul] at sum
    rw [pagesIn, if_neg none_]
    refine Eq.trans sum ?_
    omega

theorem foldl_append_length (f : Nat × Nat × Nat → Blob) (hf : ∀ x, (f x).data.length = x.2.2)
    (l : List (Nat × Nat × Nat)) (b : Blob) :
    (l.foldl (fun b x => b.append (f x)) b).data.length = b.data.length + (l.map (fun x => x.2.2)).sum := by
  induction l generalizing b with
  | nil => simp
  | cons x l ih =>
    rw [List.foldl_cons, ih, Blob.append, List.length_append, hf, List.map_cons, List.sum_cons]
    omega

theorem vread_length (s : State) (p va n : Nat) : (vread s p va n).data.length = n := by
  unfold vread
  split
  · have bytes : (hread s (partHp s p) (va % 2 ^ 47) n).data = rdBytes (mget s.hostMem [] (partHp s p)) (va % 2 ^ 47) n := by
      unfold hread
      dsimp only
      split <;> rfl
    rw [bytes, rdBytes_length]
  · rw [foldl_append_length _ fun x => rdBytes_length _ _ _, segsOf_length]
    exact Nat.zero_add n

/-! ### The head of a queue starts -/

section
variable {s : State} {c n : Nat} {e : TileEntry} (head : HeadStarts s c n e)
include head

theorem HeadStarts.queue : ∃ l, unitQ (unitsOf s c) n = e :: l := by
  obtain ⟨first, -, -, -⟩ := head
  exact List.head?_eq_some_iff.1 first

theorem startEntry_head : startEntry s c n = some (e, headTaken s c e) := by
  obtain ⟨l, queue⟩ := head.queue
  obtain ⟨-, leave, unwaiting, covers⟩ := head
  have free : ((needsLeave (unitsOf s c) e && !granted s c) || formeWaits (unitsOf s c) e) = false := by
    rw [unwaiting, Bool.or_false]
    cases needs : needsLeave (unitsOf s c) e with
    | false => rfl
    | true => rw [leave needs]; rfl
  simp only [startEntry, queue, free, Bool.false_eq_true, if_false, headTaken]
  split
  · rfl
  · rw [semTake, if_pos covers]
    rfl

end

/-! ### Matrix instructions -/

section
variable {s : State} {c n : Nat} {e : TileEntry} (head : HeadStarts s c n e)
include head

theorem matrixInstruction_empty (none_ : mbM e.block = 0 ∨ mbN e.block = 0) : matrixInstruction s c n = completeEntry
    (if mtEmit e && e.fen then updCore (headTaken s c e) c (fun k => spadWrite k e.flagdst (.clean (zeros 8)))
      else headTaken s c e) c n e := by
  rw [matrixInstruction, startEntry_head head]
  exact if_pos none_

section
variable (hm : mbM e.block ≠ 0) (hn : mbN e.block ≠ 0)
include hm hn

theorem matrixInstruction_shape (keep : mtKeep e = true)
    (shape : (curBank (arrayOf (unitsOf (headTaken s c e) c) n)).m ≠ mbM e.block ∨
      (curBank (arrayOf (unitsOf (headTaken s c e) c) n)).n ≠ mbN e.block) :
    matrixInstruction s c n = failQueued (headTaken s c e) c n e .badDesc := by
  rw [matrixInstruction, startEntry_head head]
  exact (if_neg (not_or.2 ⟨hm, hn⟩)).trans (if_pos ⟨keep, shape⟩)

theorem matrixInstruction_runs (fits : mtKeep e = true →
    (curBank (arrayOf (unitsOf (headTaken s c e) c) n)).m = mbM e.block ∧
      (curBank (arrayOf (unitsOf (headTaken s c e) c) n)).n = mbN e.block) :
    matrixInstruction s c n = completeEntry (matrixRun (headTaken s c e) c n e) c n e := by
  rw [matrixInstruction, startEntry_head head]
  refine (if_neg (not_or.2 ⟨hm, hn⟩)).trans (if_neg ?_)
  rintro ⟨keep, shape⟩
  obtain ⟨em, en⟩ := fits keep
  rcases shape with shape | shape
  · exact shape em
  · exact shape en

end

end

/-- Settles O28. -/
theorem matrixInstructions : Obligations.MatrixInstructions := by
  unfold Obligations.MatrixInstructions
  intro s c array e hawake head n t b
  exact ⟨fun none_ => done_next hawake (matrixInstruction_empty head none_),
    fun hm hn keep shape => done_next hawake (matrixInstruction_shape head hm hn keep shape),
    fun hm hn fits => done_next hawake (matrixInstruction_runs head hm hn fits)⟩

/-! ### Stream instructions -/

section
variable {s : State} {c : Nat} {e : TileEntry} (head : HeadStarts s c 2 e) {t : State} (ht : headTaken s c e = t)
  {f b : Bytes} (hf : mget (unitsOf t c).formes [] (e.spec % 64) = f) (hb : (spadRead (core t c) e.blk 416).data = b)
include head ht hf hb

theorem streamInstruction_eq : streamInstruction s c =
    if f.isEmpty || !streamOk e f b then failQueued t c 2 e .badDesc
    else if sbN b = 0 then
      completeEntry (if e.fen then updCore t c (fun k => spadWrite k e.flagdst (.clean (zeros 32))) else t) c 2 e
    else completeEntry (if (streamRun (core t c) e f b).2 then
        consumeLine (updCore t c (fun _ => (streamRun (core t c) e f b).1)) c (operTile 2)
      else updCore t c (fun _ => (streamRun (core t c) e f b).1)) c 2 e := by
  rw [streamInstruction, startEntry_head head]
  simp only [ht, hf, hb]

theorem streamInstruction_illegal (illegal : f = [] ∨ streamOk e f b = false) :
    streamInstruction s c = failQueued t c 2 e .badDesc := by
  rw [streamInstruction_eq head ht hf hb, if_pos (by rcases illegal with e | e <;> simp [e])]

section
variable (some_ : f ≠ []) (ok : streamOk e f b = true)
include some_ ok

theorem streamInstruction_empty (none_ : sbN b = 0) : streamInstruction s c = completeEntry
    (if e.fen then updCore t c (fun k => spadWrite k e.flagdst (.clean (zeros 32))) else t) c 2 e := by
  rw [streamInstruction_eq head ht hf hb, if_neg (by simp [some_, ok]), if_pos none_]

theorem streamInstruction_runs (elements : sbN b ≠ 0) : streamInstruction s c =
    completeEntry (if (streamRun (core t c) e f b).2 then
        consumeLine (updCore t c (fun _ => (streamRun (core t c) e f b).1)) c (operTile 2)
      else updCore t c (fun _ => (streamRun (core t c) e f b).1)) c 2 e := by
  rw [streamInstruction_eq head ht hf hb, if_neg (by simp [some_, ok]), if_neg elements]

end

end

/-! ### The mover -/

/-- The end of a move whose rows have gone: its record, the semaphore of an XCORE, and its completion. -/
def moveEnded (u : State) (c : Nat) (e : TileEntry) (status : St) (bad : Bool) (k : Nat) : State :=
  completeEntry (writeMoveRecord u c e status bad k) c 3 e

theorem moveDone_plain {u : State} {c : Nat} {e : TileEntry} {bad : Bool} (local_ : mvOp e ≠ 2) :
    moveDone u c e bad = moveEnded (updUnits u c (fun x => { x with moving := none })) c e (if bad then .poisoned else .done) bad
      (mvRows e.block * mvRowBytes e.block) := by
  simp only [moveDone, local_, false_and, if_false]
  rfl

theorem moveDone_xcore {u : State} {c : Nat} {e : TileEntry} {bad : Bool} (xcore : mvOp e = 2) :
    moveDone u c e bad = moveEnded (if mvRsen e.block then
        updCore (updUnits u c (fun x => { x with moving := none })) (physOf u (mvTcore e.block))
          (fun k => semAdd k (mvRsem e.block) 1)
      else updUnits u c (fun x => { x with moving := none })) c e (if bad then .poisoned else .done) bad
      (mvRows e.block * mvRowBytes e.block) := by
  simp only [moveDone, xcore, true_and]
  rfl

section
variable {s : State} {c : Nat} {e : TileEntry} (head : HeadStarts s c 3 e) (still : (unitsOf s c).moving = none)
  {op : Nat} (hop : mvOp e = op) (unstalled : moveStalls s c e = false) {t : State} (ht : headTaken s c e = t)
include head still hop unstalled ht

/-- The mover's instruction after its move has started. -/
theorem moverInstruction_eq : moverInstruction s c op =
    if mvEmpty e.block then completeEntry (writeMoveRecord t c e .doneEmpty false 0) c 3 e
    else if mvOp e = 2 ∧ (120 ≤ mvTcore e.block ∨ lcorePart t (mvTcore e.block) ≠ coreOwner t c) then
      moveOut t c e (mvAddr e.block)
    else match mvBadRow t (coreOwner t c) e with
      | some r => moveOut t c e (mvRowVa e.block r)
      | none =>
        if mvFenced t (coreOwner t c) e then completeEntry (writeMoveRecord t c e .fenced false 0) c 3 e
        else if op = 3 then moveForme t c e else moveDone (moveRows t c e).1 c e (moveRows t c e).2 := by
  obtain ⟨l, queue⟩ := head.queue
  simp only [moverInstruction, queue, hop, ne_eq, not_true_eq_false, if_false, still, moveStart, unstalled,
    Bool.false_eq_true, startEntry_head head, ht] <;> rfl

theorem moverInstruction_empty (none_ : mvEmpty e.block = true) :
    moverInstruction s c op = moveEnded t c e .doneEmpty false 0 := by
  rw [moverInstruction_eq head still hop unstalled ht, if_pos none_]
  rfl

section
variable (some_ : mvEmpty e.block = false)
include some_

theorem moverInstruction_row {row : Nat} (local_ : op ≠ 2) (out : mvBadRow t (coreOwner t c) e = some row) :
    moverInstruction s c op = moveOut t c e (mvRowVa e.block row) := by
  rw [moverInstruction_eq head still hop unstalled ht, if_neg (by simp [some_]),
    if_neg (fun x => local_ (hop.symm.trans x.1)), out]

theorem moverInstruction_goes (target : op = 2 → mvTcore e.block < 120 ∧ lcorePart t (mvTcore e.block) = coreOwner t c)
    (inside : mvBadRow t (coreOwner t c) e = none) (unfenced : mvFenced t (coreOwner t c) e = false) :
    moverInstruction s c op = if op = 3 then moveForme t c e else moveDone (moveRows t c e).1 c e (moveRows t c e).2 := by
  have own : ¬ (mvOp e = 2 ∧ (120 ≤ mvTcore e.block ∨ lcorePart t (mvTcore e.block) ≠ coreOwner t c)) := by
    rintro ⟨xcore, far⟩
    obtain ⟨small, same⟩ := target (hop.symm.trans xcore)
    rcases far with far | far
    · omega
    · exact far same
  rw [moverInstruction_eq head still hop unstalled ht, if_neg (by simp [some_]), if_neg own, inside]
  exact if_neg (by simp [unfenced])

end

end

theorem moveStalls_of_op {s : State} {c : Nat} {e : TileEntry} (reads : mvOp e ≠ 1) : moveStalls s c e = false := by
  simp [moveStalls, reads]

/-- A FORME load of a valid forme sets its slot. -/
theorem moveForme_sets {t : State} {c : Nat} {e : TileEntry} (unmet : NoneInjected t)
    (clean : (vread t (coreOwner t c) (mvAddr e.block) (mvRowBytes e.block)).bad = false)
    (ok : formeOk (vread t (coreOwner t c) (mvAddr e.block) (mvRowBytes e.block)).data = true) :
    moveForme t c e = moveEnded (setForme t c (mvTcore e.block)
      (vread t (coreOwner t c) (mvAddr e.block) (mvRowBytes e.block)).data) c e .done false (mvRowBytes e.block) := by
  simp only [moveForme, touch_clean unmet, clean, ok]
  rfl

/-! ### The rows of a move -/

section
variable {s : State} {c r : Nat} {e : TileEntry}

theorem moveRow_load (unmet : NoneInjected s) (hop : mvOp e = 0) : (moveRow s c e r).1 =
    updCore s c (fun k => spadWrite k (mvSpa e.block + r * mvSstride e.block)
      (vread s (coreOwner s c) (mvRowVa e.block r) (mvRowBytes e.block))) := by
  simp only [moveRow, movePart, hop, touch_clean unmet, Nat.add_zero]

theorem moveRow_store (hop : mvOp e = 1) : (moveRow s c e r).1 = vwrite s (coreOwner s c) (mvRowVa e.block r)
    (spadRead (core s c) (mvSpa e.block + r * mvSstride e.block) (mvRowBytes e.block)) := by
  simp only [moveRow, movePart, hop, Nat.add_zero]

end

/-- Settles O29. -/
theorem streamAndMoverInstructions : Obligations.StreamAndMoverInstructions := by
  unfold Obligations.StreamAndMoverInstructions
  refine ⟨fun s c e hawake => ?instructions, fun s c r e unmet => ?rows⟩
  case instructions =>
    intro t f b r p m rec_ ended rowsOk img moved status
    refine ⟨fun head illegal => ?_, fun head some_ ok none_ => ?_, fun head some_ ok elements => ?_, fun head still => ?mover⟩
    · exact done_next hawake (streamInstruction_illegal head rfl rfl rfl illegal)
    · exact done_next hawake (streamInstruction_empty head rfl rfl rfl some_ ok none_)
    · exact done_next hawake (streamInstruction_runs head rfl rfl rfl some_ ok elements)
    case mover =>
      have unstalled {op : Nat} (hop : mvOp e = op) (reads : op ≠ 1) : moveStalls s c e = false :=
        moveStalls_of_op (hop ▸ reads)
      have goes {op : Nat} (hop : mvOp e = op) := moverInstruction_goes (t := t) head still hop
      refine ⟨fun hop none_ => ?_, fun hop some_ ok => ?_, fun hop some_ ok room => ?_, fun hop some_ small own service => ?_,
        fun hop some_ ok unmet clean forme => ?_, fun hop some_ row out => ?_⟩
      · exact done_next hawake (moverInstruction_empty head still hop (unstalled hop (by decide)) rfl none_)
      · have went := goes hop (unstalled hop (by decide)) rfl some_ (nofun) ok.1 ok.2
        rw [if_neg (by decide), moveDone_plain (by simp [hop])] at went
        exact done_next hawake went
      · have went := goes hop room rfl some_ (nofun) ok.1 ok.2
        rw [if_neg (by decide), moveDone_plain (by simp [hop])] at went
        exact done_next hawake went
      · have went := goes hop (unstalled hop (by decide)) rfl some_ (fun _ => ⟨small, own⟩) (if_pos hop) ((if_pos hop).trans service)
        rw [if_neg (by decide), moveDone_xcore hop] at went
        exact done_next hawake went
      · have went := goes hop (unstalled hop (by decide)) rfl some_ (nofun) ok.1 ok.2
        rw [if_pos rfl, moveForme_sets unmet clean forme] at went
        exact done_next hawake went
      · exact done_next hawake (moverInstruction_row head still hop (unstalled hop (by decide)) rfl some_ (by decide) out)
  case rows =>
    intro b p n sp u
    refine ⟨fun hop => ?_, fun hop => moveRow_store hop⟩
    have row : u = updCore s c (fun k => spadWrite k sp (vread s p (mvRowVa b r) n)) := moveRow_load unmet hop
    have size : (vread s p (mvRowVa b r) n).data.length = n := vread_length ..
    rw [row]
    refine ⟨?_, fun a out => ?_, rfl, fun x away => (core_updCore ..).trans (if_neg away)⟩
    · rw [core_updCore_same, spadWrite]
      have same := rdBytes_wrBytes_same (core s c).spad sp (vread s p (mvRowVa b r) n).data
      rwa [size] at same
    · rw [core_updCore_same, spadWrite]
      exact rdByte_wrBytes_out _ _ _ _ (by rwa [size])

end Sys2Proof.Machine
end

section
/-! Writes of device memory: their bytes and their poison (06 R173), and the copy-on-write hooks before them (12 R371). -/

namespace Sys2Proof.Machine

/-! ### Sorted sets of numbers -/

theorem mem_sins {l : List Nat} {k x : Nat} : x ∈ sins l k ↔ x = k ∨ x ∈ l := by
  simp only [sins, List.mem_append, List.mem_filter, List.mem_singleton, decide_eq_true_eq]
  rcases Nat.lt_trichotomy x k with h | h | h
  · simp [h, show x ≠ k by omega, show ¬ k < x by omega]
  · simp [h]
  · simp [h, show x ≠ k by omega, show ¬ x < k by omega]

theorem mem_sdel {l : List Nat} {k x : Nat} : x ∈ sdel l k ↔ x ∈ l ∧ x ≠ k := by simp [sdel]

/-! ### The copy-on-write hooks -/

/-- `t` is `s` but for the snapshots of its partitions. -/
structure SnapsOnly (s t : State) : Prop where
  frame : t = { s with parts := t.parts }
  part : ∀ p, part t p = { part s p with snap := snap t p }

namespace SnapsOnly

theorem refl (s : State) : SnapsOnly s s := ⟨rfl, fun _ => rfl⟩

theorem trans {s t u : State} (a : SnapsOnly s t) (b : SnapsOnly t u) : SnapsOnly s u where
  frame := by rw [b.frame, a.frame]
  part p := by rw [b.part, a.part]

theorem foldl {α : Type} {g : State → α → State} (hg : ∀ s a, SnapsOnly s (g s a)) (l : List α) (s : State) :
    SnapsOnly s (l.foldl g s) := by
  induction l generalizing s with
  | nil => exact refl s
  | cons a l ih => exact (hg s a).trans (ih (g s a))

section
variable {s t : State} (k : SnapsOnly s t)
include k
theorem ms : t.ms = s.ms := by rw [k.frame]
theorem regs : t.regs = s.regs := by rw [k.frame]
theorem hps : t.hps = s.hps := by rw [k.frame]
theorem cores : t.cores = s.cores := by rw [k.frame]
end

end SnapsOnly

theorem snapsOnly_updSnap (s : State) (p : Nat) (f : Snap → Snap) : SnapsOnly s (updSnap s p f) where
  frame := rfl
  part p' := by
    rw [snap, part_updSnap]
    split
    · next e => rw [e]
    · rfl

theorem snapsOnly_cowHook (s : State) (ppn : Nat) : SnapsOnly s (cowHook s ppn) := by
  refine .foldl (fun s p => ?_) _ _
  dsimp only
  split
  · exact snapsOnly_updSnap s p _
  · exact .refl s

theorem snapsOnly_cowHooks (s : State) (l : List Nat) : SnapsOnly s (l.foldl cowHook s) := .foldl snapsOnly_cowHook l s

/-! ### Poison after a write -/

/-- Some poisoned range of the data meets a granule. -/
def Meets (a : Nat) (b : Blob) (g : Nat) : Prop := ∃ r ∈ b.pz, 0 < r.2 ∧ a + r.1 < (g + 1) * 64 ∧ g * 64 < a + r.1 + r.2

theorem meets_iff (a : Nat) (b : Blob) (g : Nat) :
    b.pz.any (fun r => decide (0 < r.2) && decide (a + r.1 < (g + 1) * 64) &&
      decide (g * 64 < a + r.1 + r.2)) = true ↔ Meets a b g := by
  simp only [Meets, List.any_eq_true, Bool.and_eq_true, decide_eq_true_eq, and_assoc]

/-- One granule of a write: it is poisoned where the data is, clean where clean data covers it, else as it was. -/
def granuleAfter (a n : Nat) (b : Blob) (l : List Nat) (g : Nat) : List Nat :=
  if b.pz.any (fun r => decide (0 < r.2) && decide (a + r.1 < (g + 1) * 64) && decide (g * 64 < a + r.1 + r.2)) then sins l g
  else if a ≤ g * 64 ∧ (g + 1) * 64 ≤ a + n then sdel l g else l

theorem mem_granuleAfter_ne {a n : Nat} {b : Blob} {l : List Nat} {g x : Nat} (away : x ≠ g) :
    x ∈ granuleAfter a n b l g ↔ x ∈ l := by
  unfold granuleAfter
  split
  · simp [mem_sins, away]
  · split
    · simp [mem_sdel, away]
    · rfl

theorem mem_granuleAfter_covered {a n : Nat} {b : Blob} {l : List Nat} {g : Nat} (lo : a ≤ g * 64) (hi : (g + 1) * 64 ≤ a + n) :
    g ∈ granuleAfter a n b l g ↔ Meets a b g := by
  rw [granuleAfter, ← meets_iff]
  split
  · next met => simp [mem_sins, met]
  · next unmet => simp [lo, hi, mem_sdel, unmet]

theorem mem_foldl_granuleAfter_out {a n : Nat} {b : Blob} {gs : List Nat} {g : Nat} (out : g ∉ gs) (l : List Nat) :
    g ∈ gs.foldl (granuleAfter a n b) l ↔ g ∈ l := by
  induction gs generalizing l with
  | nil => rfl
  | cons x gs ih =>
    rw [List.mem_cons, not_or] at out
    rw [List.foldl_cons, ih out.2, mem_granuleAfter_ne out.1]

theorem mem_foldl_granuleAfter_covered {a n : Nat} {b : Blob} {gs : List Nat} {g : Nat} (inside : g ∈ gs) (lo : a ≤ g * 64)
    (hi : (g + 1) * 64 ≤ a + n) (l : List Nat) : g ∈ gs.foldl (granuleAfter a n b) l ↔ Meets a b g := by
  induction gs generalizing l with
  | nil => cases inside
  | cons x gs ih =>
    rw [List.foldl_cons]
    by_cases later : g ∈ gs
    · exact ih later _
    · obtain rfl | later' := List.mem_cons.1 inside
      · rw [mem_foldl_granuleAfter_out later, mem_granuleAfter_covered lo hi]
      · exact absurd later' later

theorem mem_unitsIn {a n g : Nat} : g ∈ unitsIn a n ↔ n ≠ 0 ∧ g * 64 < a + n ∧ a < (g + 1) * 64 := by
  unfold unitsIn
  split
  · next e => simp [e]
  · next e =>
    simp only [upto, List.mem_map, List.mem_range]
    constructor
    · rintro ⟨i, hi, rfl⟩
      omega
    · rintro ⟨-, lo, hi⟩
      exact ⟨g - a / 64, by omega, by omega⟩

theorem pzAfter_eq (l : List Nat) (a : Nat) (b : Blob) :
    pzAfter l a b = (unitsIn a b.data.length).foldl (granuleAfter a b.data.length b) l := rfl

theorem mem_pzAfter_out {l : List Nat} {a g : Nat} {b : Blob} (out : (g + 1) * 64 ≤ a ∨ a + b.data.length ≤ g * 64) :
    g ∈ pzAfter l a b ↔ g ∈ l := by
  rw [pzAfter_eq]
  exact mem_foldl_granuleAfter_out (fun inside => by have := mem_unitsIn.1 inside; omega) l

theorem mem_pzAfter_covered {l : List Nat} {a g : Nat} {b : Blob} (lo : a ≤ g * 64) (hi : (g + 1) * 64 ≤ a + b.data.length) :
    g ∈ pzAfter l a b ↔ Meets a b g := by
  rw [pzAfter_eq]
  exact mem_foldl_granuleAfter_covered (mem_unitsIn.2 (by omega)) lo hi l

/-! ### A write of physical bytes -/

/-- A physical write: after the copy-on-write hooks, the memory and its poison alone change. -/
theorem pwrite_eq (s : State) (pa : Nat) (b : Blob) : ∃ u, SnapsOnly s u ∧ pwrite s pa b =
    { u with ms := { s.ms with mem := wrBytes s.ms.mem pa b.data, poison := pzAfter s.ms.poison pa b } } := by
  have hooks := snapsOnly_cowHooks s (pagesIn pa b.data.length)
  exact ⟨_, hooks, by rw [pwrite, updMs, hooks.ms]⟩

/-- Settles O30. -/
theorem deviceWrites : Obligations.DeviceWrites := by
  unfold Obligations.DeviceWrites
  intro s pa b wf t
  obtain ⟨u, snaps, written⟩ := pwrite_eq s pa b
  have ht : t = _ := written
  rw [ht, snaps.frame]
  exact ⟨wf_wrBytes _ _ _ wf, rdBytes_wrBytes_same _ _ _, fun a out => rdByte_wrBytes_out _ _ _ _ out,
    fun g out => mem_pzAfter_out out, fun g lo hi => mem_pzAfter_covered lo hi, rfl, rfl, rfl, rfl, rfl, rfl, rfl, rfl⟩

end Sys2Proof.Machine
end

section
/-! Translation updates, interleave classes and scale-table entries (06 R163 to R165; 07 R200; 17 R501 to R504). -/

namespace Sys2Proof.Machine

/-! ### Translation updates -/

section
variable {s : State} {h p : Nat} {u : TtUpdate}

theorem ttStart_starts (hp : hpPart s h = some p) (free : (part s p).tt = none) :
    ttStart s h = updPart s p (fun x => { x with tt := some {
      vpn := regF s (.part p) 0x0800000 0 28, count := regF s (.part p) 0x0800004 0 22
      entry := BitVec.ofNat 64 (regW s (.part p) 0x0800008 + 2 ^ 32 * regW s (.part p) 0x080000C) } }) := by
  simp [ttStart, hp, free]

theorem ttStart_ignored (hp : hpPart s h = some p) (busy : (part s p).tt ≠ none) :
    ttStart s h = writeIgnored s h 0x0800010 1 4 := by
  simp only [ttStart, hp]
  exact if_pos (Option.isSome_iff_ne_none.2 busy)

theorem ttFinish_none (idle : (part s p).tt = none) : ttFinish s p = s := by rw [ttFinish, idle]

/-- The state in which an update has ended with its status. -/
def ttEnded (s : State) (p : Nat) (u : TtUpdate) : State :=
  updPart s p (fun x => { x with tt := none, ttStatus := (ttJudge s p u).code })

theorem ttFinish_refused (busy : (part s p).tt = some u) (refused : ttJudge s p u ≠ .done) : ttFinish s p = ttEnded s p u := by
  rw [ttFinish, busy]
  exact if_neg refused

theorem ctxBase_snapsOnly {s t : State} (k : SnapsOnly s t) (p : Nat) : ctxBase t p = ctxBase s p := by
  rw [ctxBase, ctxBase, k.frame]
  rfl

/-- An update that is judged legal: after the hooks, its range of the table holds its entries. -/
theorem ttFinish_done (busy : (part s p).tt = some u) (legal : ttJudge s p u = .done) :
    ∃ v, SnapsOnly (ttEnded s p u) v ∧ ttFinish s p =
      updMs v (fun m => { m with tt := mreplace m.tt (ctxBase s p + u.vpn) u.count (mofList 0 0 (ttEntries u)) }) := by
  have hooks := SnapsOnly.foldl (fun s (c : Nat × BitVec 64) => snapsOnly_cowHook s (ttePpn c.2))
    ((ttContext (ttEnded s p u) p).filter (fun c => decide (u.vpn ≤ c.1) && decide (c.1 < u.vpn + u.count) && tteValid c.2))
    (ttEnded s p u)
  refine ⟨_, hooks, ?_⟩
  have base := ctxBase_snapsOnly hooks p
  rw [ttFinish, busy]
  refine (if_pos legal).trans ?_
  exact congrArg (fun b => updMs _ (fun m => { m with tt := mreplace m.tt (b + u.vpn) u.count (mofList 0 0 (ttEntries u)) })) base

theorem ttEntries_getElem {i : Nat} (inside : i < u.count) :
    (ttEntries u)[i]?.getD 0 = if tteValid u.entry then u.entry + BitVec.ofNat 64 i else u.entry := by
  rw [ttEntries, List.getElem?_map, List.getElem?_range inside]
  rfl

end

/-! ### Interleave classes -/

section
variable {s : State} {h p : Nat}

theorem classRequest_same {r : Nat} {ranged : Bool} (off v : Nat) (same : regionRanged s r = ranged) :
    classRequest s h p r ranged off v = s := if_pos same

/-- The classes after a request that a whole stripe follows. -/
def stripeSet (s : State) (p r : Nat) (ranged : Bool) : State :=
  updMs s (fun m => { m with regionClass := (stripeOf s p r).foldl (fun t k => mset t 0 k (b2n ranged)) m.regionClass })

theorem classRequest_sets {r : Nat} {ranged : Bool} (off v : Nat) (other : regionRanged s r ≠ ranged) (own : regionPart s r = p)
    (unmapped : ∀ c ∈ s.ms.tt, tteValid c.2 = true → ttePpn c.2 / 2048 ∉ stripeOf s p r) :
    classRequest s h p r ranged off v = stripeSet s p r ranged := by
  have free : s.ms.tt.any (fun c => tteValid c.2 && (stripeOf s p r).contains (ttePpn c.2 / 2048)) = false :=
    List.any_eq_false.2 fun c hc => by
      rw [Bool.and_eq_true, List.contains_iff_mem]
      rintro ⟨valid, mapped⟩
      exact unmapped c hc valid mapped
  exact ((if_neg other).trans (if_neg (not_not.2 own))).trans (if_neg (Bool.eq_false_iff.1 free))

theorem mget_foldl_mset_out {α : Type} [DecidableEq α] (d v : α) {ks : List Nat} {k : Nat} (out : k ∉ ks) (m : Map α) :
    mget (ks.foldl (fun t j => mset t d j v) m) d k = mget m d k := by
  induction ks generalizing m with
  | nil => rfl
  | cons j ks ih =>
    rw [List.mem_cons, not_or] at out
    rw [List.foldl_cons, ih out.2, mget_mset_ne _ _ _ _ _ out.1]

/-- A stripe holds one region of a word of REGION_CLASS at most. -/
theorem regionRanged_stripeSet {r r' : Nat} {ranged : Bool} (near : r' % 92 ≠ r % 92) :
    regionRanged (stripeSet s p r ranged) r' = regionRanged s r' := by
  have out : r' ∉ stripeOf s p r := by
    rw [stripeOf, List.mem_map]
    rintro ⟨k, -, e⟩
    omega
  rw [regionRanged, regionRanged]
  exact congrArg (· == 1) (mget_foldl_mset_out 0 _ out _)

/-- The regions of a word of REGION_CLASS. -/
def wordRegions (w : Nat) : List Nat := ((List.range 32).map (fun b => 32 * w + b)).filter (fun r => decide (r < 1104))

theorem mem_wordRegions {w r : Nat} : r ∈ wordRegions w ↔ ∃ b < 32, r = 32 * w + b ∧ 32 * w + b < 1104 := by
  simp only [wordRegions, List.mem_filter, List.mem_map, List.mem_range, decide_eq_true_eq]
  constructor
  · rintro ⟨⟨b, hb, rfl⟩, small⟩
    exact ⟨b, hb, rfl, small⟩
  · rintro ⟨b, hb, rfl, small⟩
    exact ⟨⟨b, hb, rfl⟩, small⟩

theorem nodup_wordRegions (w : Nat) : (wordRegions w).Nodup :=
  (List.nodup_range.map fun a b e => by simpa using e).filter _

/-- Requests for regions whose class stands change nothing. -/
theorem foldl_classRequest_same {rs : List Nat} {off v : Nat} (same : ∀ r ∈ rs, regionRanged s r = v.testBit (r % 32)) :
    rs.foldl (fun s r => classRequest s h p r (v.testBit (r % 32)) off v) s = s :=
  foldl_eq_self_of_mem fun r hr => classRequest_same off v (same r hr)

/-- Of the requests of a word, the one that differs alone is carried out. -/
theorem foldl_classRequest_one {rs : List Nat} {off v r : Nat} (distinct : rs.Nodup) (hr : r ∈ rs)
    (near : ∀ r' ∈ rs, r' ≠ r → r' % 92 ≠ r % 92) (other : regionRanged s r ≠ v.testBit (r % 32)) (own : regionPart s r = p)
    (same : ∀ r' ∈ rs, r' ≠ r → regionRanged s r' = v.testBit (r' % 32))
    (unmapped : ∀ c ∈ s.ms.tt, tteValid c.2 = true → ttePpn c.2 / 2048 ∉ stripeOf s p r) :
    rs.foldl (fun s r => classRequest s h p r (v.testBit (r % 32)) off v) s = stripeSet s p r (v.testBit (r % 32)) := by
  obtain ⟨before, after, rfl⟩ := List.append_of_mem hr
  have apart : r ∉ before ∧ r ∉ after := by
    rw [List.nodup_append, List.nodup_cons] at distinct
    obtain ⟨-, ⟨later, -⟩, disjoint⟩ := distinct
    exact ⟨fun e => disjoint r e r (by simp) rfl, later⟩
  have differs {r' : Nat} {l : List Nat} (out : r ∉ l) (hr' : r' ∈ l) : r' ≠ r := fun e => out (e ▸ hr')
  rw [List.foldl_append, List.foldl_cons,
    foldl_classRequest_same fun r' hr' => same r' (by simp [hr']) (differs apart.1 hr'), classRequest_sets off v other own unmapped]
  refine foldl_classRequest_same fun r' hr' => ?_
  rw [regionRanged_stripeSet (near r' (by simp [hr']) (differs apart.2 hr'))]
  exact same r' (by simp [hr']) (differs apart.2 hr')

theorem writeRegionClass_eq (hp : hpPart s h = some p) (w v : Nat) : writeRegionClass s h w v =
    (wordRegions w).foldl (fun s r => classRequest s h p r (v.testBit (r % 32)) (0x0800100 + 4 * w) v) s := by
  rw [writeRegionClass, hp]
  rfl

theorem bit_of_region {w b : Nat} (hb : b < 32) : (32 * w + b) % 32 = b := by omega

theorem writeRegionClass_same {w v : Nat} (hp : hpPart s h = some p)
    (same : ∀ b < 32, 32 * w + b < 1104 → regionRanged s (32 * w + b) = v.testBit b) : writeRegionClass s h w v = s := by
  rw [writeRegionClass_eq hp]
  refine foldl_classRequest_same fun r hr => ?_
  obtain ⟨b, hb, rfl, small⟩ := mem_wordRegions.1 hr
  rw [bit_of_region hb, same b hb small]

theorem writeRegionClass_sets {w v b : Nat} (hp : hpPart s h = some p) (hb : b < 32) (small : 32 * w + b < 1104)
    (other : regionRanged s (32 * w + b) ≠ v.testBit b) (own : regionPart s (32 * w + b) = p)
    (same : ∀ b' < 32, b' ≠ b → 32 * w + b' < 1104 → regionRanged s (32 * w + b') = v.testBit b')
    (unmapped : ∀ c ∈ s.ms.tt, tteValid c.2 = true → ttePpn c.2 / 2048 ∉ stripeOf s p (32 * w + b)) :
    writeRegionClass s h w v = stripeSet s p (32 * w + b) (v.testBit b) := by
  have bit := bit_of_region (w := w) hb
  have one := foldl_classRequest_one (h := h) (off := 0x0800100 + 4 * w) (v := v) (nodup_wordRegions w)
    (mem_wordRegions.2 ⟨b, hb, rfl, small⟩) (fun r hr away => ?near) (by rwa [bit]) own (fun r hr away => ?same) unmapped
  case near =>
    obtain ⟨b', hb', rfl, -⟩ := mem_wordRegions.1 hr
    omega
  case same =>
    obtain ⟨b', hb', rfl, small'⟩ := mem_wordRegions.1 hr
    rw [bit_of_region hb']
    exact same b' hb' (fun e => away (by rw [e])) small'
  rw [writeRegionClass_eq hp, one, bit]

end

/-! ### Scale-table entries -/

section
variable {s : State} {h p : Nat}

/-- The scale table's place is read from device registers, which SCT_IDX does not write. -/
theorem regF_setReg_index (v off lo w : Nat) (far : off < 0x0800240 + (1 + p) * 2 ^ 26) :
    regF (setReg s (.part p) 0x0800240 v) .dev off lo w = regF s .dev off lo w := by
  rw [regF, regF, regW, regW]
  exact congrArg (natFld · lo w) (mget_mset_other _ _ _ _ (by simp only [RegInst.key]; omega))

theorem sctSelect_eq (hp : hpPart s h = some p) (v : Nat) : sctSelect s h v =
    updPart (setReg s (.part p) 0x0800240 (v % 2 ^ 16)) p (fun x => { x with
      sctData := scaleE s (sctBase s p + v % 2 ^ 16 % sctSize s p) }) := by
  have base : sctBase (setReg s (.part p) 0x0800240 (v % 2 ^ 16)) p = sctBase s p := regF_setReg_index _ _ _ _ (by omega)
  have size : sctSize (setReg s (.part p) 0x0800240 (v % 2 ^ 16)) p = sctSize s p := regF_setReg_index _ _ _ _ (by omega)
  simp only [sctSelect, hp, scaleIndex, base, size]
  rfl

/-- The entry that SCT_WR writes: the scale, format, margin and FROZEN of its registers, the history cleared where RESET
asks. -/
def sctEntry (e : ScaleEntry) (cur : BitVec 32) (w : Nat) : ScaleEntry :=
  let e := { e with cur := cur, fmt := natFld w 0 4, margin := sext 8 (natFld w 8 8), frozen := natFld w 16 1 == 1 }
  if natFld w 17 1 = 1 then { e with hist := [], hpos := 0, histInf := false, histNan := false, baseStep := 0 } else e

/-- The values that SCT_WR takes. -/
def SctLegal (cur : BitVec 32) (fmt : Nat) (margin : Int) : Prop :=
  1 ≤ fmt ∧ fmt ≤ 4 ∧ -16 ≤ margin ∧ margin ≤ 15 ∧ isPow2 cur = true

theorem sctLegal_iff (cur : BitVec 32) (fmt : Nat) (margin : Int) :
    ¬ (fmt < 1 ∨ 4 < fmt ∨ margin < -16 ∨ 15 < margin ∨ (!isPow2 cur) = true) ↔ SctLegal cur fmt margin := by
  simp only [SctLegal, Bool.not_eq_true', not_or, Nat.not_lt, Int.not_lt, Bool.not_eq_false]

section
variable {cur : BitVec 32} {w i : Nat} (hp : hpPart s h = some p) (hcur : BitVec.ofNat 32 (regW s (.part p) 0x0800244) = cur)
  (hw : regW s (.part p) 0x0800248 = w) (hi : scaleIndex s p (regF s (.part p) 0x0800240 0 16) = i)
include hp hcur hw hi

theorem sctWrite_eq : sctWrite s h =
    if stepActive s p then writeIgnored (updPart s p (fun x => { x with sctStatus := 1 })) h 0x080024C 1 0
    else if natFld w 0 4 < 1 ∨ 4 < natFld w 0 4 ∨ sext 8 (natFld w 8 8) < -16 ∨ 15 < sext 8 (natFld w 8 8) ∨ (!isPow2 cur) = true then
      updPart s p (fun x => { x with sctStatus := 2 })
    else updPart (setScaleE s i (sctEntry (scaleE s i) cur w)) p (fun x => { x with
      sctStatus := 0, sctData := sctEntry (scaleE s i) cur w }) := by
  simp only [sctWrite, hp, hcur, hw, hi]
  rfl

theorem sctWrite_active (active : stepActive s p = true) :
    sctWrite s h = writeIgnored (updPart s p (fun x => { x with sctStatus := 1 })) h 0x080024C 1 0 := by
  rw [sctWrite_eq hp hcur hw hi, if_pos active]

theorem sctWrite_illegal (idle : stepActive s p = false)
    (illegal : ¬ SctLegal cur (natFld w 0 4) (sext 8 (natFld w 8 8))) :
    sctWrite s h = updPart s p (fun x => { x with sctStatus := 2 }) := by
  rw [sctWrite_eq hp hcur hw hi, if_neg (by simp [idle]), if_pos (not_not.1 (mt (sctLegal_iff _ _ _).1 illegal))]

theorem sctWrite_writes (idle : stepActive s p = false) (legal : SctLegal cur (natFld w 0 4) (sext 8 (natFld w 8 8))) :
    sctWrite s h = updPart (setScaleE s i (sctEntry (scaleE s i) cur w)) p (fun x => { x with
      sctStatus := 0, sctData := sctEntry (scaleE s i) cur w }) := by
  rw [sctWrite_eq hp hcur hw hi, if_neg (by simp [idle]), if_neg ((sctLegal_iff _ _ _).2 legal)]

end

end

/-- Settles O31. -/
theorem translationClassesAndScaleEntries : Obligations.TranslationClassesAndScaleEntries := by
  unfold Obligations.TranslationClassesAndScaleEntries
  refine ⟨fun s h p u hawake => ?translation, fun s h p b w v hawake can ready hp => ?tables⟩
  case translation =>
    refine ⟨fun can ready hp => ⟨fun free => ?_, fun busy => ?_⟩, fun idle => ?_, fun busy => ?ends⟩
    · exact done_next hawake ((hostWrite_ready can ready).trans (ttStart_starts hp free))
    · exact done_next hawake ((hostWrite_ready can ready).trans (ttStart_ignored hp busy))
    · exact done_next hawake (ttFinish_none idle)
    case ends =>
      have ended : part (ttEnded s p u) p = { part s p with tt := none, ttStatus := (ttJudge s p u).code } := part_updPart_same _ _ _
      by_cases legal : ttJudge s p u = .done
      · obtain ⟨t, snaps, e⟩ := ttFinish_done busy legal
        have table : t.ms = s.ms := snaps.ms
        refine ⟨_, done_next hawake e, ?_, fun refused => absurd legal refused, fun _ => ⟨fun i inside => ?_, fun k out => ?_, ?_⟩,
          snaps.hps, snaps.regs, snaps.cores⟩
        · rw [updMs_part, snaps.part, ended]
          rfl
        · refine (mget_mreplace _ _ _ _ _ _).trans ?_
          rw [if_pos (by omega), mget_mofList, if_pos (Nat.zero_le _), Nat.add_sub_cancel_left]
          exact ttEntries_getElem inside
        · refine (mget_mreplace _ _ _ _ _ _).trans ?_
          rw [if_neg (by omega), table]
        · rw [← table]
          rfl
      · refine ⟨_, done_next hawake (ttFinish_refused busy legal), ?_, fun _ => ⟨rfl, ?_⟩, fun done => absurd done legal,
          rfl, rfl, rfl⟩
        · rw [snap, ended]
        · rw [snap, ended]
          rfl
  case tables =>
    intro r cur y fmt margin i e e' legal
    have write {off x : Nat} {f : State → State} : hostWrite s h off x f = f s := hostWrite_ready can ready
    refine ⟨fun hb small other own same unmapped => ?_, fun same => ?_, ?_, fun idle legal => ?_, fun idle illegal => ?_,
      fun active => ?_⟩
    · exact done_next hawake (write.trans (writeRegionClass_sets hp hb small other own same unmapped))
    · exact done_next hawake (write.trans (writeRegionClass_same hp same))
    · exact done_next hawake (write.trans (sctSelect_eq hp v.toNat))
    · exact done_next hawake (write.trans (sctWrite_writes hp rfl rfl rfl idle legal))
    · exact done_next hawake (write.trans (sctWrite_illegal hp rfl rfl rfl idle illegal))
    · exact done_next hawake (write.trans (sctWrite_active hp rfl rfl rfl active))

end Sys2Proof.Machine
end

section
/-! The ingress of a fabric port (10 R296, R304, R305; 11 R345, R348, R353). -/

namespace Sys2Proof.Machine

/-! ### The fabric packet rows -/

/-- The packet that a row of the table receives: with the row's sub-code, where it names one. -/
def rowPacket (sub : Option Nat) (raw : Packet) : Packet :=
  match sub with
  | some k => { raw with sub := k }
  | none => raw

theorem exec_fabricRow (s : State) (j : PortId) (raw : Packet) :
    ∀ r ∈ fabricRows, exec (r.1 j raw) s = done s (receive s j r.2.1 (rowPacket r.2.2 raw)) := by
  simp only [fabricRows, List.cons_append, List.nil_append, List.forall_mem_cons, List.not_mem_nil, false_imp_iff,
    implies_true, and_true]
  exact ⟨rfl, rfl, rfl, rfl, rfl, rfl, rfl, rfl, rfl, rfl, rfl, rfl, rfl, rfl, rfl, rfl, rfl, rfl, rfl, rfl, rfl, rfl, rfl, rfl,
    rfl, rfl⟩

/-! ### Arrival at a port -/

section
variable {s : State} {j p t rank : Nat} {pk : Packet}

theorem receive_idle (hp : portPart s j = some p) (idle : (port s j).state ≠ 5 ∨ (proof s p).slice = 9) :
    receive s j t pk = s := by
  rw [receive, hp]
  exact if_pos idle

section
variable (hp : portPart s j = some p) (active : (port s j).state = 5) (live : (proof s p).slice ≠ 9)
include hp active live

theorem receive_active :
    receive s j t pk = if isFabric j then
      if vcHeld s p j pk.vc then updXport s p (fun x => { x with held := x.held ++ [⟨j, t, pk, 0, false⟩] })
      else ingress s p j t pk
    else reservedIngress s p j t pk := by
  rw [receive, hp]
  exact if_neg (by rintro (h | h) <;> contradiction)

theorem receive_behind (fabric : isFabric j = true) (held : vcHeld s p j pk.vc = true) :
    receive s j t pk = updXport s p (fun x => { x with held := x.held ++ [⟨j, t, pk, 0, false⟩] }) := by
  rw [receive_active hp active live, if_pos fabric, if_pos held]

theorem receive_fabric (fabric : isFabric j = true) (free : vcHeld s p j pk.vc = false) :
    receive s j t pk = ingress s p j t pk := by
  rw [receive_active hp active live, if_pos fabric, if_neg (by simp [free])]

theorem receive_reserved (other : isFabric j = false) : receive s j t pk = reservedIngress s p j t pk := by
  rw [receive_active hp active live, if_neg (by simp [other])]

end

theorem receive_atIngress (at_ : AtIngress s j p pk) : receive s j t pk = ingress s p j t pk := by
  obtain ⟨-, hp, active, live, fabric, free⟩ := at_
  exact receive_fabric hp active live fabric free

/-! ### The checks of R304 -/

theorem ingress_dropped {c : Nat} (bad : screen s p t pk = .error c) : ingress s p j t pk = dropPacket s p j c t pk := by
  rw [ingress, bad]

section
variable (vc : vcOk t pk.vc = true)
include vc

theorem screen_address (bad : rankOfDev s p pk.src = none ∨ ¬ (pk.dst = devId s p ∨ (t = 0x20 ∧ pk.dst = 0xFFFFF))) :
    screen s p t pk = .error 2 := by
  rw [screen, if_neg (by simp [vc])]
  cases known : rankOfDev s p pk.src with
  | none => rfl
  | some r =>
    refine if_pos (not_or.1 (bad.resolve_left ?_))
    simp [known]

section
variable (known : rankOfDev s p pk.src = some rank) (mine : pk.dst = devId s p ∨ (t = 0x20 ∧ pk.dst = 0xFFFFF))
include known mine

theorem screen_tagged :
    screen s p t pk = if pk.imptag ≠ sliceCrc s p % 2 ^ 32 then .error 3 else .ok rank := by
  rw [screen, if_neg (by simp [vc]), known]
  exact if_neg (not_and_or.2 (mine.imp not_not_intro not_not_intro))

theorem screen_tag (bad : pk.imptag ≠ sliceCrc s p % 2 ^ 32) : screen s p t pk = .error 3 :=
  (screen_tagged vc known mine).trans (if_pos bad)

theorem screen_ok (tag : pk.imptag = sliceCrc s p % 2 ^ 32) : screen s p t pk = .ok rank :=
  (screen_tagged vc known mine).trans (if_neg (not_not_intro tag))

end

end

theorem screen_channel (bad : vcOk t pk.vc = false) : screen s p t pk = .error 1 := if_pos (by simp [bad])

/-! ### A packet that passes them, by generation -/

section
variable (arrives : Arrives s j p rank t pk)
include arrives

theorem Arrives.awake : awake s = true := arrives.1.1

theorem Arrives.ingress :
    receive s j t pk = if t = 0x20 ∨ pk.gen = genOf s p then deliver s p j rank t pk
      else if t = 0x22 ∨ t = 0x24 ∨ pk.gen < genOf s p then dropPacket s p j 4 t pk
      else updXport s p (fun x => { x with held := x.held ++ [⟨j, t, pk, 0, true⟩] }) := by
  obtain ⟨at_, vc, known, mine, tag⟩ := arrives
  rw [receive_atIngress at_, Machine.ingress, screen_ok vc known mine tag]

theorem Arrives.deliver (own : t = 0x20 ∨ pk.gen = genOf s p) : receive s j t pk = deliver s p j rank t pk :=
  arrives.ingress.trans (if_pos own)

section
variable (press : t ≠ 0x20)
include press

theorem Arrives.drop_older (old : pk.gen < genOf s p) : receive s j t pk = dropPacket s p j 4 t pk :=
  arrives.ingress.trans ((if_neg (not_or.2 ⟨press, by omega⟩)).trans (if_pos (.inr (.inr old))))

theorem Arrives.drop_newer (new : genOf s p < pk.gen) (vote : t = 0x22 ∨ t = 0x24) :
    receive s j t pk = dropPacket s p j 4 t pk :=
  arrives.ingress.trans ((if_neg (not_or.2 ⟨press, by omega⟩)).trans (if_pos (vote.imp_right .inl)))

theorem Arrives.hold (new : genOf s p < pk.gen) (vote : t ≠ 0x22) (digest : t ≠ 0x24) :
    receive s j t pk = updXport s p (fun x => { x with held := x.held ++ [⟨j, t, pk, 0, true⟩] }) :=
  arrives.ingress.trans ((if_neg (not_or.2 ⟨press, by omega⟩)).trans
    (if_neg (not_or.2 ⟨vote, not_or.2 ⟨digest, by omega⟩⟩)))

end

end

/-! ### Dropped and held packets -/

/-- The counters of a partition's transport after a drop of a kind (R304). -/
def dropCounted (kind : Nat) (x : Xport) : Xport :=
  let up (n : Nat) : Nat := min (n + 1) (2 ^ 64 - 1)
  { x with
    dropType := if kind = 1 then up x.dropType else x.dropType, dropAddr := if kind = 2 then up x.dropAddr else x.dropAddr
    dropTag := if kind = 3 then up x.dropTag else x.dropTag, dropGen := if kind = 4 then up x.dropGen else x.dropGen
    dropsSeen := sins x.dropsSeen kind }

theorem dropPacket_eq (s : State) (p j kind t : Nat) (pk : Packet) :
    dropPacket s p j kind t pk =
      if !(xport s p).dropsSeen.contains kind then
        record (updXport s p (dropCounted kind)) p (ucPort j) operLink 0x0035
          (leBytes 1 kind ++ leBytes 1 t ++ leBytes 3 pk.src ++ leBytes 3 pk.gen)
      else updXport s p (dropCounted kind) := rfl

theorem reports_dropPacket (s : State) (p j kind t : Nat) (pk : Packet) :
    Reports (updXport s p (dropCounted kind)) (dropPacket s p j kind t pk) := by
  rw [dropPacket_eq]
  split
  · exact reports_record ..
  · exact .refl _

theorem dropPacket_seen {kind : Nat} (seen : kind ∈ (xport s p).dropsSeen) :
    dropPacket s p j kind t pk = updXport s p (dropCounted kind) := by
  rw [dropPacket_eq, if_neg (by simp [seen])]

theorem part_dropPacket (kind : Nat) :
    part (dropPacket s p j kind t pk) p = { part s p with xport := dropCounted kind (xport s p) } := by
  rw [(reports_dropPacket s p j kind t pk).part, updXport, part_updPart_same]
  rfl

theorem dropHeld_found {vc : Nat} {e : Held} (hp : portPart s j = some p)
    (found : (xport s p).held.find? (fun h => h.port == j && h.pk.vc == vc) = some e) :
    dropHeld s j vc = dropPacket (freeBuffers (updXport s p (fun x => { x with held := x.held.erase e })) j vc e.flits)
      p j 4 e.ptype e.pk := by
  simp only [dropHeld, hp, found]

theorem dropHeld_none {vc : Nat} (hp : portPart s j = some p) (absent : ∀ h ∈ (xport s p).held, h.port ≠ j ∨ h.pk.vc ≠ vc) :
    dropHeld s j vc = s := by
  have none_ : (xport s p).held.find? (fun h => h.port == j && h.pk.vc == vc) = none :=
    List.find?_eq_none.2 fun h hh => by
      rcases absent h hh with away | away <;> simp [away]
  simp only [dropHeld, hp, none_]

end

/-- Settles O33. -/
theorem fabricIngress : Obligations.FabricIngress := by
  unfold Obligations.FabricIngress
  refine ⟨?_, ?_⟩
  · intro s j p raw r hr t pk cmd hold mine
    have row : exec cmd s = done s (receive s j t pk) := exec_fabricRow s j raw r hr
    have ends {u : State} (hawake : awake s = true) (e : receive s j t pk = u) : Ends cmd s u :=
      row.trans (done_next hawake e)
    refine ⟨fun at_ => ⟨fun vc => ?_, fun vc bad => ?_, fun vc known ours tag => ?_⟩, fun rank arrives => ⟨?_, ?_, ?_, ?_⟩, ?_, ?_⟩
    · exact ends at_.1 ((receive_atIngress at_).trans (ingress_dropped (screen_channel vc)))
    · exact ends at_.1 ((receive_atIngress at_).trans (ingress_dropped (screen_address vc bad)))
    · obtain ⟨rank, known⟩ := Option.ne_none_iff_exists'.1 known
      exact ends at_.1 ((receive_atIngress at_).trans (ingress_dropped (screen_tag vc known ours tag)))
    · exact fun own => ends arrives.awake (arrives.deliver own)
    · exact fun press old => ends arrives.awake (arrives.drop_older press old)
    · exact fun press new vote => ends arrives.awake (arrives.drop_newer press new vote)
    · exact fun press new vote digest => ends arrives.awake (arrives.hold press new vote digest)
    · exact fun hawake hp idle => ends hawake (receive_idle hp idle)
    · exact fun hawake hp active live fabric held => ends hawake (receive_behind hp active live fabric held)
  · intro s p j kind t pk k vc e up x d
    have entry := part_dropPacket (s := s) (p := p) (j := j) (t := t) (pk := pk) kind
    refine ⟨?_, fun seen => ?_, ?_, ?_, fun hawake hp found => ?_, fun hawake hp absent => ?_⟩
    · exact congrArg Part.xport entry
    · show (dropPacket s p j kind t pk).evr = s.evr
      rw [dropPacket_seen seen]
      rfl
    · exact (reports_dropPacket s p j kind t pk).ms
    · exact (congrArg Part.proof entry : _)
    · exact done_next hawake (dropHeld_found hp found)
    · exact done_next hawake (dropHeld_none hp absent)

end Sys2Proof.Machine
end

section
/-! Remote access packets, collective packets and PLANES (10 R308, R311 to R314). -/

namespace Sys2Proof.Machine

/-- A fabric packet row whose packet is delivered. -/
theorem Arrives.ends {s u : State} {i : Instr} {j p rank t : Nat} {pk : Packet} (arrives : Arrives s j p rank t pk)
    (own : t = 0x20 ∨ pk.gen = genOf s p) (row : exec i s = done s (receive s j t pk))
    (e : Machine.deliver s p j rank t pk = u) : Ends i s u :=
  row.trans (done_next arrives.awake ((arrives.deliver own).trans e))

/-! ### Remote access -/

section
variable {s : State} {p rank vc : Nat} {pk : Packet} {r : Rma}

/-- A target refuses an access, for a reason. -/
def refuseRma (s : State) (p rank : Nat) (pk : Packet) (why : Nat) : State :=
  sendRank (updXport s p (fun x => { x with refused := min (x.refused + 1) (2 ^ 64 - 1) })) p rank 0x03 2 why pk.group pk.addr
    pk.msg (.clean [])

theorem recvRmaOpen_outOfScope (bad : scopeOk s p .peer (pk.sub == 0) pk.addr (leAt pk.data 0 8) = false) :
    recvRmaOpen s p rank vc pk = refuseRma s p rank pk 1 := if_pos (by simp [bad])

section
variable (inside : scopeOk s p .peer (pk.sub == 0) pk.addr (leAt pk.data 0 8) = true)
include inside

theorem recvRmaOpen_fenced (fenced : fencedMem s p pk.addr (leAt pk.data 0 8) = true) :
    recvRmaOpen s p rank vc pk = refuseRma s p rank pk 2 :=
  (if_neg (by simp [inside])).trans (if_pos fenced)

variable (free : fencedMem s p pk.addr (leAt pk.data 0 8) = false)
include free

theorem recvRmaOpen_put (put : pk.sub = 0) :
    recvRmaOpen s p rank vc pk = sendRank (updXport s p (fun x => { x with rmas := x.rmas ++ [
      { msg := pk.msg, peer := rank, origin := false, isPut := true, addr := pk.addr, remote := 0
        count := leAt pk.data 0 8, done := 0, poison := false, vc := 0 }] })) p rank 0x02 2 0 pk.group pk.addr pk.msg (.clean []) :=
  (if_neg (by simp [inside])).trans ((if_neg (by simp [free])).trans (if_pos (by simp [put])))

theorem recvRmaOpen_get (get : pk.sub ≠ 0) (unmet : NoneInjected s) :
    recvRmaOpen s p rank vc pk = sendBytes s p rank 0x04 vc 0 pk.group 0 pk.msg (vread s p pk.addr (leAt pk.data 0 8)) := by
  refine (if_neg (by simp [inside])).trans ((if_neg (by simp [free])).trans ((if_neg (by simp [get])).trans ?_))
  rw [touch_clean unmet]

end

section
variable (known : rmaOf s p rank pk.msg true = some r)
include known

theorem recvRmaGrant_put (put : r.isPut = true) (fresh : r.done = 0) :
    recvRmaGrant s p rank pk = sendBytes (updRma s p r (fun y => { y with
      done := r.count, poison := (vread s p r.addr r.count).bad })) p rank 0x04 r.vc 0 pk.group r.remote r.msg
      (vread s p r.addr r.count) := by
  rw [recvRmaGrant, known]
  exact if_pos (by simp [put, fresh])

theorem recvRmaRefuse_known :
    recvRmaRefuse s p rank pk = finishRma s p r (if pk.sub = 2 then .fenced else .outOfScope) := by
  rw [recvRmaRefuse, known]

theorem recvRmaAck_put (put : r.isPut = true) :
    recvRmaAck s p rank pk = finishRma s p r (if r.poison then .poisoned else .done) := by
  rw [recvRmaAck, known]
  exact if_pos put

end

section
variable (target : rmaOf s p rank pk.msg false = some r)
include target

theorem recvRmaData_target_more (more : r.done + pk.data.length < r.count) :
    recvRmaData s p rank pk =
      updRma (peerWrite s p pk.addr ⟨pk.data, pk.poison⟩) p r (fun y => { y with done := r.done + pk.data.length }) := by
  rw [recvRmaData, target]
  exact if_neg (by omega)

theorem recvRmaData_target_last (last : r.count ≤ r.done + pk.data.length) :
    recvRmaData s p rank pk = sendRank (dropRma (peerWrite s p pk.addr ⟨pk.data, pk.poison⟩) p r) p rank 0x06 2 0 pk.group
      pk.addr pk.msg (.clean []) := by
  rw [recvRmaData, target]
  exact if_pos last

end

section
variable (absent : rmaOf s p rank pk.msg false = none) (origin : rmaOf s p rank pk.msg true = some r) (get : r.isPut = false)
include absent origin get

theorem recvRmaData_origin_more (more : r.done + pk.data.length < r.count) :
    recvRmaData s p rank pk = updRma (peerWrite s p (r.addr + pk.addr) ⟨pk.data, pk.poison⟩) p r (fun y => { y with
      done := r.done + pk.data.length, poison := r.poison || (⟨pk.data, pk.poison⟩ : Blob).bad }) := by
  rw [recvRmaData, absent, origin]
  exact (if_neg (by simp [get])).trans (if_neg (by omega))

theorem recvRmaData_origin_last (last : r.count ≤ r.done + pk.data.length) :
    recvRmaData s p rank pk = finishRma (peerWrite s p (r.addr + pk.addr) ⟨pk.data, pk.poison⟩) p r
      (if r.poison || (⟨pk.data, pk.poison⟩ : Blob).bad then .poisoned else .done) := by
  rw [recvRmaData, absent, origin]
  exact (if_neg (by simp [get])).trans (if_pos last)

end

end

/-- Settles O34. -/
theorem remoteAccessPackets : Obligations.RemoteAccessPackets := by
  unfold Obligations.RemoteAccessPackets
  intro s j p rank pk r own n put b src refused
  refine ⟨fun at_ => ⟨fun bad => ?_, fun inside fenced => ?_, fun inside free put_ => ?_, fun inside free get unmet => ?_⟩,
    fun at_ known put_ fresh => ?_, fun at_ known => ?_, fun at_ target => ⟨fun more => ?_, fun last => ?_⟩,
    fun at_ absent origin get => ⟨fun more => ?_, fun last => ?_⟩, fun at_ known put_ => ?_⟩
  · exact at_.ends (.inr own) rfl (recvRmaOpen_outOfScope bad)
  · exact at_.ends (.inr own) rfl (recvRmaOpen_fenced inside fenced)
  · exact at_.ends (.inr own) rfl (recvRmaOpen_put inside free put_)
  · exact at_.ends (.inr own) rfl (recvRmaOpen_get inside free get unmet)
  · exact at_.ends (.inr own) rfl (recvRmaGrant_put known put_ fresh)
  · exact at_.ends (.inr own) rfl (recvRmaRefuse_known known)
  · exact at_.ends (.inr own) rfl (recvRmaData_target_more target more)
  · exact at_.ends (.inr own) rfl (recvRmaData_target_last target last)
  · exact at_.ends (.inr own) rfl (recvRmaData_origin_more absent origin get more)
  · exact at_.ends (.inr own) rfl (recvRmaData_origin_last absent origin get last)
  · exact at_.ends (.inr own) rfl (recvRmaAck_put known put_)

/-! ### Collectives -/

section
variable {s : State} {p rank k i : Nat} {pk : Packet} {c : Coll}

/-- COLL_READYs of a family counted from a rank: the position of its next one. -/
def readyPos (s : State) (p g rank : Nat) : Nat :=
  match (xport s p).readyCount.find? (fun c => c.1 == g && c.2.1 == rank) with
  | some c => c.2.2
  | none => 0

/-- A COLL_READY counted: the sender's `k`-th of the family (R314). -/
def readyCounted (s : State) (p g rank k : Nat) : State :=
  updXport s p (fun x => { x with
    readyCount := x.readyCount.filter (fun c => !(c.1 == g && c.2.1 == rank)) ++ [(g, rank, k + 1)] })

theorem colls_readyCounted (g : Nat) : (xport (readyCounted s p g rank k) p).colls = (xport s p).colls := by
  rw [xport, readyCounted, updXport, part_updPart_same]
  rfl

theorem recvReady_eq (pos : readyPos s p pk.group rank = k) :
    recvReady s p rank pk = match (xport s p).colls.find? (fun c => c.family == pk.group && c.pos == k) with
      | some c => judgeReady (readyCounted s p pk.group rank k) p c.id rank pk.msg pk.data
      | none => updXport (readyCounted s p pk.group rank k) p (fun x => { x with
          early := x.early ++ [⟨pk.group, rank, k, pk.msg, pk.data⟩] }) := by
  subst pos
  rw [← colls_readyCounted pk.group (k := readyPos s p pk.group rank)]
  rfl

section
variable (pos : readyPos s p pk.group rank = k)
include pos

theorem recvReady_judged (own : (xport s p).colls.find? (fun c => c.family == pk.group && c.pos == k) = some c) :
    recvReady s p rank pk = judgeReady (readyCounted s p pk.group rank k) p c.id rank pk.msg pk.data := by
  rw [recvReady_eq pos, own]

theorem recvReady_early (absent : (xport s p).colls.find? (fun c => c.family == pk.group && c.pos == k) = none) :
    recvReady s p rank pk = updXport (readyCounted s p pk.group rank k) p (fun x => { x with
      early := x.early ++ [⟨pk.group, rank, k, pk.msg, pk.data⟩] }) := by
  rw [recvReady_eq pos, absent]

end

theorem judgeReady_mismatch {cseq : Nat} {data : Bytes} (known : collOf s p c.id = some c)
    (other : readyMatches c.desc cseq data = false) (ofStep : c.step ≠ none) :
    judgeReady s p c.id rank cseq data =
      raise (updColl s p c.id (fun c => { c with mismatch := true })) p 0x08 (proof s p).openStep (ucXport p) := by
  obtain ⟨n, step⟩ := Option.ne_none_iff_exists'.1 ofStep
  rw [judgeReady, known]
  refine (if_neg (by simp [other])).trans ?_
  rw [step]

theorem recvCollData_found
    (found : (xport s p).colls.find? (fun c => c.family == pk.group && coCseq c.desc == pk.msg) = some c)
    (sender : (groupRanks s p c.family).findIdx? (· == rank) = some i) :
    recvCollData s p rank pk =
      tryFinishColl (updColl s p c.id (fun c => addData c i pk.addr ⟨pk.data, pk.poison⟩)) p c.id := by
  simp only [recvCollData, found, sender]

end

/-- Settles O35. -/
theorem collectivePackets : Obligations.CollectivePackets := by
  unfold Obligations.CollectivePackets
  intro s j p rank k i pk c own x counted
  refine ⟨fun at_ pos => ⟨fun mine => ?_, fun absent => ?_⟩, fun known other ofStep => ?_, fun at_ found sender => ?_, fun at_ => ?_⟩
  · exact at_.ends (.inr own) rfl (recvReady_judged pos mine)
  · exact at_.ends (.inr own) rfl (recvReady_early pos absent)
  · exact judgeReady_mismatch known other ofStep
  · exact at_.ends (.inr own) rfl (recvCollData_found found sender)
  · exact at_.ends (.inr own) rfl rfl

end Sys2Proof.Machine
end

section
/-! Reserved-role ports, and the timers of drains and restores (10 R319 to R325; 12 R377 to R380). -/

namespace Sys2Proof.Machine

/-- The function of a message of a reserved-role port, by its type. -/
def handleReserved (s : State) (p j t : Nat) (pk : Packet) : State :=
  match t with
  | 0x41 => recvDrReady s p j pk
  | 0x43 => recvDrDurable s p j pk
  | 0x45 => recvDrCommitted s p pk
  | 0x46 => recvDrError s p j pk
  | 0x49 => recvRdData s p pk
  | 0x4A => recvRdEnd s p pk
  | 0x50 => recvHsWrite s p j pk
  | 0x52 => recvHsRead s p j pk
  | _ => s

theorem receive_handled {s : State} {j p t role : Nat} {pk : Packet} (arrives : ArrivesReserved s j p t role pk) :
    receive s j t pk = handleReserved s p j t pk := by
  obtain ⟨-, hp, active, live, other, isRole, vc, peer, dst, family⟩ := arrives
  obtain ⟨i, hpeer, hid⟩ := Option.map_eq_some_iff.1 peer
  have known : ((port s j).peer.all (fun i => i.id != pk.src) || pk.dst != devId s p) = false := by simp [hpeer, hid, dst]
  rw [receive_reserved hp active live other, reservedIngress.eq_def, vc, isRole, if_neg, known, if_neg Bool.false_ne_true]
  · rfl
  · rcases family with ⟨rfl, low, high⟩ | ⟨rfl, low, high⟩ <;> simp [low, high]

/-- A message of a reserved-role port that is handled. -/
theorem ArrivesReserved.ends {s u : State} {i : Instr} {j p t role : Nat} {pk : Packet}
    (arrives : ArrivesReserved s j p t role pk) (row : exec i s = done s (receive s j t pk)) (e : handleReserved s p j t pk = u) :
    Ends i s u := row.trans (done_next arrives.1 ((receive_handled arrives).trans e))

section
variable {s : State} {p j : Nat} {pk : Packet} {d : Drain} {r : Restoring}

/-! ### The window of a hostside port -/

theorem recvHsWrite_frozen (frozen : (port s j).frozen = true) : recvHsWrite s p j pk = hsError s p j 2 pk.msg := if_pos frozen

section
variable (free : (port s j).frozen = false)
include free

theorem recvHsWrite_inside (inside : hsOk s p true pk.addr pk.data.length = true) :
    recvHsWrite s p j pk = sendReserved (vwrite s p (regF s (.part p) 0x0204030 0 28 * pageSize + pk.addr)
      ⟨pk.data, pk.poison⟩) p j 0x51 0 0 pk.msg (.clean []) :=
  (if_neg (by simp [free])).trans (if_pos inside)

theorem recvHsWrite_outside (outside : hsOk s p true pk.addr pk.data.length = false) :
    recvHsWrite s p j pk =
      hsError (freezeHs s p j (regF s (.part p) 0x0204030 0 28 * pageSize + pk.addr)) p j 1 pk.msg :=
  (if_neg (by simp [free])).trans (if_neg (by simp [outside]))

theorem recvHsRead_inside (some_ : 0 < leAt pk.data 0 2) (small : leAt pk.data 0 2 ≤ 4096)
    (inside : hsOk s p false pk.addr (leAt pk.data 0 2) = true) (unmet : NoneInjected s) :
    recvHsRead s p j pk = sendReserved s p j 0x53 0 pk.addr pk.msg
      (vread s p (regF s (.part p) 0x0204030 0 28 * pageSize + pk.addr) (leAt pk.data 0 2)) := by
  refine (if_neg (by simp [free])).trans ((if_pos (by simp [inside, some_, small])).trans ?_)
  rw [touch_clean unmet]

theorem recvHsRead_outside (outside : hsOk s p false pk.addr (leAt pk.data 0 2) = false) :
    recvHsRead s p j pk =
      hsError (freezeHs s p j (regF s (.part p) 0x0204030 0 28 * pageSize + pk.addr)) p j 1 pk.msg :=
  (if_neg (by simp [free])).trans (if_neg (by simp [outside]))

end

/-! ### A storage gateway's messages -/

section
variable (open_ : drainOf s p pk.msg = some d)
include open_

theorem recvDrReady_selected (selected : j ∈ d.ports) :
    recvDrReady s p j pk = moveDrain (updDrain s p d.msg (fun d => { d with ready := sins d.ready j })) p d.msg := by
  rw [recvDrReady, open_]
  exact if_pos (by simp [selected])

theorem recvDrCommitted_manifest (manifest : d.manifest = true) : recvDrCommitted s p pk = endDrain s p d .done := by
  rw [recvDrCommitted, open_]
  exact if_pos manifest

theorem recvDrError_drain : recvDrError s p j pk = abortDrain s p d := by rw [recvDrError, open_]

end

theorem recvDrDurable_drain (flying : drainFor s p j pk = some d) :
    recvDrDurable s p j pk =
      moveDrain (updDrain s p d.msg (fun d => { d with flying := d.flying.filter (fun x => x.1 != pk.addr) })) p d.msg := by
  rw [recvDrDurable, flying]

section
variable (restoring : (snap s p).restoring = some r) (storage : r.storage = true) (loading : r.filling = false)
include restoring storage loading

theorem recvRdData_restoring :
    recvRdData s p pk = updSnap s p (fun x => { x with
      restoring := some { r with data := wrBytes r.data pk.addr pk.data, bad := pzAfter r.bad pk.addr ⟨pk.data, pk.poison⟩ } }) := by
  rw [recvRdData, restoring]
  exact if_pos (by simp [storage, loading])

/-- The state in which one more chunk of the object is here. -/
def chunkHere (s : State) (p : Nat) (r : Restoring) : State :=
  updSnap s p (fun x => { x with restoring := some { r with chunks := r.chunks + 1 } })

theorem recvRdEnd_chunk {m : Bytes} (manifest : r.manifest = some m) (next : pk.addr = r.chunks) :
    recvRdEnd s p pk = if leAt m 40 4 ≤ r.chunks + 1 then restoreObject (chunkHere s p r) p { r with chunks := r.chunks + 1 } m
      else requestChunk (chunkHere s p r) p { r with chunks := r.chunks + 1 } false (r.chunks + 1) := by
  simp only [recvRdEnd, restoring]
  refine (if_neg (by simp [storage, loading])).trans ?_
  split
  · next absent => simp [absent] at manifest
  · next m' present =>
    cases manifest.symm.trans present
    exact if_pos next

end

/-! ### The timers -/

theorem resendChunk_flying {i k : Nat} (found : (snap s p).drains.find? (fun d => d.flying.any (fun x => x.1 == i)) = some d)
    (chunk : d.flying.find? (fun x => x.1 == i) = some (i, k)) :
    resendChunk s p i = sendChunk (updDrain s p d.msg (fun y => { y with flying := y.flying.map (fun x =>
        if x.1 = i then (i, (d.ports.filter (fun l => l != k && (port s l).state == 5)).headD k) else x) }))
      p d i ((d.ports.filter (fun l => l != k && (port s l).state == 5)).headD k) := by
  rw [resendChunk, found]
  simp only [chunk]

theorem resendChunk_none {i : Nat} (absent : (snap s p).drains.find? (fun d => d.flying.any (fun x => x.1 == i)) = none) :
    resendChunk s p i = s := by rw [resendChunk, absent]

theorem committedTimeout_manifest (found : (snap s p).drains.find? (·.manifest) = some d) :
    committedTimeout s p = abortDrain s p d := by rw [committedTimeout, found]

theorem committedTimeout_none (absent : (snap s p).drains.find? (·.manifest) = none) : committedTimeout s p = s := by
  rw [committedTimeout, absent]

theorem partnerTimeout_filling (restoring : (snap s p).restoring = some r) (filling : r.filling = true) :
    partnerTimeout s p = failRestore s p := by
  rw [partnerTimeout, restoring]
  exact if_pos filling

theorem partnerTimeout_idle (idle : (snap s p).restoring = none ∨ ∃ r, (snap s p).restoring = some r ∧ r.filling = false) :
    partnerTimeout s p = s := by
  rw [partnerTimeout]
  rcases idle with idle | ⟨r, restoring, loading⟩
  · rw [idle]
  · rw [restoring]
    exact if_neg (by simp [loading])

end

/-- Settles O36. -/
theorem reservedRolePackets : Obligations.ReservedRolePackets := by
  unfold Obligations.ReservedRolePackets
  refine ⟨?_, ?_⟩
  · intro s j p pk d r va n
    refine ⟨fun at_ => ?_, fun at_ free some_ small => ?_, fun at_ open_ selected => ?_, fun at_ flying => ?_,
      fun at_ open_ manifest => ?_, fun at_ open_ => ?_, fun at_ restoring storage loading => ?_, ?_⟩
    · refine ⟨fun frozen => ?_, fun free inside => ?_, fun free outside => ?_⟩
      · exact at_.ends rfl (recvHsWrite_frozen frozen)
      · exact at_.ends rfl (recvHsWrite_inside free inside)
      · exact at_.ends rfl (recvHsWrite_outside free outside)
    · refine ⟨fun inside unmet => ?_, fun outside => ?_⟩
      · exact at_.ends rfl (recvHsRead_inside free some_ small inside unmet)
      · exact at_.ends rfl (recvHsRead_outside free outside)
    · exact at_.ends rfl (recvDrReady_selected open_ selected)
    · exact at_.ends rfl (recvDrDurable_drain flying)
    · exact at_.ends rfl (recvDrCommitted_manifest open_ manifest)
    · exact at_.ends rfl (recvDrError_drain open_)
    · exact at_.ends rfl (recvRdData_restoring restoring storage loading)
    · intro m at_ restoring storage loading manifest next r' t
      exact at_.ends rfl (recvRdEnd_chunk restoring storage loading manifest next)
  · intro s p i j d r hawake others
    refine ⟨fun found chunk => ?_, fun absent => ?_, fun found => ?_, fun absent => ?_, fun restoring filling => ?_,
      fun idle => ?_⟩
    · exact done_next hawake (resendChunk_flying found chunk)
    · exact done_next hawake (resendChunk_none absent)
    · exact done_next hawake (committedTimeout_manifest found)
    · exact done_next hawake (committedTimeout_none absent)
    · exact done_next hawake (partnerTimeout_filling restoring filling)
    · exact done_next hawake (partnerTimeout_idle idle)

end Sys2Proof.Machine
end

section
/-! Votes, pulses, digests and sample recomputations (11 R334 to R337, R341, R344). -/

namespace Sys2Proof.Machine

section
variable {s : State} {p rank : Nat} {pk : Packet}

/-! ### Votes and pulses -/

theorem recvVote_up (up : pk.sub = 0) (child : rank ∈ childrenOf s p) (new : (pk.addr, rank) ∉ (proof s p).ups) :
    recvVote s p rank pk = updProof s p (fun x => { x with ups := x.ups ++ [(pk.addr, rank)] }) := by
  rw [recvVote.eq_def, up]
  exact if_pos (by simp [child, new])

theorem recvVote_up_ignored (up : pk.sub = 0) (not_ : rank ∉ childrenOf s p ∨ (pk.addr, rank) ∈ (proof s p).ups) :
    recvVote s p rank pk = s := by
  rw [recvVote.eq_def, up]
  exact if_neg (by simpa [or_iff_not_imp_left] using not_)

theorem recvVote_proven (down : pk.sub = 1) (member : 0 < ownRank s p) (parent : rank = parentRank s p)
    (computed : ∃ r, stepRec s p pk.addr = some r ∧ r.state = 2) :
    recvVote s p rank pk = forwardProven (proveStep s p pk.addr) p pk.addr := by
  obtain ⟨r, known, state⟩ := computed
  rw [recvVote.eq_def, down]
  exact if_pos ⟨member, parent, by simp [known, state]⟩

theorem recvVote_proven_ignored (down : pk.sub = 1) (other : ownRank s p = 0 ∨ rank ≠ parentRank s p) :
    recvVote s p rank pk = s := by
  rw [recvVote.eq_def, down]
  refine if_neg ?_
  rintro ⟨member, parent, -⟩
  exact other.elim (by omega) (· parent)

theorem recvVote_pulse (pulse : pk.sub = 2) :
    recvVote s p rank pk = updProof s p (fun x => { x with heard := sins x.heard rank }) := by
  rw [recvVote.eq_def, pulse]
  rfl

theorem sendPulses_running (running : (proof s p).slice = 1) :
    sendPulses s p = (neighbours s p).foldl (fun s d => sendRank s p d 0x22 1 2 0 0 0 (.clean [])) s := if_pos running

theorem sendPulses_idle (idle : (proof s p).slice ≠ 1) : sendPulses s p = s := if_neg idle

theorem loseNeighbour_heard (running : (proof s p).slice = 1) (near : rank ∈ neighbours s p) (heard : rank ∈ (proof s p).heard) :
    loseNeighbour s p rank = raiseStrikes s p 0x19 (ucXport p) [⟨rank, false, false, true, 0x19⟩] :=
  if_pos ⟨running, by simpa using near, by simpa using heard⟩

theorem loseNeighbour_idle (idle : (proof s p).slice ≠ 1) : loseNeighbour s p rank = s := if_neg fun ⟨running, _⟩ => idle running

/-! ### Digests -/

theorem recvDigest_facing (facing : hasFacing s p = true) (from_ : rank = facingRank s p) (sub : pk.sub ≤ 1) {v : DigestVal}
    (value : v = ⟨pk.addr, pk.sub, false, BitVec.ofNat 64 (leAt pk.data 0 8), leAt pk.data 8 4, (leAt pk.data 12 1).testBit 0⟩) :
    recvDigest s p rank pk = checkDigests (updMirror s p (fun y => { y with
      digests := y.digests.filter (fun d => !(d.step == v.step && d.sub == v.sub && !d.own)) ++ [v] })) p pk.addr (1 - pk.sub) := by
  subst value
  exact if_pos (by simp [facing, from_, sub])

/-! ### Sample recomputations -/

/-- The state in which the capture is freed. -/
def captureFreed (s : State) (p : Nat) (k : Capture) : State :=
  updProof s p (fun x => { x with captures := x.captures.erase k })

/-- The state in which the recomputation of the capture has been found to differ: SAMPLE is raised (R337). -/
def captureDiffers (s : State) (p : Nat) (k : Capture) : State :=
  raise (updProof (captureFreed s p k) p (fun x => { x with sampleMismatch := min (x.sampleMismatch + 1) (2 ^ 64 - 1) })) p 0x02
    (some k.step) (ucCore k.phys)

section
variable {c third : Nat} {wrong wrong3 : Word} {k : Capture}

theorem recomputeSample_none (alone : ∀ k ∈ (proof s p).captures, k.phys = c) : recomputeSample s p c third wrong wrong3 = s := by
  have absent : (proof s p).captures.find? (fun k => k.phys != c) = none :=
    List.find?_eq_none.2 fun k hk => by simp [alone k hk]
  rw [recomputeSample, absent]

section
variable (taken : (proof s p).captures.find? (fun k => k.phys != c) = some k) (own : corePart s c = p)
  (inService : smem s.retiredCores c = false)
include taken own inService

theorem recomputeSample_taken :
    recomputeSample s p c third wrong wrong3 =
      if k.poison || decide (faulty (recompute k) wrong = captured_ k) then captureFreed s p k
      else if !(corePart s third == p && !smem s.retiredCores third) || third == c || third == k.phys then captureDiffers s p k
      else (sampleCharges [(k.phys, captured_ k), (c, faulty (recompute k) wrong)] (third, faulty (recompute k) wrong3)).foldl
        (fun s x => charge s (ucCore x) 192) (captureDiffers s p k) := by
  rw [recomputeSample, taken]
  exact if_neg (by simp [own, inService])

theorem recomputeSample_same (same : k.poison = true ∨ faulty (recompute k) wrong = captured_ k) :
    recomputeSample s p c third wrong wrong3 = captureFreed s p k :=
  (recomputeSample_taken taken own inService).trans (if_pos (by simpa using same))

variable (differs : ¬ (k.poison = true ∨ faulty (recompute k) wrong = captured_ k))
include differs

theorem recomputeSample_undecided
    (unfit : ¬ (corePart s third = p ∧ smem s.retiredCores third = false ∧ third ≠ c ∧ third ≠ k.phys)) :
    recomputeSample s p c third wrong wrong3 = captureDiffers s p k :=
  (recomputeSample_taken taken own inService).trans
    ((if_neg (by simpa using differs)).trans (if_pos (by
      by_contra fit
      refine unfit ?_
      simpa [and_assoc] using fit)))

theorem recomputeSample_judged (usable : corePart s third = p) (serves : smem s.retiredCores third = false) (other : third ≠ c)
    (also : third ≠ k.phys) :
    recomputeSample s p c third wrong wrong3 =
      (sampleCharges [(k.phys, captured_ k), (c, faulty (recompute k) wrong)] (third, faulty (recompute k) wrong3)).foldl
        (fun s x => charge s (ucCore x) 192) (captureDiffers s p k) :=
  (recomputeSample_taken taken own inService).trans
    ((if_neg (by simpa using differs)).trans (if_neg (by simp [usable, serves, other, also])))

end

end

end

/-- Settles O40. -/
theorem votesPulsesAndDigests : Obligations.VotesPulsesAndDigests := by
  unfold Obligations.VotesPulsesAndDigests
  intro s j p rank raw c third k wrong wrong3 own x at_ v
  refine ⟨fun arr child new => ?_, fun arr not_ => ?_, fun arr member parent computed => ?_, fun arr other => ?_, fun arr => ?_,
    fun hawake running => ?_, fun hawake idle => ⟨?_, ?_⟩, fun hawake running near heard => ?_, fun arr facing from_ sub => ?_,
    ?_, fun hawake alone => ?_⟩
  · exact arr.ends (.inr own) rfl (recvVote_up (pk := { raw with sub := 0 }) rfl child new)
  · exact arr.ends (.inr own) rfl (recvVote_up_ignored (pk := { raw with sub := 0 }) rfl not_)
  · exact arr.ends (.inr own) rfl (recvVote_proven (pk := { raw with sub := 1 }) rfl member parent computed)
  · exact arr.ends (.inr own) rfl (recvVote_proven_ignored (pk := { raw with sub := 1 }) rfl other)
  · exact arr.ends (.inr own) rfl (recvVote_pulse (pk := { raw with sub := 2 }) rfl)
  · exact done_next hawake (sendPulses_running running)
  · exact done_next hawake (sendPulses_idle idle)
  · exact done_next hawake (loseNeighbour_idle idle)
  · exact done_next hawake (loseNeighbour_heard running near heard)
  · exact arr.ends (.inr own) rfl (recvDigest_facing facing from_ sub rfl)
  · intro hawake taken hown inService freed u same judge
    refine ⟨fun eq => ?_, fun differs unfit => ?_, fun differs fit => ?_⟩
    · exact done_next hawake (recomputeSample_same taken hown inService eq)
    · refine done_next hawake (recomputeSample_undecided taken hown inService differs fun ⟨a, b, ne, d⟩ => unfit ⟨a, b, ?_, d⟩)
      exact fun e => ne (congrArg Fin.val e)
    · obtain ⟨usable, serves, other, also⟩ := fit
      exact done_next hawake (recomputeSample_judged taken hown inService differs usable serves
        (fun e => other (Fin.ext e)) also)
  · exact done_next hawake (recomputeSample_none alone)

end Sys2Proof.Machine
end

section
/-! What the block's routine work leaves alone: writes of device and host memory, completion entries, step records and event
records (06 R173; 08 R230 to R236, R247; 12 R371). -/

namespace Sys2Proof.Machine

/-- `t` follows from `s` by routine work. What it can change of a partition, a queue and a host port is named here; the cores,
the ports, the mode and the rest of the state are those of `s`. -/
structure Routine (s t : State) : Prop where
  frame : t = { s with parts := t.parts, hps := t.hps, hostMem := t.hostMem, evr := t.evr, out := t.out, regs := t.regs, ms := t.ms
                       raised := t.raised }
  part : ∀ p, part t p = { part s p with
    journal := (part t p).journal, ec := (part t p).ec, snap := { snap s p with a := (snap t p).a, b := (snap t p).b }
    proof := { proof s p with steps := (proof t p).steps, log := (proof t p).log } }
  queue : ∀ h q, queue t h q = { queue s h q with
    cqNext := (queue t h q).cqNext, phase := (queue t h q).phase, uncovered := (queue t h q).uncovered
    lastTag := (queue t h q).lastTag }
  flights : ∀ h, ∀ f ∈ (hport t h).flights, f ∈ (hport s h).flights
  regs : ∀ i off, off < 2 ^ 26 → off ∉ stickyOffs → regW t i off = regW s i off

namespace Routine

theorem refl (s : State) : Routine s s := ⟨rfl, fun _ => rfl, fun _ _ => rfl, fun _ _ => id, fun _ _ _ _ => rfl⟩

theorem trans {s t u : State} (a : Routine s t) (b : Routine t u) : Routine s u where
  frame := by rw [b.frame, a.frame]
  part p := by
    rw [b.part p, a.part p]
    simp only [snap, proof]
    rw [a.part p]
    rfl
  queue h q := by rw [b.queue h q, a.queue h q]
  flights h f hf := a.flights h f (b.flights h f hf)
  regs i off lt plain := (b.regs i off lt plain).trans (a.regs i off lt plain)

theorem foldl {α : Type} {g : State → α → State} (hg : ∀ s a, Routine s (g s a)) (l : List α) (s : State) :
    Routine s (l.foldl g s) := by
  induction l generalizing s with
  | nil => exact refl s
  | cons a l ih => exact (hg s a).trans (ih (g s a))

theorem of_ite {s t u : State} {c : Prop} [Decidable c] (a : Routine s t) (b : Routine s u) : Routine s (if c then t else u) := by
  split
  · exact a
  · exact b

theorem of_reports {s t : State} (r : Reports s t) : Routine s t where
  frame := by rw [r.frame]
  part p := by simp only [snap, proof, r.part]
  queue h q := by rw [r.queue]
  flights h f hf := by rwa [r.flights] at hf
  regs := r.regs

/-- A change that the host ports and the registers do not see. -/
theorem of_parts {s t : State}
    (frame : t = { s with parts := t.parts, hostMem := t.hostMem, out := t.out, ms := t.ms, raised := t.raised })
    (part : ∀ p, Machine.part t p = { Machine.part s p with
      journal := (Machine.part t p).journal, ec := (Machine.part t p).ec
      snap := { snap s p with a := (snap t p).a, b := (snap t p).b }
      proof := { proof s p with steps := (proof t p).steps, log := (proof t p).log } }) : Routine s t where
  frame := by rw [frame]
  part := part
  queue h q := by rw [frame]; rfl
  flights h f hf := by rw [frame] at hf; exact hf
  regs i off _ _ := by rw [frame]; rfl

section
variable {s t : State} (r : Routine s t)
include r
theorem pmode : t.pmode = s.pmode := by rw [r.frame]
theorem cores : t.cores = s.cores := by rw [r.frame]
theorem ports : t.ports = s.ports := by rw [r.frame]
theorem launches : t.launches = s.launches := by rw [r.frame]
theorem core (c : Nat) : core t c = Machine.core s c := by rw [Machine.core, Machine.core, r.cores]
theorem physOf (l : Nat) : physOf t l = Machine.physOf s l := by rw [Machine.physOf, Machine.physOf, r.frame]
theorem lcores : lcores t = Machine.lcores s := by rw [Machine.lcores, Machine.lcores, nparts, nparts, r.pmode]
theorem partHp (p : Nat) : partHp t p = Machine.partHp s p := by rw [Machine.partHp, Machine.partHp, nparts, nparts, r.pmode]
theorem mirror (p : Nat) : mirror t p = Machine.mirror s p := by rw [Machine.mirror, r.part p]; rfl
theorem xport (p : Nat) : xport t p = Machine.xport s p := by rw [Machine.xport, r.part p]; rfl
theorem proof (p : Nat) :
    proof t p = { Machine.proof s p with steps := (Machine.proof t p).steps, log := (Machine.proof t p).log } := by
  rw [Machine.proof, r.part p]
theorem snap (p : Nat) : snap t p = { Machine.snap s p with a := (Machine.snap t p).a, b := (Machine.snap t p).b } := by
  rw [Machine.snap, r.part p]
theorem queue_state (h q : Nat) : (Machine.queue t h q).state = (Machine.queue s h q).state := by rw [r.queue h q]
theorem queue_stopwhy (h q : Nat) : (Machine.queue t h q).stopwhy = (Machine.queue s h q).stopwhy := by rw [r.queue h q]
end

end Routine

section
variable (s : State)

/-! ### Changes of one record -/

theorem routine_updPart {p : Nat} {f : Part → Part} (same : ∀ x, f x = { x with
    journal := (f x).journal, ec := (f x).ec, snap := { x.snap with a := (f x).snap.a, b := (f x).snap.b }
    proof := { x.proof with steps := (f x).proof.steps, log := (f x).proof.log } }) : Routine s (updPart s p f) :=
  .of_parts rfl fun p' => by
    simp only [snap, proof]
    rw [part_updPart]
    split
    · next e =>
      subst e
      exact same _
    · rfl

theorem routine_updMs (f : MemSys → MemSys) : Routine s (updMs s f) := .of_parts rfl fun _ => rfl

theorem routine_raise (p reason : Nat) (step : Option Nat) (unit : Nat) : Routine s (raise s p reason step unit) :=
  .of_parts rfl fun _ => rfl

theorem routine_updStep (p n : Nat) (f : StepRec → StepRec) : Routine s (updStep s p n f) := by
  unfold updStep updProof
  exact routine_updPart s fun _ => rfl

theorem routine_addEc (p c v : Nat) : Routine s (addEc s p c v) := by
  unfold addEc setEc
  exact routine_updPart s fun _ => rfl

theorem routine_updHp {h : Nat} {f : HostPort → HostPort} (same : ∀ x, (f x).queues = x.queues)
    (sub : ∀ x, ∀ g ∈ (f x).flights, g ∈ x.flights) : Routine s (updHp s h f) where
  frame := rfl
  part _ := rfl
  queue k q := by
    have unchanged : queue (updHp s h f) k q = queue s k q := by
      rw [queue, hport_updHp]
      split
      · next e => rw [same, e]; rfl
      · rfl
    rw [unchanged]
  flights k g hg := by
    rw [hport_updHp] at hg
    split at hg
    · next e => exact e ▸ sub _ g hg
    · exact hg
  regs _ _ _ _ := rfl

theorem routine_updQueue {h q : Nat} {f : Queue → Queue} (same : ∀ x, f x = { x with
    cqNext := (f x).cqNext, phase := (f x).phase, uncovered := (f x).uncovered, lastTag := (f x).lastTag }) :
    Routine s (updQueue s h q f) where
  frame := rfl
  part _ := rfl
  queue k i := by
    rw [queue_updQueue]
    split
    · next e =>
      obtain ⟨rfl, rfl⟩ := e
      exact same _
    · rfl
  flights k g hg := by
    rw [hport_updQueue] at hg
    split at hg
    · next e => exact e ▸ hg
    · exact hg
  regs _ _ _ _ := rfl

/-! ### Writes -/

theorem routine_hwritePz (h a : Nat) (b : Blob) : Routine s (hwritePz s h a b) := by
  unfold hwritePz
  refine .of_ite ?_ (.refl s)
  exact (Routine.of_parts (t := { s with hostMem := mset s.hostMem [] h (wrBytes (mget s.hostMem [] h) a b.data) })
    rfl fun _ => rfl).trans (.foldl (fun s _ => .of_reports (reports_emit s _)) _ _)

theorem routine_cowHook (ppn : Nat) : Routine s (cowHook s ppn) := by
  refine .foldl (fun s p => ?_) _ _
  dsimp only
  exact .of_ite (routine_updPart s fun _ => rfl) (.refl s)

theorem routine_pwrite (pa : Nat) (b : Blob) : Routine s (pwrite s pa b) := by
  unfold pwrite
  exact (Routine.foldl routine_cowHook _ s).trans (routine_updMs _ _)

theorem routine_journalPage (p vpn n : Nat) : Routine s (journalPage s p vpn n) := by
  unfold journalPage
  dsimp only
  exact .of_ite (.of_ite (.refl s) (.of_ite (routine_updPart s fun _ => rfl) (routine_raise s _ _ _ _))) (.refl s)

theorem routine_vwriteFor (p va : Nat) (b : Blob) (step : Option Nat) : Routine s (vwriteFor s p va b step) := by
  unfold vwriteFor
  refine .of_ite (routine_hwritePz s _ _ _) ?_
  cases step with
  | none => exact .foldl (fun s x => routine_pwrite s _ _) _ _
  | some n =>
    exact (Routine.foldl (fun s v => routine_journalPage s p v n) _ s).trans (.foldl (fun s x => routine_pwrite s _ _) _ _)

theorem routine_vwrite (p va : Nat) (b : Blob) : Routine s (vwrite s p va b) := routine_vwriteFor s p va b _

/-! ### Completions and the records of steps -/

theorem routine_queueIrq (h q : Nat) (irq : Bool) : Routine s (queueIrq s h q irq) := by
  unfold queueIrq
  dsimp only
  exact .of_ite ((routine_updQueue s fun _ => rfl).trans (.of_reports (reports_sendMsix _ _ _))) (.refl s)

theorem routine_writeEntry (h q didx qgen : Nat) (d : Desc) (step : Option Nat) (status result : Nat) :
    Routine s (writeEntry s h q didx qgen d step status result) := by
  unfold writeEntry
  dsimp only
  exact .of_ite (((routine_hwritePz s _ _ _).trans (routine_updQueue _ fun _ => rfl)).trans (routine_queueIrq _ h q _)) (.refl s)

/-- A completion that freezes no queue. -/
theorem routine_completeDesc (h : Nat) (f : Flight) (st : St) (result addr : Nat) (own : Bool) (input : Option Blob)
    (stays : st ≠ .outOfScope ∨ own = false) : Routine s (completeDesc s h f st result own addr input) := by
  unfold completeDesc
  split
  · exact .refl s
  · extract_lets p counted logged entered
    have k1 : Routine s counted := .of_ite (routine_addEc s _ _ _) (.refl s)
    have k2 : Routine counted logged := by
      subst logged
      split
      · unfold updProof
        exact .of_ite (routine_updPart _ fun _ => rfl) (.refl _)
      · exact .refl _
    have k3 : Routine logged entered := .of_ite (.refl _) (routine_writeEntry _ _ _ _ _ _ _ _ _)
    rw [if_neg (by rintro ⟨a, b⟩; rcases stays with h | h <;> simp_all)]
    exact (k1.trans k2).trans k3

theorem routine_dropFlight (h : Nat) (f : Flight) : Routine s (dropFlight s h f) :=
  routine_updHp s (fun _ => rfl) fun _ _ hg => (List.mem_filter.1 hg).1

theorem routine_finishFlight (h : Nat) (f : Flight) (st : St) (result : Nat) (stays : st ≠ .outOfScope) :
    Routine s (finishFlight s h f st result) :=
  (routine_dropFlight s h f).trans (routine_completeDesc _ _ _ _ _ _ _ _ (.inl stays))

theorem routine_writeStepRec (p n : Nat) : Routine s (writeStepRec s p n) := by
  unfold writeStepRec
  split
  · exact .refl s
  · dsimp only
    refine .of_ite (.of_reports (reports_record s _ _ _ _ _)) (.of_ite (.refl s) ?_)
    exact ((routine_updStep s p n _).trans (routine_vwrite _ _ _ _)).trans (.of_reports (reports_sendMsix _ _ _))

theorem routine_setStep (p n st : Nat) (f : StepRec → StepRec) : Routine s (setStep s p n st f) :=
  (routine_updStep s p n _).trans (routine_writeStepRec _ p n)

end

end Sys2Proof.Machine
end

section
/-! Mirror traffic and state transfer from the facing rank (11 R339 to R343, R350). -/

namespace Sys2Proof.Machine

section
variable {s : State} {p rank j : Nat} {pk : Packet} {o : Portion} {os : List Portion}

section
variable (facing : hasFacing s p = true)
include facing

theorem recvMirror_facing (from_ : rank = facingRank s p) (stopping : (proof s p).slice ≠ 2) (deciding : (proof s p).slice ≠ 3)
    (struck : (proof s p).slice ≠ 9) :
    recvMirror s p rank pk = match pk.sub with
      | 0 => recvMirrorOpen s p pk
      | 1 => recvGrad s p pk
      | 2 => recvMirrorDone s p pk
      | 3 => recvSeal s p pk
      | 4 => recvScale s p pk
      | _ => s :=
  (if_pos (by simp [facing, from_, stopping, deciding, struck])).trans rfl

theorem recvXfer_facing (from_ : rank = facingRank s p) :
    recvXfer s p rank pk = match pk.sub with
      | 0 => xferPage (updMirror s p (fun x => { x with wantRestore := true, fillSent := false })) p true pk
      | 1 => xferPage s p false pk
      | 2 => xferScale s p pk
      | 3 => xferScale (updMirror s p (fun x => { x with wantRestore := true, fillSent := false })) p pk
      | 4 => xferEnd s p pk
      | _ => s :=
  (if_pos (by simp [facing, from_])).trans rfl

end

theorem recvMirror_halted (halted : ¬ ((proof s p).slice ≠ 2 ∧ (proof s p).slice ≠ 3)) : recvMirror s p rank pk = s := by
  have stopped : (proof s p).slice = 2 ∨ (proof s p).slice = 3 := by omega
  refine if_neg ?_
  rcases stopped with h | h <;> simp [h]

theorem recvMirror_other (other : rank ≠ facingRank s p) : recvMirror s p rank pk = s := if_neg (by simp [other])

theorem recvXfer_other (other : rank ≠ facingRank s p) : recvXfer s p rank pk = s := if_neg (by simp [other])

/-! ### Portions -/

/-- The staging window after the bytes of a GRAD: written where the window lies in the engine's scope. -/
def staged (s : State) (p : Nat) (pk : Packet) : State :=
  let va := regF s (.part p) 0x0800498 0 28 * pageSize + pk.addr
  if scopeOk s p .engine true va pk.data.length then vwrite s p va ⟨pk.data, pk.poison⟩ else s

theorem mirror_staged : mirror (staged s p pk) p = mirror s p := by
  unfold staged
  dsimp only
  split
  · exact (routine_vwrite s p _ _).mirror p
  · rfl

theorem recvGrad_portion (portion : (mirror s p).inp = some o) :
    recvGrad s p pk = tryPortion (updMirror (staged s p pk) p (fun x => { x with
      inp := some { o with landed := o.landed + pk.data.length } })) p := by
  have same : (mirror (staged s p pk) p).inp = some o := by rw [mirror_staged, portion]
  show (match (mirror (staged s p pk) p).inp with
    | none => _
    | some o => _) = _
  rw [same]
  rfl

theorem recvGrad_early (none_ : (mirror s p).inp = none) :
    recvGrad s p pk = updMirror (staged s p pk) p (fun x => { x with early := x.early + pk.data.length }) := by
  have same : (mirror (staged s p pk) p).inp = none := by rw [mirror_staged, none_]
  show (match (mirror (staged s p pk) p).inp with
    | none => _
    | some o => _) = _
  rw [same]
  rfl

theorem recvMirrorDone_first (queued : (mirror s p).out = o :: os) (sent : (mirror s p).outSent = true)
    (first : o.first = pk.addr) (optim : o.optim = pk.msg) :
    recvMirrorDone s p pk = updMirror s p (fun x => { x with out := os, outSent := false }) := by
  rw [recvMirrorDone, queued]
  exact if_pos (by simp [sent, first, optim])

/-- The records of a SCALE. -/
def scaleEntriesOf (pk : Packet) : List (Nat × Nat × Bool × BitVec 32 × BitVec 32) :=
  (List.range (pk.data.length / 12)).map fun i =>
    (pk.addr, leAt pk.data (12 * i) 2, (leAt pk.data (12 * i + 2) 1).testBit 0, BitVec.ofNat 32 (leAt pk.data (12 * i + 4) 4),
      BitVec.ofNat 32 (leAt pk.data (12 * i + 8) 4))

theorem recvScale_eq : recvScale s p pk =
    updMirror s p (fun x => { x with pendingScale := x.pendingScale ++ scaleEntriesOf pk }) := rfl

theorem scaleEntriesOf_length : (scaleEntriesOf pk).length = pk.data.length / 12 := by simp [scaleEntriesOf]

theorem scaleEntriesOf_addr : ∀ r ∈ scaleEntriesOf pk, r.1 = pk.addr := by simp [scaleEntriesOf]

/-- MIRROR and STATE_XFER from a rank that does not face have no effect. -/
theorem fabricRow_other (other : rank ≠ facingRank s p) :
    ∀ r ∈ fabricRows.drop 16, ∀ pk, deliver s p j rank r.2.1 pk = s := by
  have mirror_ (pk : Packet) : deliver s p j rank 0x30 pk = s := recvMirror_other other
  have xfer (pk : Packet) : deliver s p j rank 0x32 pk = s := recvXfer_other other
  simp only [fabricRows, List.cons_append, List.nil_append, List.drop_succ_cons, List.drop_zero, List.forall_mem_cons,
    List.not_mem_nil, false_imp_iff, implies_true, mirror_, xfer, and_self]

end

/-- Settles O41. -/
theorem mirrorAndTransfer : Obligations.MirrorAndTransfer := by
  unfold Obligations.MirrorAndTransfer
  intro s j p rank raw o os own facing from_ m a va want live fits put early landed
  have mirror_ (i : Nat) (hl : live) (at_ : a 0x30 i) := recvMirror_facing (pk := { raw with sub := i }) facing from_ hl.1 hl.2
    at_.1.2.2.2.1
  have xfer (i : Nat) := recvXfer_facing (pk := { raw with sub := i }) facing from_
  have halted (i : Nat) (hl : ¬ live) := recvMirror_halted (rank := rank) (pk := { raw with sub := i }) hl
  have inside (i : Nat) (hf : fits) : staged s p { raw with sub := i } = put := if_pos hf
  have outside (i : Nat) (hf : ¬ fits) : staged s p { raw with sub := i } = s := if_neg hf
  refine ⟨fun hl at_ => ?_, fun hl at_ portion => ⟨fun hf => ?_, fun hf => ?_⟩, fun hl at_ none_ => ⟨fun hf => ?_, fun hf => ?_⟩,
    fun hl at_ queued sent first optim => ?_, fun hl at_ => ?_, fun hl at_ => ?_, fun at_ => ?_, fun at_ => ?_, fun at_ => ?_,
    fun at_ => ?_, fun at_ => ?_, fun hl => ⟨?_, ?_, ?_, ?_, ?_⟩, ?_⟩
  · exact at_.ends (.inr own) rfl (mirror_ 0 hl at_)
  · have e := (mirror_ 1 hl at_).trans (recvGrad_portion portion)
    rw [inside 1 hf] at e
    exact at_.ends (.inr own) rfl e
  · have e := (mirror_ 1 hl at_).trans (recvGrad_portion portion)
    rw [outside 1 hf] at e
    exact at_.ends (.inr own) rfl e
  · have e := (mirror_ 1 hl at_).trans (recvGrad_early none_)
    rw [inside 1 hf] at e
    exact at_.ends (.inr own) rfl e
  · have e := (mirror_ 1 hl at_).trans (recvGrad_early none_)
    rw [outside 1 hf] at e
    exact at_.ends (.inr own) rfl e
  · exact at_.ends (.inr own) rfl ((mirror_ 2 hl at_).trans (recvMirrorDone_first queued sent first optim))
  · exact at_.ends (.inr own) rfl (mirror_ 3 hl at_)
  · exact ⟨scaleEntriesOf { raw with sub := 4 }, at_.ends (.inr own) rfl ((mirror_ 4 hl at_).trans recvScale_eq),
      scaleEntriesOf_length, scaleEntriesOf_addr⟩
  · exact at_.ends (.inr own) rfl (xfer 0)
  · exact at_.ends (.inr own) rfl (xfer 1)
  · exact at_.ends (.inr own) rfl (xfer 2)
  · exact at_.ends (.inr own) rfl (xfer 3)
  · exact at_.ends (.inr own) rfl (xfer 4)
  · exact fun at_ => at_.ends (.inr own) rfl (halted 0 hl)
  · exact fun at_ => at_.ends (.inr own) rfl (halted 1 hl)
  · exact fun at_ => at_.ends (.inr own) rfl (halted 2 hl)
  · exact fun at_ => at_.ends (.inr own) rfl (halted 3 hl)
  · exact fun at_ => at_.ends (.inr own) rfl (halted 4 hl)
  · intro other away r hr k sub at_
    have row := exec_fabricRow s j raw r (List.mem_of_mem_drop hr)
    rw [sub] at row
    exact at_.ends (.inr own) row (fabricRow_other away r hr _)

end Sys2Proof.Machine
end

section
/-! STOPPRESS packets, their timers and an applied DECISION (11 R347 to R355; 13 R403). -/

namespace Sys2Proof.Machine

/-! ### STOPPRESS packets -/

section
variable {s : State} {p j rank : Nat} {pk : Packet} {r : Round}

/-- A STOPPRESS message of a member that is in a slice, by its sub-code. -/
def handleStopPress (s : State) (p rank : Nat) (pk : Packet) : State :=
  match pk.sub with
  | 1 => recvReport s p rank (StopMsg.ofBytes pk.data)
  | 2 => applyDecision s p (StopMsg.ofBytes pk.data)
  | 3 => recvPoll s p rank (StopMsg.ofBytes pk.data)
  | _ => s

section
variable (member : inSlice s p = true)
include member

section
variable (stop : pk.sub = 0)
include stop

theorem recvStopPress_stop (current : genOf s p ≤ pk.gen) :
    recvStopPress s p j rank pk = acceptStop s p (StopMsg.ofBytes pk.data) :=
  (if_neg (by simp [member])).trans ((if_pos stop).trans (if_pos current))

theorem recvStopPress_stop_older (old : pk.gen < genOf s p) : recvStopPress s p j rank pk = dropPacket s p j 4 0x20 pk :=
  (if_neg (by simp [member])).trans ((if_pos stop).trans (if_neg (Nat.not_le.2 old)))

end

variable (other : pk.sub ≠ 0)
include other

theorem recvStopPress_round (round : (proof s p).round = some r) (mine : r.gen = pk.gen) :
    recvStopPress s p j rank pk = handleStopPress s p rank pk := by
  refine (if_neg (by simp [member])).trans ((if_neg other).trans ?_)
  rw [round]
  exact if_pos (by simp [mine])

section
variable (none_ : (proof s p).round = none)
include none_

theorem recvStopPress_noRound (current : pk.gen = genOf s p) :
    recvStopPress s p j rank pk = handleStopPress (acceptStop s p (StopMsg.ofBytes pk.data)) p rank pk := by
  refine (if_neg (by simp [member])).trans ((if_neg other).trans ?_)
  rw [none_]
  exact (if_neg Bool.false_ne_true).trans (if_pos current)

theorem recvStopPress_noRound_other (away : pk.gen ≠ genOf s p) :
    recvStopPress s p j rank pk = dropPacket s p j 4 0x20 pk := by
  refine (if_neg (by simp [member])).trans ((if_neg other).trans ?_)
  rw [none_]
  exact (if_neg Bool.false_ne_true).trans (if_neg away)

end

end

theorem recvPoll_round {m : StopMsg} (round : (proof s p).round = some r) :
    recvPoll s p rank m =
      sendReport (updProof s p (fun x => { x with round := some { r with no := m.round, root := rank, decided := false } })) p := by
  rw [recvPoll, round]

/-! ### The timers -/

theorem collectTimeout_decides (round : (proof s p).round = some r) (decides_ : decides s p r = true) :
    collectTimeout s p = sendDecision s p r := by
  rw [collectTimeout, round]
  exact if_pos decides_

theorem collectTimeout_idle (idle : (proof s p).round = none ∨ ((proof s p).round = some r ∧ decides s p r = false)) :
    collectTimeout s p = s := by
  rw [collectTimeout]
  rcases idle with none_ | ⟨round, undecided⟩
  · rw [none_]
  · rw [round]
    exact if_neg (by simp [undecided])

theorem nextRound_idle (idle : (proof s p).slice ≠ 3 ∨ (proof s p).round = none) : nextRound s p = s := by
  unfold nextRound
  split
  · next deciding => rw [idle.resolve_left (not_not_intro deciding)]
  · rfl

section
variable {d : Nat} (deciding : (proof s p).slice = 3) (round : (proof s p).round = some r) (next : nextRoot s p r = some d)
include deciding round next

theorem nextRound_deciding :
    nextRound s p = if d = ownRank s p then becomeRoot s p (r.no + 1) []
      else sendReport (updProof s p (fun x => { x with round := some { r with no := r.no + 1, root := d, reports := [] } })) p := by
  rw [nextRound, if_pos deciding, round]
  simp only [next]

theorem nextRound_own (own : d = ownRank s p) : nextRound s p = becomeRoot s p (r.no + 1) [] :=
  (nextRound_deciding deciding round next).trans (if_pos own)

theorem nextRound_other (away : d ≠ ownRank s p) :
    nextRound s p =
      sendReport (updProof s p (fun x => { x with round := some { r with no := r.no + 1, root := d, reports := [] } })) p :=
  (nextRound_deciding deciding round next).trans (if_neg away)

end

theorem safePointMissed_round {u : Nat} (round : inRound s p = true) (own : unitPart s u = p) :
    safePointMissed s p u = resetUnit (takeDump s u 2 0x07 p) u 2 := if_pos ⟨round, own⟩

theorem safePointMissed_idle {u : Nat} (idle : inRound s p = false) : safePointMissed s p u = s := if_neg (by simp [idle])

end

/-! ### What the work of a restart leaves of the round -/

/-- `t` is `s` but for its ports and what went out. -/
def Sends (s t : State) : Prop := t = { s with ports := t.ports, out := t.out }

theorem Sends.refl (s : State) : Sends s s := rfl

theorem Sends.trans {s t u : State} (a : Sends s t) (b : Sends t u) : Sends s u := by
  unfold Sends at *
  rw [b, a]

theorem sends_txOne (s : State) (j : Nat) : Sends s (txOne s j) := by
  unfold txOne
  dsimp only
  split
  · exact rfl
  · split
    · exact rfl
    · split
      · exact rfl
      · exact rfl

theorem sends_txPump (j n : Nat) (s : State) : Sends s (txPump j n s) := by
  induction n generalizing s with
  | zero => exact rfl
  | succ n ih =>
    rw [txPump]
    split
    · exact (sends_txOne s j).trans (ih _)
    · exact rfl

theorem sends_sendPort (s : State) (p j t : Nat) (pk : Packet) : Sends s (sendPort s p j t pk) := by
  unfold sendPort
  split
  · exact rfl
  · exact Sends.trans (t := updLink (emit s (.packet p j t pk)) j _) rfl (sends_txPump _ _ _)

theorem sends_sendReserved (s : State) (p j t sub addr msg : Nat) (b : Blob) : Sends s (sendReserved s p j t sub addr msg b) := by
  unfold sendReserved
  split
  · exact sends_sendPort _ _ _ _ _
  · exact rfl

/-- `t` has the slice, the round's outcome and the transport state of partition `q` that `s` has, but for the next message. -/
structure RoundKept (q : Nat) (s t : State) : Prop where
  xport : xport t q = { xport s q with nextMsg := (xport t q).nextMsg }
  slice : (proof t q).slice = (proof s q).slice
  restarts : (proof t q).restarts = (proof s q).restarts
  applied : (proof t q).appliedDecision = (proof s q).appliedDecision

namespace RoundKept

theorem trans {q : Nat} {s t u : State} (a : RoundKept q s t) (b : RoundKept q t u) : RoundKept q s u where
  xport := by rw [b.xport, a.xport]
  slice := b.slice.trans a.slice
  restarts := b.restarts.trans a.restarts
  applied := b.applied.trans a.applied

/-- A change of a partition that touches neither. -/
theorem of_part {q : Nat} {s t : State} (x : Machine.xport t q = Machine.xport s q)
    (y : proof t q = proof s q) : RoundKept q s t where
  xport := by rw [x]
  slice := by rw [y]
  restarts := by rw [y]
  applied := by rw [y]

theorem refl (q : Nat) (s : State) : RoundKept q s s := of_part rfl rfl

theorem of_routine {q : Nat} {s t : State} (r : Routine s t) : RoundKept q s t where
  xport := by rw [r.xport]
  slice := by rw [r.proof]
  restarts := by rw [r.proof]
  applied := by rw [r.proof]

theorem of_sends {q : Nat} {s t : State} (m : Sends s t) : RoundKept q s t :=
  of_part (by unfold Sends at m; rw [m]; rfl) (by unfold Sends at m; rw [m]; rfl)

theorem of_updProof {q : Nat} (s : State) (p : Nat) {f : Proof → Proof} (slice : ∀ x, (f x).slice = x.slice)
    (restarts : ∀ x, (f x).restarts = x.restarts) (applied : ∀ x, (f x).appliedDecision = x.appliedDecision) :
    RoundKept q s (updProof s p f) := by
  by_cases e : q = p
  · subst e
    exact ⟨by rw [xport_updProof], by rw [proof_updProof_same, slice], by rw [proof_updProof_same, restarts],
      by rw [proof_updProof_same, applied]⟩
  · have same : part (updProof s p f) q = part s q := by rw [part_updProof, if_neg e]
    exact of_part (by rw [Machine.xport, same]; rfl) (by rw [proof, same]; rfl)

theorem foldl {α : Type} {q : Nat} {g : State → α → State} (hg : ∀ s a, RoundKept q s (g s a)) (l : List α) (s : State) :
    RoundKept q s (l.foldl g s) := by
  induction l generalizing s with
  | nil => exact refl q s
  | cons a l ih => exact (hg s a).trans (ih (g s a))

theorem of_ite {q : Nat} {s t u : State} {c : Prop} [Decidable c] (a : RoundKept q s t) (b : RoundKept q s u) :
    RoundKept q s (if c then t else u) := by
  split
  · exact a
  · exact b

end RoundKept

section
variable (s : State) (p q : Nat)

theorem roundKept_updMirror (f : Mirror → Mirror) : RoundKept q s (updMirror s p f) := .of_part (by simp) (by simp)

theorem roundKept_updSnap (f : Snap → Snap) : RoundKept q s (updSnap s p f) := .of_part (by simp) (by simp)

theorem roundKept_setShadow (m : Map ScaleEntry) : RoundKept q s (setShadow s p m) := by
  unfold setShadow
  extract_lets old u ks
  refine (roundKept_updMirror s p q _).trans (.foldl (fun s i => ?_) ks u)
  dsimp only
  exact .of_ite (.foldl (fun s _ => .of_routine (routine_pwrite s _ _)) _ _) (.refl q s)

theorem roundKept_drainFailed (st : Nat) : RoundKept q s (drainFailed s p st) :=
  (roundKept_updSnap s p q _).trans (.of_routine (.of_reports ((reports_stickyPart _ _ _).trans (reports_asyncCause _ _ _))))

theorem roundKept_startDrain (msg slot object dfrac : Nat) (ports : List Nat) (byDesc : Bool) :
    RoundKept q s (startDrain s p msg slot object ports dfrac byDesc) := by
  unfold startDrain
  dsimp only
  exact (roundKept_updSnap s p q _).trans (.foldl (fun s j => .of_sends (sends_sendReserved s _ _ _ _ _ _ _)) _ _)

theorem roundKept_nextMsg : RoundKept q s (nextMsg s p).2 where
  xport := by
    rw [nextMsg, xport, part_updXport]
    split
    · next e => subst e; rfl
    · rfl
  slice := by rw [nextMsg, proof_updXport]
  restarts := by rw [nextMsg, proof_updXport]
  applied := by rw [nextMsg, proof_updXport]

theorem roundKept_autoDrain (i : Nat) : RoundKept q s (autoDrain s p i) := by
  unfold autoDrain
  dsimp only
  refine .of_ite ?_ (.refl q s)
  split
  · exact roundKept_drainFailed s p q _
  · exact (roundKept_nextMsg s p q).trans (roundKept_startDrain _ _ _ _ _ _ _ _ _)

theorem roundKept_tryCommitSlot (i : Nat) : RoundKept q s (tryCommitSlot s p i) := by
  unfold tryCommitSlot
  dsimp only
  exact .of_ite ((roundKept_updSnap s p q _).trans (roundKept_autoDrain _ _ _ _)) (.refl q s)

theorem roundKept_proveStep (n : Nat) : RoundKept q s (proveStep s p n) := by
  unfold proveStep
  extract_lets raised
  have noted : RoundKept q s raised := .of_updProof s p (fun _ => rfl) (fun _ => rfl) fun _ => rfl
  have state : RoundKept q raised (setStep raised p n 3 id) := .of_routine (routine_setStep _ _ _ _ _)
  have scales (t : State) : RoundKept q t (proveScales t p n) := .of_routine (routine_updMs t _)
  have shadow (t : State) : RoundKept q t (proveShadow t p n) := by
    unfold proveShadow
    exact (roundKept_updMirror t p q _).trans (roundKept_setShadow _ _ _ _)
  have commit (t : State) : RoundKept q t (tryCommit t p) := (roundKept_tryCommitSlot t p q 0).trans (roundKept_tryCommitSlot _ p q 1)
  exact (((noted.trans state).trans (scales _)).trans (shadow _)).trans (commit _)

/-- What failing steps leaves of the proof: the round, and LAST_COMPUTED. -/
theorem failThese_kept (ns : List Nat) (reason : Nat) (fallback : Bool) :
    RoundKept q s (failThese s p ns reason fallback) ∧
      (proof (failThese s p ns reason fallback) q).lastComputed = (proof s q).lastComputed := by
  unfold failThese
  extract_lets failed sticky h proven ended
  have r1 : Routine s failed := .foldl (fun s n => routine_setStep s p n 5 _) ns s
  have r2 : Routine failed sticky := .of_ite (.of_reports (reports_stickyPart _ _ _)) (.refl _)
  have r3 (l : List Flight) : Routine ended (l.foldl (fun s f => finishFlight s h f .rolledBack 0) ended) :=
    .foldl (fun s f => routine_finishFlight s h f _ _ (by simp)) l ended
  have closed : RoundKept q sticky ended := .of_updProof _ p (fun _ => rfl) (fun _ => rfl) fun _ => rfl
  refine ⟨((RoundKept.of_routine (r1.trans r2)).trans closed).trans (.of_routine (r3 _)), ?_⟩
  rw [(r3 _).proof]
  show (proof ended q).lastComputed = _
  have unchanged : (proof ended q).lastComputed = (proof sticky q).lastComputed := by
    rw [proof, part_updProof]
    split
    · next e => subst e; rfl
    · rfl
  rw [unchanged, (r1.trans r2).proof]

end

/-! ### A DECISION applied -/

section
variable (s : State) (p : Nat)

theorem part_foldl_updLink (f : Link → Link) (l : List Nat) (s : State) (p : Nat) :
    part (l.foldl (fun s j => updLink s j f) s) p = part s p := by
  induction l generalizing s with
  | nil => rfl
  | cons j l ih => exact ih _

/-- The steps and scales of a member that strikes itself, failed (R353). -/
def workFailed (s : State) (p why : Nat) : State :=
  let t := failThese s p (liveAbove s p (proof s p).lastProven) why false
  failScales t p (proof t p).lastProven

theorem workFailed_kept (why : Nat) :
    RoundKept p s (workFailed s p why) ∧ (proof (workFailed s p why) p).lastComputed = (proof s p).lastComputed := by
  obtain ⟨kept, computed⟩ := failThese_kept s p p (liveAbove s p (proof s p).lastProven) why false
  unfold workFailed failScales
  generalize failThese s p (liveAbove s p (proof s p).lastProven) why false = t at kept computed ⊢
  have scales := routine_updMs t fun m =>
    { m with scale := mmapIf m.scale {} (inScaleRange t p) (failEntry (proof t p).lastProven) }
  exact ⟨kept.trans (.of_routine scales), by rw [scales.proof]; exact computed⟩

theorem strikeSelf_part (why reason : Nat) (live : (proof s p).slice ≠ 9) :
    part (strikeSelf s p why reason) p = part (updProof (workFailed s p why) p (fun x => { x with slice := 9 })) p := by
  rw [strikeSelf, if_neg live]
  exact (part_foldl_updLink _ _ _ p).trans (((reports_stickyPart _ _ _).trans (reports_record _ _ _ _ _ _)).part p)

/-- A member strikes itself: it is STRUCK, and its round, its transport state and LAST_COMPUTED stand. -/
theorem strikeSelf_struck (why reason : Nat) (live : (proof s p).slice ≠ 9) {t : State} (ht : strikeSelf s p why reason = t) :
    (xport t p = { xport s p with nextMsg := (xport t p).nextMsg }) ∧
      (proof t p).slice = 9 ∧ (proof t p).restarts = (proof s p).restarts ∧
      (proof t p).appliedDecision = (proof s p).appliedDecision ∧ (proof t p).lastComputed = (proof s p).lastComputed := by
  obtain ⟨kept, computed⟩ := workFailed_kept s p why
  have x : xport t p = xport (workFailed s p why) p := by
    rw [← ht, xport, strikeSelf_part s p why reason live, ← xport, xport_updProof]
  have y : proof t p = { proof (workFailed s p why) p with slice := 9 } := by
    rw [← ht, proof, strikeSelf_part s p why reason live, ← proof, proof_updProof_same]
  exact ⟨by rw [x, kept.xport], by rw [y], by rw [y]; exact kept.restarts, by rw [y]; exact kept.applied,
    by rw [y]; exact computed⟩

/-- A partition in which a DECISION has been applied up to the strikes: the restart is counted, and the slice is ROLLBACK. -/
structure RolledBack (s : State) (p : Nat) (d : StopMsg) (t : State) : Prop where
  rank : (xport t p).rank = (xport s p).rank
  reprint : (xport t p).reprint = if 255 ≤ (xport s p).reprint then (xport s p).reprint else (xport s p).reprint + 1
  epoch : (xport t p).epoch = (xport s p).epoch
  imp : (xport t p).imp = (xport s p).imp
  colls : (xport t p).colls = []
  rmas : (xport t p).rmas = []
  restarts : (proof t p).restarts = min ((proof s p).restarts + 1) (2 ^ 64 - 1)
  applied : (proof t p).appliedDecision = some d
  computed : (proof t p).lastComputed ≤ d.provenTo

theorem RolledBack.congr {s t u : State} {p : Nat} {d : StopMsg} (a : RolledBack s p d t)
    (x : ∃ n, xport u p = { xport t p with nextMsg := n }) (restarts : (proof u p).restarts = (proof t p).restarts)
    (applied : (proof u p).appliedDecision = (proof t p).appliedDecision)
    (computed : (proof u p).lastComputed = (proof t p).lastComputed) : RolledBack s p d u := by
  obtain ⟨n, x⟩ := x
  exact ⟨by rw [x]; exact a.rank, by rw [x]; exact a.reprint, by rw [x]; exact a.epoch, by rw [x]; exact a.imp,
    by rw [x]; exact a.colls, by rw [x]; exact a.rmas, restarts.trans a.restarts, applied.trans a.applied,
    computed.trans_le a.computed⟩

variable {d : StopMsg}

theorem applyDecision_ignored (ignored : (proof s p).appliedDecision ≠ none ∨ ((proof s p).slice ≠ 2 ∧ (proof s p).slice ≠ 3)) :
    applyDecision s p d = s := if_pos (ignored.imp_left Option.isSome_iff_ne_none.2)

theorem failSteps_kept : RoundKept p s (failSteps s p d) ∧ (proof (failSteps s p d) p).lastComputed ≤ d.provenTo := by
  unfold failSteps
  extract_lets again failed
  have lowered : RoundKept p failed (updProof failed p (fun x => { x with lastComputed := min x.lastComputed d.provenTo })) :=
    .of_updProof failed p (fun _ => rfl) (fun _ => rfl) fun _ => rfl
  refine ⟨(failThese_kept s p p _ _ _).1.trans lowered, ?_⟩
  rw [proof_updProof_same]
  exact Nat.min_le_right _ _

/-- The DECISION is recorded and noted, and the restart counted. -/
def decisionNoted (s : State) (p : Nat) (d : StopMsg) : State :=
  updProof (record s p (ucXport p) 0 0x0032 (leBytes 8 d.provenTo ++ leBytes 1 d.round ++ leBytes 2 d.strikes.length ++
      leBytes 1 (2 * b2n d.fallback + 4 * b2n d.hold))) p (fun x => { x with
    restarts := min (x.restarts + 1) (2 ^ 64 - 1), lastRound := d.round, appliedDecision := some d, unreachable := d.reason == 0x1A })

/-- The steps that the DECISION proves are PROVEN, and those that it fails FAILED (R352). -/
def stepsDecided (s t : State) (p : Nat) (d : StopMsg) : State :=
  failSteps ((sortBy id (((proof s p).steps.filter (fun r => r.state == 2 && decide (r.step ≤ d.provenTo))).map (·.step))).foldl
    (fun s n => proveStep s p n) t) p d

/-- The transport of a partition that restarts; `full` says that the reprint count is at its end. -/
def transportRestarted (full : Bool) (y : Xport) : Xport :=
  { y with
    reprint := if full then y.reprint else y.reprint + 1, collCount := [], readyCount := [], early := [], colls := []
    rmas := [], dropsSeen := if full then y.dropsSeen else [], peers := [] }

/-- ROLLBACK, with the restarted transport; `again` says that a rank is unreachable for a second time (R355). -/
def rollsBack (t : State) (p : Nat) (d : StopMsg) (again : Bool) : State :=
  let full := decide (255 ≤ (xport t p).reprint)
  let u := updXport t p (transportRestarted full)
  updProof u p (fun x => { x with
    slice := 4, toHold := d.hold || again || full || (part u p).pstate == 2, fallback := false, hold := false })

theorem applyDecision_open (open_ : (proof s p).appliedDecision = none) (round : (proof s p).slice = 2 ∨ (proof s p).slice = 3) :
    applyDecision s p d = applyStrikes (rollsBack (stepsDecided s (decisionNoted s p d) p d) p d
      (d.reason == 0x1A && (proof s p).unreachable)) p d := by
  unfold applyDecision
  dsimp only
  rw [if_neg]
  · rfl
  · rintro (h | h)
    · simp [open_] at h
    · omega

theorem decisionNoted_xport : xport (decisionNoted s p d) p = xport s p := by
  rw [decisionNoted, xport_updProof, xport, (reports_record _ _ _ _ _ _).part, xport]

theorem decisionNoted_proof : proof (decisionNoted s p d) p = { proof s p with
    restarts := min ((proof s p).restarts + 1) (2 ^ 64 - 1), lastRound := d.round, appliedDecision := some d
    unreachable := d.reason == 0x1A } := by
  rw [decisionNoted, proof_updProof_same, proof, (reports_record _ _ _ _ _ _).part]
  rfl

theorem stepsDecided_kept (t : State) :
    RoundKept p t (stepsDecided s t p d) ∧ (proof (stepsDecided s t p d) p).lastComputed ≤ d.provenTo := by
  unfold stepsDecided
  exact ⟨(RoundKept.foldl (fun s n => roundKept_proveStep s p p n) _ t).trans (failSteps_kept _ p).1, (failSteps_kept _ p).2⟩

theorem rollsBack_xport (t : State) (again : Bool) :
    xport (rollsBack t p d again) p = transportRestarted (decide (255 ≤ (xport t p).reprint)) (xport t p) := by
  rw [rollsBack, xport_updProof, xport_updXport_same]

theorem rollsBack_proof (t : State) (again : Bool) :
    ∃ held, proof (rollsBack t p d again) p = { proof t p with slice := 4, toHold := held, fallback := false, hold := false } :=
  ⟨_, by rw [rollsBack, proof_updProof_same, proof_updXport]⟩

theorem rolledBack_rollsBack (again : Bool) :
    RolledBack s p d (rollsBack (stepsDecided s (decisionNoted s p d) p d) p d again) := by
  generalize ht : stepsDecided s (decisionNoted s p d) p d = t
  obtain ⟨kept, computed⟩ := stepsDecided_kept s p (d := d) (decisionNoted s p d)
  rw [ht] at kept computed
  obtain ⟨held, y⟩ := rollsBack_proof p (d := d) t again
  have x : xport t p = { xport s p with nextMsg := (xport t p).nextMsg } := by rw [kept.xport, decisionNoted_xport]
  have restarts := kept.restarts
  have applied := kept.applied
  rw [decisionNoted_proof] at restarts applied
  constructor
  case rank => rw [rollsBack_xport, x, transportRestarted]
  case reprint =>
    rw [rollsBack_xport, x]
    simp only [transportRestarted, decide_eq_true_eq]
  case epoch => rw [rollsBack_xport, x, transportRestarted]
  case imp => rw [rollsBack_xport, x, transportRestarted]
  case colls => rw [rollsBack_xport, transportRestarted]
  case rmas => rw [rollsBack_xport, transportRestarted]
  case restarts => rw [y]; exact restarts
  case applied => rw [y]; exact applied
  case computed => rw [y]; exact computed

variable {s p} {t : State}

/-- The strikes of a DECISION keep what it has set; they end in STRUCK where one of them names the member. -/
theorem applyStrikes_kept (rolled : RolledBack s p d t) (rolls : (proof t p).slice = 4) :
    RolledBack s p d (applyStrikes t p d) ∧
      ((∀ e ∈ d.strikes, e.rank = ownRank s p → e.observe = true) → (proof (applyStrikes t p d) p).slice = 4) ∧
      ((∃ e ∈ d.strikes, e.rank = ownRank s p ∧ e.observe = false) → (proof (applyStrikes t p d) p).slice = 9) := by
  unfold applyStrikes
  extract_lets now n u own
  have hx : xport u p = xport t p := by rw [xport_updProof]
  have hp : proof u p = { proof t p with strikeTimes := (proof t p).strikeTimes ++ List.replicate n now } := proof_updProof_same _ _ _
  have rank : ownRank u p = ownRank s p := by rw [ownRank, hx, rolled.rank, ownRank]
  have kept : RolledBack s p d u := rolled.congr ⟨_, hx⟩ (by rw [hp]) (by rw [hp]) (by rw [hp])
  have rolling : (proof u p).slice = 4 := by rw [hp, rolls]
  have mine : ∀ e, e ∈ own ↔ e ∈ d.strikes ∧ e.rank = ownRank s p := by simp [own, rank]
  cases found : own.find? (fun e => !e.observe) with
  | some e =>
    have isOwn := (mine e).1 (List.mem_of_find?_eq_some found)
    have strikes : e.observe = false := by simpa using List.find?_some found
    obtain ⟨sx, struck, restarts, applied, computed⟩ := strikeSelf_struck u p d.reason e.reason (by rw [rolling]; decide) rfl
    refine ⟨kept.congr ⟨_, sx⟩ restarts applied computed, fun spared => ?_, fun _ => struck⟩
    rw [spared e isOwn.1 isOwn.2] at strikes
    contradiction
  | none =>
    have spared : ¬ ∃ e ∈ d.strikes, e.rank = ownRank s p ∧ e.observe = false := by
      rintro ⟨e, he, isOwn, strikes⟩
      have := List.find?_eq_none.1 found e ((mine e).2 ⟨he, isOwn⟩)
      simp [strikes] at this
    dsimp only
    split
    · exact ⟨kept, fun _ => rolling, fun named => absurd named spared⟩
    · have ho : xport (updProof u p (fun x => { x with observe := true })) p = xport u p := xport_updProof _ _ _ _
      have hq : proof (updProof u p (fun x => { x with observe := true })) p = { proof u p with observe := true } :=
        proof_updProof_same _ _ _
      exact ⟨kept.congr ⟨_, ho⟩ (by rw [hq]) (by rw [hq]) (by rw [hq]), fun _ => by rw [hq, rolling],
        fun named => absurd named spared⟩

end

/-- Settles O37. -/
theorem stopPressPackets : Obligations.StopPressPackets := by
  unfold Obligations.StopPressPackets
  refine ⟨?_, ?_⟩
  · intro s j p rank d raw r u member m at_ none_ mine
    refine ⟨fun arr current => ?_, fun arr old => ?_, fun arr hr => ?_, fun arr hr => ?_, fun arr hr => ?_,
      fun arr hn current => ?_, fun arr hn away => ?_, fun hawake round decides_ => ?_, fun hawake idle => ?_,
      fun hawake deciding round next => ⟨fun own => ?_, fun other => ?_⟩, fun hawake idle => ?_, fun hawake round own => ?_,
      fun hawake idle => ?_⟩
    · exact arr.ends (.inl rfl) rfl (recvStopPress_stop (rank := rank) (pk := { raw with sub := 0 }) member rfl current)
    · exact arr.ends (.inl rfl) rfl (recvStopPress_stop_older (rank := rank) (pk := { raw with sub := 0 }) member rfl old)
    · exact arr.ends (.inl rfl) rfl (recvStopPress_round (rank := rank) (pk := { raw with sub := 1 }) member
        (Nat.succ_ne_zero _) hr.1 hr.2)
    · exact arr.ends (.inl rfl) rfl (recvStopPress_round (rank := rank) (pk := { raw with sub := 2 }) member
        (Nat.succ_ne_zero _) hr.1 hr.2)
    · exact arr.ends (.inl rfl) rfl ((recvStopPress_round (rank := rank) (pk := { raw with sub := 3 }) member
        (Nat.succ_ne_zero _) hr.1 hr.2).trans
        (recvPoll_round hr.1))
    · exact arr.ends (.inl rfl) rfl (recvStopPress_noRound (rank := rank) (pk := { raw with sub := 2 }) member
        (Nat.succ_ne_zero _) hn current)
    · exact arr.ends (.inl rfl) rfl (recvStopPress_noRound_other (rank := rank) (pk := { raw with sub := 2 }) member
        (Nat.succ_ne_zero _) hn away)
    · exact done_next hawake (collectTimeout_decides round decides_)
    · exact done_next hawake (collectTimeout_idle idle)
    · exact done_next hawake (nextRound_own deciding round next own)
    · exact done_next hawake (nextRound_other deciding round next other)
    · exact done_next hawake (nextRound_idle idle)
    · exact done_next hawake (safePointMissed_round round own)
    · exact done_next hawake (safePointMissed_idle idle)
  · intro s p d t x
    refine ⟨applyDecision_ignored s p, fun open_ round => ?_⟩
    obtain ⟨held, rolls⟩ := rollsBack_proof p (d := d) (stepsDecided s (decisionNoted s p d) p d)
      (d.reason == 0x1A && (proof s p).unreachable)
    obtain ⟨kept, spared, struck⟩ := applyStrikes_kept (rolledBack_rollsBack s p _) (congrArg Proof.slice rolls)
    rw [← applyDecision_open s p (d := d) open_ round] at kept spared struck
    exact ⟨kept.reprint, kept.epoch, kept.imp, kept.colls, kept.rmas, kept.restarts, kept.applied, kept.computed, spared, struck⟩

end Sys2Proof.Machine
end

section
/-! What a STOP stops (11 R350; 08 R255). -/

namespace Sys2Proof.Machine

/-! ### What stopping programs and descriptors leaves of the queues and cores -/

/-- `t` has the cores, the map of the cores, the mode and the states of the queues of `s`, and no descriptor started that `s` has
not. -/
structure HaltKept (s t : State) : Prop where
  pmode : t.pmode = s.pmode
  coreMap : t.coreMap = s.coreMap
  cores : t.cores = s.cores
  state : ∀ h q, (queue t h q).state = (queue s h q).state
  stopwhy : ∀ h q, (queue t h q).stopwhy = (queue s h q).stopwhy
  flights : ∀ h, ∀ f ∈ (hport t h).flights, f ∈ (hport s h).flights

namespace HaltKept

theorem trans {s t u : State} (a : HaltKept s t) (b : HaltKept t u) : HaltKept s u where
  pmode := b.pmode.trans a.pmode
  coreMap := b.coreMap.trans a.coreMap
  cores := b.cores.trans a.cores
  state h q := (b.state h q).trans (a.state h q)
  stopwhy h q := (b.stopwhy h q).trans (a.stopwhy h q)
  flights h f hf := a.flights h f (b.flights h f hf)

theorem refl (s : State) : HaltKept s s := ⟨rfl, rfl, rfl, fun _ _ => rfl, fun _ _ => rfl, fun _ _ => id⟩

theorem of_routine {s t : State} (r : Routine s t) : HaltKept s t :=
  ⟨r.pmode, by rw [r.frame], r.cores, r.queue_state, r.queue_stopwhy, r.flights⟩

/-- A change that neither the cores nor the host ports see. -/
theorem of_frame {s t : State} (cores : t.cores = s.cores) (coreMap : t.coreMap = s.coreMap) (pmode : t.pmode = s.pmode)
    (hps : t.hps = s.hps) : HaltKept s t where
  pmode := pmode
  coreMap := coreMap
  cores := cores
  state h q := by rw [queue, hport, hps]; rfl
  stopwhy h q := by rw [queue, hport, hps]; rfl
  flights h f hf := by rwa [hport, hps] at hf

theorem of_ite {s t u : State} {c : Prop} [Decidable c] (a : HaltKept s t) (b : HaltKept s u) : HaltKept s (if c then t else u) := by
  split
  · exact a
  · exact b

theorem foldl {α : Type} {g : State → α → State} (hg : ∀ s a, HaltKept s (g s a)) (l : List α) (s : State) :
    HaltKept s (l.foldl g s) := by
  induction l generalizing s with
  | nil => exact refl s
  | cons a l ih => exact (hg s a).trans (ih (g s a))

section
variable {s t : State} (k : HaltKept s t)
include k
theorem core (c : Nat) : core t c = Machine.core s c := by rw [Machine.core, Machine.core, k.cores]
theorem physOf (l : Nat) : physOf t l = Machine.physOf s l := by rw [Machine.physOf, Machine.physOf, k.coreMap]
theorem lcores : lcores t = Machine.lcores s := by rw [Machine.lcores, Machine.lcores, nparts, nparts, k.pmode]
end

end HaltKept

section
variable (s : State)

theorem haltKept_updLaunch (id : Nat) (f : Launch → Launch) : HaltKept s (updLaunch s id f) := .of_frame rfl rfl rfl rfl

theorem haltKept_launchDone (id : Nat) : HaltKept s (launchDone s id) := by
  unfold launchDone
  split
  · exact .refl s
  · next l _ =>
    extract_lets st u h
    have dropped : HaltKept s u := .of_frame rfl rfl rfl rfl
    refine .of_ite (dropped.trans ?_) (.refl s)
    split
    · exact .of_routine ((routine_dropFlight _ _ _).trans (routine_completeDesc _ _ _ _ _ _ _ _ (.inr rfl)))
    · exact .refl _

/-- The exit record of a core of a launch that has not started its program. -/
def stopWaitingCore (p : Nat) (l : Launch) (s : State) (n : Nat) : State :=
  let va := l.exitva + 16 * n
  let bs := exitBytes 0 3 0 0xFF 0 (core s (physOf s n)).entry
  let s := if scopeOk s p .host true va 16 then vwrite s p va (.clean bs) else s
  updLaunch s l.id (fun l => { l with stopped := l.stopped + 1 })

/-- A launch of the partition of which programs have not started: each exit record is written, and the launch ends. -/
def stopWaiting (p : Nat) (s : State) (l : Launch) : State :=
  launchDone (updLaunch (l.waiting.foldl (stopWaitingCore p l) s) l.id (fun l => { l with waiting := [] })) l.id

theorem haltKept_stopWaiting (p : Nat) (l : Launch) : HaltKept s (stopWaiting p s l) := by
  refine (HaltKept.foldl (fun s n => ?_) l.waiting s).trans ((haltKept_updLaunch _ _ _).trans (haltKept_launchDone _ _))
  unfold stopWaitingCore
  extract_lets va bs u
  have written : HaltKept s u := .of_ite (.of_routine (routine_vwrite s _ _ _)) (.refl s)
  exact written.trans (haltKept_updLaunch _ _ _)

/-! ### Programs -/

/-- A core whose program has ended. -/
def coreIdle (k : Core) : Core := { k with csq := .idle, launch := 0 }

/-- The program of core `c` ends; the other cores run on. -/
theorem endProgram_cores (c : Nat) (x : Exit) : HaltKept (updCore s c coreIdle) (endProgram s c x) := by
  unfold endProgram
  extract_lets k
  split
  · dsimp only
    have emptied : HaltKept (updCore s c coreIdle) (updCore (updUnits s c emptyQueues) c coreIdle) := .of_frame rfl rfl rfl rfl
    refine ((emptied.trans ?_).trans (haltKept_updLaunch _ _ _)).trans (haltKept_launchDone _ _)
    exact .of_ite (.of_routine (routine_vwrite _ _ _ _)) (.refl _)
  · exact .of_frame rfl rfl rfl rfl

/-- One logical core of a partition that stops: the program of a step ends. -/
def stopCore (s : State) (l : Nat) : State := if (core s (physOf s l)).inStep then stopProgram s (physOf s l) else s

/-- What stopping logical cores does: a core that it changes runs a program of a step, which ends. -/
structure CoresStop (s t : State) : Prop where
  pmode : t.pmode = s.pmode
  coreMap : t.coreMap = s.coreMap
  state : ∀ h q, (queue t h q).state = (queue s h q).state
  stopwhy : ∀ h q, (queue t h q).stopwhy = (queue s h q).stopwhy
  flights : ∀ h, ∀ f ∈ (hport t h).flights, f ∈ (hport s h).flights
  core : ∀ c, core t c = core s c ∨ ((core s c).inStep = true ∧ core t c = coreIdle (core s c))

namespace CoresStop

theorem of_haltKept {s t : State} (k : HaltKept s t) : CoresStop s t :=
  ⟨k.pmode, k.coreMap, k.state, k.stopwhy, k.flights, fun c => .inl (k.core c)⟩

theorem trans {s t u : State} (a : CoresStop s t) (b : CoresStop t u) : CoresStop s u where
  pmode := b.pmode.trans a.pmode
  coreMap := b.coreMap.trans a.coreMap
  state h q := (b.state h q).trans (a.state h q)
  stopwhy h q := (b.stopwhy h q).trans (a.stopwhy h q)
  flights h f hf := a.flights h f (b.flights h f hf)
  core c := by
    rcases a.core c with e | ⟨step, e⟩ <;> rcases b.core c with e' | ⟨step', e'⟩
    · exact .inl (e'.trans e)
    · rw [e] at step' e'
      exact .inr ⟨step', e'⟩
    · exact .inr ⟨step, e'.trans e⟩
    · rw [e] at e'
      exact .inr ⟨step, e'⟩

section
variable {s t : State} (k : CoresStop s t)
include k
theorem physOf (l : Nat) : physOf t l = Machine.physOf s l := by rw [Machine.physOf, Machine.physOf, k.coreMap]

/-- A core that runs no program of a step does not start one. -/
theorem stays {c : Nat} (stopped : running s c = true → (Machine.core s c).inStep = false) :
    running t c = true → (Machine.core t c).inStep = false := by
  rcases k.core c with e | ⟨-, e⟩
  · rwa [running, e]
  · simp [running, e, coreIdle]

end

end CoresStop

theorem stopCore_stops (l : Nat) : CoresStop s (stopCore s l) ∧
    (∀ c, c ≠ physOf s l → core (stopCore s l) c = core s c) ∧
    (running (stopCore s l) (physOf s l) = true → (core (stopCore s l) (physOf s l)).inStep = false) := by
  have idle : HaltKept s s := .refl s
  unfold stopCore stopProgram
  split
  · next step =>
    split
    · next runs =>
      have k := endProgram_cores s (physOf s l) { outcome := 3, pc := (core s (physOf s l)).pc }
      have other (c : Nat) (away : c ≠ physOf s l) := (k.core c).trans (by rw [core_updCore, if_neg away])
      have own := (k.core (physOf s l)).trans (core_updCore_same s _ _)
      refine ⟨⟨k.pmode, k.coreMap, k.state, k.stopwhy, k.flights, fun c => ?_⟩, other, ?_⟩
      · by_cases e : c = physOf s l
        · subst e
          exact .inr ⟨step, own⟩
        · exact .inl (other c e)
      · rw [running, own]
        simp [coreIdle]
    · next rests => exact ⟨.of_haltKept idle, fun _ _ => rfl, fun runs => absurd runs rests⟩
  · next other => exact ⟨.of_haltKept idle, fun _ _ => rfl, fun _ => by simpa using other⟩

/-- Stopping a list of logical cores: none of them runs a program of a step then, and no other core changes. -/
theorem foldl_stopCore (ls : List Nat) : CoresStop s (ls.foldl stopCore s) ∧
    (∀ c, (∀ l ∈ ls, c ≠ physOf s l) → core (ls.foldl stopCore s) c = core s c) ∧
    ∀ l ∈ ls, running (ls.foldl stopCore s) (physOf s l) = true → (core (ls.foldl stopCore s) (physOf s l)).inStep = false := by
  induction ls generalizing s with
  | nil => exact ⟨.of_haltKept (.refl s), fun _ _ => rfl, by simp⟩
  | cons l ls ih =>
    obtain ⟨first, others, stopped⟩ := stopCore_stops s l
    obtain ⟨rest, others', stopped'⟩ := ih (stopCore s l)
    refine ⟨first.trans rest, fun c away => ?_, fun m hm => ?_⟩
    · rw [List.foldl_cons, others' c fun m hm => by rw [first.physOf]; exact away m (List.mem_cons_of_mem _ hm),
        others c (away l List.mem_cons_self)]
    · rcases List.mem_cons.1 hm with rfl | hm
      · exact rest.stays stopped
      · have := stopped' m hm
        rwa [first.physOf] at this

/-! ### The whole of it -/

theorem mem_upto {lo n x : Nat} : x ∈ upto lo n ↔ lo ≤ x ∧ x < lo + n := by
  simp only [upto, List.mem_map, List.mem_range]
  exact ⟨fun ⟨i, hi, e⟩ => by omega, fun ⟨a, b⟩ => ⟨x - lo, by omega, by omega⟩⟩

theorem stopLaunches_haltKept (p : Nat) :
    HaltKept ((upto (p * lcores s) (lcores s)).foldl stopCore s) (stopLaunches s p) := by
  unfold stopLaunches
  exact .foldl (fun s l => haltKept_stopWaiting s p l) _ _

/-- The descriptors that are completed are no longer started. -/
theorem foldl_finishFlight_flights (h : Nat) (st : St) (stays : st ≠ .outOfScope) (l : List Flight) :
    ∀ g ∈ (hport (l.foldl (fun s f => finishFlight s h f st 0) s) h).flights, g ∈ (hport s h).flights ∧ g ∉ l := by
  induction l generalizing s with
  | nil => exact fun g hg => ⟨hg, by simp⟩
  | cons f l ih =>
    intro g hg
    obtain ⟨before, away⟩ := ih (finishFlight s h f st 0) g hg
    have k : Routine (dropFlight s h f) (finishFlight s h f st 0) := routine_completeDesc _ _ _ _ _ _ _ _ (.inl stays)
    have kept := k.flights h g before
    rw [dropFlight, hport_updHp_same, List.mem_filter] at kept
    exact ⟨kept.1, by simp [away, show g ≠ f by simpa using kept.2]⟩

/-- The state in which the programs and the started descriptors of a partition's steps have ended. -/
def stepsStopped (s : State) (p : Nat) : State :=
  let h := partHp s p
  let s := stopLaunches (stopQueues s h 1) p
  ((hport s h).flights.filter halts).foldl (fun s f => finishFlight s h f .stoppedPress 0) s

theorem stepsStopped_flights (p : Nat) : ∀ f ∈ (hport (stepsStopped s p) (partHp s p)).flights, halts f = false := by
  intro f hf
  obtain ⟨started, done_⟩ := foldl_finishFlight_flights _ (partHp s p) .stoppedPress (by decide) _ f hf
  by_contra halting
  exact done_ (List.mem_filter.2 ⟨started, by simpa using halting⟩)

theorem stepsStopped_haltKept (p : Nat) :
    HaltKept ((upto (p * lcores s) (lcores s)).foldl stopCore (stopQueues s (partHp s p) 1)) (stepsStopped s p) :=
  (stopLaunches_haltKept (stopQueues s (partHp s p) 1) p).trans
    (.foldl (fun s f => .of_routine (routine_finishFlight s _ f _ _ (by decide))) _ _)

/-! Dropping what the transport, the mirror and the snapshots still hold of the steps. -/

theorem haltKept_parts (p : Nat) (f : Xport → Xport) (g : Mirror → Mirror) (k : Snap → Snap) :
    HaltKept s (updSnap (updMirror (updXport s p f) p g) p k) := .of_frame rfl rfl rfl rfl

theorem stopWork_haltKept (p : Nat) : HaltKept (stepsStopped s p) (stopWork s p) := by
  unfold stopWork stepsStopped
  dsimp only
  exact haltKept_parts _ p _ _ _

end

/-- Settles O38. -/
theorem stopHaltsTheWork : Obligations.StopHaltsTheWork := by
  unfold Obligations.StopHaltsTheWork
  intro s p _ h t
  obtain ⟨cores, others, stopped_⟩ := foldl_stopCore (stopQueues s h 1) (upto (p * lcores s) (lcores s))
  have k : HaltKept ((upto (p * lcores s) (lcores s)).foldl stopCore (stopQueues s h 1)) t :=
    (stepsStopped_haltKept s p).trans (stopWork_haltKept s p)
  have all := cores.trans (.of_haltKept k)
  have member (l : Nat) : l ∈ upto (p * lcores s) (lcores s) ↔ p * lcores s ≤ l ∧ l < (p + 1) * lcores s := by
    rw [mem_upto, Nat.succ_mul]
  refine ⟨fun q small live => ?_, fun q small frozen => ?_, fun f hf => ?_, fun l lo hi => ?_, fun c loose => ?_, fun c away => ?_,
    ?_, ?_, ?_⟩
  · rw [all.state, all.stopwhy, queue_stopQueues s h 1 q small, stopped, if_neg live]
    exact ⟨rfl, rfl⟩
  · rw [all.state, queue_stopQueues s h 1 q small, stopped, if_pos frozen, frozen]
  · exact stepsStopped_flights s p f ((stopWork_haltKept s p).flights h f hf)
  · have idle := (CoresStop.of_haltKept k).stays (stopped_ l ((member l).2 ⟨lo, hi⟩))
    rwa [← cores.physOf, ← k.physOf] at idle
  · rcases all.core c with e | ⟨step, -⟩
    · exact e
    · exact absurd (step.symm.trans loose) Bool.noConfusion
  · rw [k.core]
    exact others c fun l hl => Ne.symm (away l ((member l).1 hl).1 ((member l).1 hl).2)
  · simp only [t, stopWork, mirror_updSnap, mirror_updMirror_same]
  · simp only [t, stopWork, snap_updSnap_same]
  · simp only [t, stopWork, snap_updSnap_same]

end Sys2Proof.Machine
end

section
/-! Received flits of a port, and its training (09 R265, R270 to R278, R288). -/

namespace Sys2Proof.Machine

section
variable {s : State} {j : Nat} {f : Flit}

/-! ### Received flits -/

theorem rxFlit_deaf {k : State → State} (deaf : hears (port s j) = false) : rxFlit s j f k = s := if_pos (by simp [deaf])

section
variable (hears_ : hears (port s j) = true)
include hears_

theorem rxFlit_injected {k : State → State} (injected : (port s j).inject = true) :
    rxFlit s j f k = rxInvalid (updPort s j (fun x => { x with inject := false })) j :=
  (if_neg (by simp [hears_])).trans (if_pos injected)

variable (clean : (port s j).inject = false)
include clean

theorem rxFlit_invalid {k : State → State} (bad : flitValid f = false) : rxFlit s j f k = rxInvalid s j :=
  (if_neg (by simp [hears_])).trans ((if_neg (by simp [clean])).trans (if_neg (by simp [bad])))

variable (valid : flitValid f = true)
include valid

theorem rxFlit_valid (k : State → State) : rxFlit s j f k = k (rxHeader s j f) :=
  (if_neg (by simp [hears_])).trans ((if_neg (by simp [clean])).trans (if_pos valid))

theorem rxLctl_valid {c : Nat} (kind : fKind f = 2) (type_ : leAt (fPayload f) 0 1 = c) (k : State → Bytes → State) :
    rxLctl s j c f k = k (rxHeader s j f) (fPayload f) := by
  rw [rxLctl, rxFlit_valid hears_ clean valid, if_neg (not_not_intro kind), if_pos type_]

end

end

section
variable {s : State} {j : Nat} {lanes : BitVec 8} {m : Nat}

/-! ### Training -/

/-- Signal stands on these lanes. -/
def lanesLit (s : State) (j : Nat) (lanes : BitVec 8) : State := updPort s j (fun x => { x with signal := lanes })

theorem lanesLit_state : (port (lanesLit s j lanes) j).state = (port s j).state := by rw [lanesLit, port_updPort_same]

theorem signalSeen_trains (detect : (port s j).state = 1) (six : 6 ≤ (healthyIn (port (lanesLit s j lanes) j) lanes).length) :
    signalSeen s j lanes = sendLaneMap (updPort (movePort (lanesLit s j lanes) j 2) j (fun x => { x with
      activeLanes := (ownMap (port (lanesLit s j lanes) j)).2.1, standby := (ownMap (port (lanesLit s j lanes) j)).2.2
      mapAgreed := false })) j :=
  if_pos ⟨lanesLit_state.trans detect, six⟩

theorem signalSeen_stays
    (not_ : (port s j).state ≠ 1 ∨ (healthyIn (port (lanesLit s j lanes) j) lanes).length < 6) :
    signalSeen s j lanes = lanesLit s j lanes :=
  if_neg fun ⟨detect, six⟩ => not_.elim (· (lanesLit_state.symm.trans detect)) (Nat.not_lt.2 six)

theorem signalLost_detects (trained : (port s j).state = 2 ∨ (port s j).state = 3 ∨ (port s j).state = 8)
    (few : (healthyIn (port (lanesLit s j lanes) j) lanes).length < 6) :
    signalLost s j lanes = toDetect (lanesLit s j lanes) j := by
  refine if_pos ⟨?_, few⟩
  rw [← lanesLit_state (lanes := lanes)] at trained
  exact trained

theorem signalLost_stays (six : 6 ≤ (healthyIn (port (lanesLit s j lanes) j) lanes).length) :
    signalLost s j lanes = lanesLit s j lanes :=
  if_neg fun ⟨_, few⟩ => Nat.not_lt.2 six few

/-- These lanes gain alignment. -/
def lanesAligned (s : State) (j : Nat) (lanes : BitVec 8) : State := updPort s j (fun x => { x with aligned := x.aligned ||| lanes })

theorem lanesAligned_state : (port (lanesAligned s j lanes) j).state = (port s j).state := by rw [lanesAligned, port_updPort_same]

theorem hears_of_state {x : Port} (trained : 2 ≤ x.state) (inService : x.state ≠ 9) : hears x = true := by
  simp [hears, trained, inService]

theorem fecGained_equalise (equalise : (port s j).state = 2) :
    fecGained s j lanes = tryIdentify (offerMap (lanesAligned s j lanes) j) j :=
  (if_pos (hears_of_state (by omega) (by omega))).trans (if_pos (lanesAligned_state.trans equalise))

theorem fecGained_recover (recover : (port s j).state = 6) : fecGained s j lanes = checkRecover (lanesAligned s j lanes) j :=
  (if_pos (hears_of_state (by omega) (by omega))).trans
    (if_neg fun e => by
      have := lanesAligned_state (s := s) (j := j) (lanes := lanes)
      rw [recover] at this
      exact absurd (this.symm.trans e) (by decide))

theorem fecGained_deaf (untrained : (port s j).state < 2) : fecGained s j lanes = s :=
  if_neg (by simp [hears, Nat.not_le.2 untrained])

theorem fecLost_standby (standby : (port s j).activeLanes.getLsbD m = false) :
    fecLost s j m = updPort s j (fun x => { x with aligned := x.aligned &&& ~~~BitVec.ofNat 8 (2 ^ m) }) :=
  if_neg (by simp [standby])

theorem fecLost_recovers (active : (port s j).activeLanes.getLsbD m = true)
    (up : (port s j).state = 4 ∨ (port s j).state = 5) :
    fecLost s j m = goRecover (updPort s j (fun x => { x with aligned := x.aligned &&& ~~~BitVec.ofNat 8 (2 ^ m) })) j :=
  (if_pos active).trans (if_pos up)

theorem fecLost_detects (active : (port s j).activeLanes.getLsbD m = true)
    (training : (port s j).state = 2 ∨ (port s j).state = 3 ∨ (port s j).state = 8) :
    fecLost s j m = toDetect (updPort s j (fun x => { x with aligned := x.aligned &&& ~~~BitVec.ofNat 8 (2 ^ m) })) j :=
  (if_pos active).trans ((if_neg (by omega)).trans (if_pos training))

/-- A LANE_MAP that names no lane retired, in EQUALISE with six healthy lanes: the maps agree when they are equal. -/
theorem rxLaneMap_agrees {pl : Bytes} (equalise : (port s j).state = 2) (none_ : leAt pl 3 1 = 0)
    (six : 6 ≤ (healthyLanes (port s j)).length) :
    rxLaneMap s j pl =
      let y := port (offerMap s j) j
      tryIdentify (updPort (offerMap s j) j (fun x => { x with
        mapAgreed := leAt pl 1 1 == y.activeLanes.toNat && leAt pl 2 1 == y.standby.toNat &&
          leAt pl 3 1 == y.retired.toNat })) j := by
  have kept : retireLanes s j (bitsSet (leAt pl 3 1) 8) = s := by rw [none_]; rfl
  rw [rxLaneMap, if_pos (.inl equalise), kept, if_neg (by omega), if_neg (by omega)]

/-! ### The times of the states -/

theorem recover_timers (other : (port s j).state ∉ [2, 6, 7]) :
    (if (port s j).state = 2 then countRetrain (toDetect s j) j else s) = s ∧
    (if (port s j).state = 6 then toDetect s j else s) = s ∧ (if (port s j).state = 7 then toDetect s j else s) = s := by
  simp only [List.mem_cons, List.not_mem_nil, or_false, not_or] at other
  obtain ⟨not2, not6, not7⟩ := other
  exact ⟨if_neg not2, if_neg not6, if_neg not7⟩

end

/-- Settles O43. -/
theorem portsTrain : Obligations.PortsTrain := by
  unfold Obligations.PortsTrain
  intro s j lanes m f hawake x sig ali off own
  refine ⟨fun detect six => ?_, fun not_ => ?_, fun trained few => ?_, fun six => ?_, fun equalise => ?_, fun recover => ?_,
    fun untrained => ?_, fun standby => ?_, fun active => ⟨fun up => ?_, fun training => ?_⟩, ?_, fun equalise => ?_,
    fun recover => ?_, fun retrain => ?_, fun other => ?_⟩
  · exact done_next hawake (signalSeen_trains detect six)
  · exact done_next hawake (signalSeen_stays not_)
  · exact done_next hawake (signalLost_detects trained few)
  · exact done_next hawake (signalLost_stays six)
  · exact done_next hawake (fecGained_equalise equalise)
  · exact done_next hawake (fecGained_recover recover)
  · exact done_next hawake (fecGained_deaf untrained)
  · exact done_next hawake (fecLost_standby standby)
  · exact done_next hawake (fecLost_recovers active up)
  · exact done_next hawake (fecLost_detects active training)
  · intro hears_ clean valid kind type_ equalise none_ six t y same
    exact done_next hawake ((rxLctl_valid hears_ clean valid kind type_ _).trans (rxLaneMap_agrees equalise none_ six))
  · exact done_next hawake (if_pos equalise)
  · exact done_next hawake (if_pos recover)
  · exact done_next hawake (if_pos retrain)
  · obtain ⟨a, b, c⟩ := recover_timers other
    simp only [List.forall_mem_cons, List.not_mem_nil, false_imp_iff, implies_true, and_true]
    exact ⟨done_next hawake a, done_next hawake b, done_next hawake c⟩

end Sys2Proof.Machine
end

section
/-! IDENT and CREDIT_INIT (09 R269, R280 to R284). -/

namespace Sys2Proof.Machine

section
variable {s : State} {j p : Nat} {pl : Bytes} {i : IdentMsg}

/-! ### The credits that a port sends -/

/-- Sending the credits leaves the state of the port, its wait for a newer IDENT and what it knows of its partner. -/
theorem sendCredits_port (s : State) (j : Nat) :
    (port (sendCredits s j) j).state = (port s j).state ∧ (port (sendCredits s j) j).epochWait = (port s j).epochWait ∧
      (port (sendCredits s j) j).link.creditInit = (port s j).link.creditInit := by
  unfold sendCredits
  split
  · exact ⟨rfl, rfl, rfl⟩
  · simp only [sendLctl, sendCtrl, emit_port, port_updPort_same, updLink, and_self]

theorem sendCredits_xport (s : State) (j p : Nat) : xport (sendCredits s j) p = xport s p := by
  unfold sendCredits
  split
  · rfl
  · rfl

/-! ### The verdict on the last IDENT -/

section
variable {r : Nat}

theorem actOnIdent_quarantine (identify : (port s j).state = 3) (bad : r ≠ 0) : actOnIdent s p j r = quarantine s j r :=
  (if_pos identify).trans (if_pos bad)

theorem actOnIdent_unloaded (identify : (port s j).state = 3) (none_ : (xport s p).imp = none) : actOnIdent s p j 0 = s :=
  (if_pos identify).trans ((if_neg (not_not_intro rfl)).trans (if_pos (by simp [none_])))

/-- The port passes every check: READY. -/
def portReady (s : State) (j : Nat) : State := updPort (movePort s j 4) j (fun y => { y with qreason := 0 })

theorem actOnIdent_ready (identify : (port s j).state = 3) (loaded : (xport s p).imp ≠ none) : actOnIdent s p j 0 = portReady s j :=
  (if_pos identify).trans ((if_neg (not_not_intro rfl)).trans (if_neg (by simp [Option.isNone_iff_eq_none, loaded])))

section
variable (current : (port s j).epochWait = false)
include current

theorem actOnIdent_shown (state : (port s j).state = 4) :
    actOnIdent s p j r = updPort s j (fun y => { y with qreason := r }) :=
  (if_neg (by omega)).trans ((if_neg (by simp [current])).trans ((if_neg (by omega)).trans (if_pos state)))

theorem actOnIdent_released (state : (port s j).state = 8) : actOnIdent s p j 0 = portReady s j :=
  (if_neg (by omega)).trans ((if_neg (by simp [current])).trans ((if_pos state).trans (if_pos rfl)))

theorem actOnIdent_stays (state : (port s j).state = 8) (bad : r ≠ 0) :
    actOnIdent s p j r = updPort s j (fun y => { y with qreason := r }) :=
  (if_neg (by omega)).trans ((if_neg (by simp [current])).trans ((if_pos state).trans (if_neg bad)))

end

end

/-- The port shows the version that it and its peer have agreed on. -/
def versionShown (s : State) (j : Nat) (i : IdentMsg) : State := updPort s j (fun y => { y with version := negotiated s i })

section
variable (peer : (port s j).peer = some i) (hp : portPart s j = some p)
include peer hp

theorem evalIdent_eq : evalIdent s j =
    if negotiated s i = 0 then actOnIdent (versionShown s j i) p j 4
    else if (port (sendCredits (versionShown s j i) j) j).link.creditInit then
      actOnIdent (sendCredits (versionShown s j i) j) p j (identVerdict (sendCredits (versionShown s j i) j) p j i)
    else sendCredits (versionShown s j i) j := by
  simp only [evalIdent, peer, hp]
  rfl

variable (link : (port s j).link.creditInit = true) (agreed : negotiated s i ≠ 0)
include link agreed

theorem evalIdent_judged : evalIdent s j =
    actOnIdent (sendCredits (versionShown s j i) j) p j (identVerdict (sendCredits (versionShown s j i) j) p j i) := by
  rw [evalIdent_eq peer hp, if_neg agreed, if_pos]
  rw [(sendCredits_port _ j).2.2, versionShown, port_updPort_same]
  exact link

end

/-! ### Their receipt -/

/-- The peer has given its IDENT. -/
def identGot (s : State) (j : Nat) (i : IdentMsg) : State := updPort s j (fun x => { x with peer := some i, gotIdent := true })

theorem rxIdent_talks (talks_ : talks (port s j) = true) : rxIdent s j pl = evalIdent (identGot s j (identOf pl)) j := if_pos talks_

theorem rxIdent_retrain (retrain : (port s j).state = 7) : rxIdent s j pl = identGot s j (identOf pl) :=
  (if_neg (by simp [talks, retrain])).trans (if_pos retrain)

/-- The partner has given its credits. -/
def creditsGot (s : State) (j : Nat) (pl : Bytes) : State :=
  updLink s j (fun l => { l with
    credit := mofList 0 0 ((List.range 8).map (fun v => leAt pl (4 + 2 * v) 2)), creditInit := true })

theorem rxCredits_kept (trained : (port s j).state = 3 ∨ (port s j).state = 4 ∨ (port s j).state = 8)
    (waits : ¬ ((port s j).state = 3 ∧ (port s j).gotIdent = true)) : rxCredits s j pl = creditsGot s j pl :=
  (if_pos trained).trans (if_neg waits)

theorem rxCredits_judged (identify : (port s j).state = 3) (got : (port s j).gotIdent = true) :
    rxCredits s j pl = evalIdent (creditsGot s j pl) j :=
  (if_pos (.inl identify)).trans (if_pos ⟨identify, got⟩)

end

/-- Settles O44. -/
theorem portsIdentify : Obligations.PortsIdentify := by
  unfold Obligations.PortsIdentify
  intro s j p f hawake _ x t i got cr ver sent r shown ready lctl
  have taken {k : Nat} {u : State} {e : State → Bytes → State} (l : lctl k) (h : e t (fPayload f) = u) : rxLctl s j k f e = u := by
    obtain ⟨clean, valid, kind, type_, hears_, _⟩ := l
    exact (rxLctl_valid hears_ clean valid kind type_ e).trans h
  have gotPort : port got j = { port t j with peer := some i, gotIdent := true } := port_updPort_same ..
  have verPort : port ver j = { port got j with version := negotiated t i } := port_updPort_same ..
  have verState : (port ver j).state = (port t j).state := by rw [verPort, gotPort]
  have state : (port sent j).state = (port t j).state := (sendCredits_port ver j).1.trans verState
  have epochWait : (port sent j).epochWait = (port t j).epochWait := (sendCredits_port ver j).2.1.trans (by rw [verPort, gotPort])
  have imp : (xport sent p).imp = (xport t p).imp := by rw [sendCredits_xport]; rfl
  have eval (l : lctl 3) := evalIdent_eq (s := got) (by rw [gotPort]) l.2.2.2.2.2
  have judged (l : lctl 3) (agreed : negotiated t i ≠ 0) (link : (port t j).link.creditInit = true) :
      evalIdent got j = actOnIdent sent p j r :=
    evalIdent_judged (s := got) (by rw [gotPort]) l.2.2.2.2.2 (by rw [gotPort]; exact link) agreed
  have talks_ {n : Nat} (h : (port t j).state = n) (hn : n = 3 ∨ n = 4 ∨ n = 8) : talks (port t j) = true := by
    rcases hn with rfl | rfl | rfl <;> simp [talks, h]
  refine ⟨fun l identify none_ => ?_, fun l tk agreed unlinked => ?_, fun l agreed link => ⟨fun identify bad => ?_,
    fun identify ok unloaded => ?_, fun identify ok loaded => ?_, fun st current => ?_, fun st current ok => ?_,
    fun st current bad => ?_⟩, fun l retrain => ?_, fun l st => ?_, fun l identify waits => ?_, fun l identify hasIdent => ?_,
    fun st => ?_, fun st => ?_, fun identify (waits : (port s j).gotIdent = false) => ?_,
    fun (hasIdent : (port s j).gotIdent = true) => ?_, fun waits => ?_, fun (current : (port s j).epochWait = false) => ?_⟩
  · refine done_next hawake (taken l ((rxIdent_talks (talks_ identify (.inl rfl))).trans ((eval l).trans
      ((if_pos none_).trans (actOnIdent_quarantine ?_ (by decide))))))
    exact verState.trans identify
  · refine done_next hawake (taken l ((rxIdent_talks tk).trans ((eval l).trans ((if_neg agreed).trans (if_neg ?_)))))
    have : (port sent j).link.creditInit = false := (sendCredits_port ver j).2.2.trans (by rw [verPort, gotPort]; exact unlinked)
    exact fun e => Bool.false_ne_true (this.symm.trans e)
  · exact done_next hawake (taken l ((rxIdent_talks (talks_ identify (.inl rfl))).trans ((judged l agreed link).trans
      (actOnIdent_quarantine (state.trans identify) bad))))
  · refine done_next hawake (taken l ((rxIdent_talks (talks_ identify (.inl rfl))).trans ((judged l agreed link).trans ?_)))
    rw [ok]
    exact actOnIdent_unloaded (state.trans identify) (imp.trans unloaded)
  · refine done_next hawake (taken l ((rxIdent_talks (talks_ identify (.inl rfl))).trans ((judged l agreed link).trans ?_)))
    rw [ok]
    exact actOnIdent_ready (state.trans identify) (imp ▸ loaded)
  · exact done_next hawake (taken l ((rxIdent_talks (talks_ st (.inr (.inl rfl)))).trans ((judged l agreed link).trans
      (actOnIdent_shown (epochWait.trans current) (state.trans st)))))
  · refine done_next hawake (taken l ((rxIdent_talks (talks_ st (.inr (.inr rfl)))).trans ((judged l agreed link).trans ?_)))
    rw [ok]
    exact actOnIdent_released (epochWait.trans current) (state.trans st)
  · exact done_next hawake (taken l ((rxIdent_talks (talks_ st (.inr (.inr rfl)))).trans ((judged l agreed link).trans
      (actOnIdent_stays (epochWait.trans current) (state.trans st) bad))))
  · exact done_next hawake (taken l (rxIdent_retrain retrain))
  · exact done_next hawake (taken l (rxCredits_kept (.inr st) fun h => by omega))
  · exact done_next hawake (taken l (rxCredits_kept (.inl identify) fun h => Bool.false_ne_true (waits.symm.trans h.2)))
  · exact done_next hawake (taken l (rxCredits_judged identify hasIdent))
  · exact done_next hawake (if_pos st)
  · exact done_next hawake (if_neg (by simpa using st))
  · exact done_next hawake (if_pos ⟨identify, by simp [waits]⟩)
  · exact done_next hawake (if_neg (by simp [hasIdent]))
  · exact done_next hawake (if_pos waits)
  · exact done_next hawake (if_neg (by simp [current]))

end Sys2Proof.Machine
end

section
/-! Retraining and the windows of the bit error rate (09 R285 to R292). -/

namespace Sys2Proof.Machine

section
variable {s : State} {j : Nat} {pl : Bytes}

/-! ### The requests -/

section
variable (up : (port s j).state = 4 ∨ (port s j).state = 5)
include up

theorem rxRetrainReq_answered (fresh_ : (port s j).retrainAsked = none) :
    rxRetrainReq s j pl = enterRetrain (sendLctl s j 6 (leBytes 1 (leAt pl 1 1))) j := by
  rw [rxRetrainReq, if_pos up, fresh_]
  rfl

theorem rxRetrainReq_asked (asked : (port s j).retrainAsked ≠ none) : rxRetrainReq s j pl = enterRetrain s j := by
  rw [rxRetrainReq, if_pos up, if_pos (Option.isSome_iff_ne_none.2 asked)]

theorem rxRetrainAck_asked (asked : (port s j).retrainAsked ≠ none) : rxRetrainAck s j = enterRetrain s j :=
  if_pos ⟨up, Option.isSome_iff_ne_none.2 asked⟩

theorem burst_asks {m : Nat} :
    burst s j m = askRetrain (updPort s j (fun x =>
      { x with lanes := mset x.lanes {} m { mget x.lanes {} m with asked := true } })) j 1 :=
  if_pos up

end

theorem rxRetrainAck_ignored (none_ : (port s j).retrainAsked = none) : rxRetrainAck s j = s := if_neg (by simp [none_])

/-! ### The end of a retraining -/

variable (s j) in
/-- The lanes counted, and those that UNRETIRE names in service again. -/
def lanesMended : State :=
  applyUnretire (updPort s j (fun x => { x with lanes := countLanes x, peerBefore := none, midWindow := true })) j

variable (s j) in
/-- The condemned lanes retired. -/
def lanesRetired : State :=
  retireLanes (lanesMended s j) j ((List.range 8).filter (fun m => (mget (port (lanesMended s j) j).lanes {} m).condemned))

variable (s j) in
/-- The lanes that the retraining puts into service. -/
def lanesPicked : Nat × BitVec 8 × BitVec 8 := pickLanes (healthyLanes (port (lanesRetired s j) j))

variable (s j) in
/-- The new map and the IDENT sent. -/
def mapSent (eyes : BitVec 128) : State :=
  let l := lanesPicked s j
  sendIdent (sendLaneMap (setLanes (lanesRetired s j) j l.1 l.2.1 l.2.2 (fun m => eyes.toNat / 2 ^ (16 * m) % 2 ^ 16)) j) j

variable (s j) in
/-- The port back in the state that it left. -/
def portBack (eyes : BitVec 128) : State :=
  let l := lanesPicked s j
  updPort (movePort (mapSent s j eyes) j (port s j).from_) j (fun y => { y with
    mapAgreed := true, aligned := y.aligned ||| l.2.1 ||| l.2.2 })

variable (s j) in
/-- The port goes on, degraded where it has six lanes. -/
def portOn (eyes : BitVec 128) : State :=
  pump (if (port s j).from_ = 5 ∧ (lanesPicked s j).1 = 6 then stickyPort (portBack s j eyes) j 4 else portBack s j eyes) j

theorem retrained_idle {eyes : BitVec 128} (idle : (port s j).state ≠ 7) : retrained s j eyes = s := if_pos idle

section
variable {eyes : BitVec 128} (retrain : (port s j).state = 7)
include retrain

theorem retrained_few (few : (healthyLanes (port (lanesRetired s j) j)).length < 6) :
    retrained s j eyes = dropPort (lanesRetired s j) j :=
  (if_neg (not_not_intro retrain)).trans (if_pos few)

variable (six : 6 ≤ (healthyLanes (port (lanesRetired s j) j)).length)
include six

theorem retrained_same (same : (port s j).peer.map IdentMsg.who = (port s j).peerBefore.map IdentMsg.who) :
    retrained s j eyes = if (port s j).epochWait then evalIdent (portOn s j eyes) j else portOn s j eyes :=
  (if_neg (not_not_intro retrain)).trans ((if_neg (Nat.not_lt.2 six)).trans (if_pos (decide_eq_true same)))

/-- The reason of the QUARANTINE that follows a change of the peer's identity. -/
def changedReason (v : State) (j : Nat) (peer : Option IdentMsg) : Nat :=
  match peer, portPart v j with
  | some i, some p => identVerdict v p j i
  | _, _ => 1

theorem retrained_changed (changed : ¬ (port s j).peer.map IdentMsg.who = (port s j).peerBefore.map IdentMsg.who) {r : Nat}
    (hr : changedReason (mapSent s j eyes) j (port s j).peer = r) :
    retrained s j eyes = quarantine (movePort (mapSent s j eyes) j 8) j (if r = 0 then 1 else r) := by
  subst hr
  exact (if_neg (not_not_intro retrain)).trans ((if_neg (Nat.not_lt.2 six)).trans
    (if_neg (fun e => changed (of_decide_eq_true e))))

end

end

/-! ### The windows of BER_EST -/

section
variable (s : State) (j : Nat) (w : LaneWindow)

/-- The lanes of a port after a window of lane 0 alone. -/
def lanesJudged : Map Lane :=
  mset (mset (port s j).lanes {} 0 (laneCounted (mget (port s j).lanes {} 0) w)) {} 0
    (laneJudged (laneCounted (mget (port s j).lanes {} 0) w) w (natFld (jpCfg s j) 8 4) (!(port s j).midWindow))

/-- The port after it, with no corrected codeword to charge. -/
def windowCounted : State :=
  chargeEvery (updPort s j (fun x => { x with lanes := lanesJudged s j w, midWindow := false })) (ucPort j) 0 (2 ^ 30)

variable {s j w} (active : (port s j).state = 5) (whole : (port s j).retired = 0) (corrected : w.cwCorr = 0)
include active whole corrected

theorem berWindow_one : berWindow s j [w] =
    if (List.range 8).any (fun m => (mget (lanesJudged s j w) {} m).condemned) then askRetrain (windowCounted s j w) j 2
    else if overThreshold w (natFld (jpCfg s j) 8 4) then
      if natFld (jpCfg (windowCounted s j w) j) 7 1 = 1 ∧ !observed (windowCounted s j w) (ucPort j) then
        updPort (windowCounted s j w) j (fun x => { x with deferred := true })
      else askRetrain (windowCounted s j w) j 1
    else windowCounted s j w := by
  have judged : [w].zipIdx.filter (fun e => decide (e.2 < 8) && !(port s j).retired.getLsbD e.2) = [(w, 0)] := by simp [whole]
  have judges : ¬ (port s j).state = 7 := by omega
  have trained : ¬ ((port s j).state < 3 ∨ (port s j).state = 9) := by omega
  simp only [berWindow, judged, if_neg trained, if_neg judges, List.foldl_cons, List.foldl_nil, mget_mset_same, corrected,
    List.any_cons, List.any_nil, Bool.or_false]
  rfl

end

/-- Settles O45. -/
theorem portsRetrain : Obligations.PortsRetrain := by
  unfold Obligations.PortsRetrain
  refine ⟨?_, ?_⟩
  · intro s j f m seen eyes hawake x t y lctl same mended u l v back on
    have taken {k : Nat} {u : State} {e : State → Bytes → State} (l : lctl k) (h : e t (fPayload f) = u) :
        rxLctl s j k f e = u := by
      obtain ⟨clean, valid, kind, type_, hears_⟩ := l
      exact (rxLctl_valid hears_ clean valid kind type_ e).trans h
    refine ⟨fun l up => ⟨fun fresh_ => ?_, fun asked => ?_⟩, fun l up asked => ?_, fun l none_ => ?_, fun idle => ?_,
      fun retrain few => ?_, fun retrain six => ⟨fun eq current => ?_, fun eq waits => ?_, fun ne none_ => ?_,
      fun i p ne peer hp => ?_⟩, fun out => ?_, fun up => ?_, fun not4 not5 => ?_, ?_⟩
    · exact done_next hawake (taken l (rxRetrainReq_answered up fresh_))
    · exact done_next hawake (taken l (rxRetrainReq_asked up asked))
    · exact done_next hawake (taken l (rxRetrainAck_asked up asked))
    · exact done_next hawake (taken l (rxRetrainAck_ignored none_))
    · exact done_next hawake (retrained_idle idle)
    · exact done_next hawake (retrained_few retrain few)
    · exact done_next hawake ((retrained_same retrain six eq).trans (if_neg fun e => Bool.false_ne_true (current.symm.trans e)))
    · exact done_next hawake ((retrained_same retrain six eq).trans (if_pos waits))
    · refine done_next hawake (retrained_changed retrain six ne (r := 1) ?_)
      rw [show (port s j).peer = none from none_, changedReason.eq_def]
    · refine done_next hawake (retrained_changed retrain six ne ?_)
      rw [show (port s j).peer = some i from peer, changedReason.eq_def, show portPart (mapSent s j eyes) j = some p from hp]
      rfl
    · exact done_next hawake (if_pos out)
    · exact done_next hawake (burst_asks up)
    · exact done_next hawake (if_neg (by rintro (h | h) <;> contradiction))
    · exact done_next hawake rfl
  · intro s j w l e full counted hot judged
    refine ⟨rfl, rfl, rfl, rfl, rfl, fun hawake active whole corrected => ?_⟩
    intro e ls t
    have window := berWindow_one active whole corrected
    refine ⟨fun bad => ?_, fun ok cool => ?_, fun ok over_ held => ?_, fun ok over_ held unobserved => ?_⟩
    · exact done_next hawake (window.trans (if_pos bad))
    · exact done_next hawake (window.trans ((if_neg (Bool.eq_false_iff.1 ok)).trans (if_neg (Bool.eq_false_iff.1 cool))))
    · refine done_next hawake (window.trans ((if_neg (Bool.eq_false_iff.1 ok)).trans ((if_pos over_).trans (if_neg ?_))))
      rintro ⟨h, -⟩
      exact absurd (held.symm.trans h) (by decide)
    · refine done_next hawake (window.trans ((if_neg (Bool.eq_false_iff.1 ok)).trans ((if_pos over_).trans (if_pos ⟨held, ?_⟩))))
      exact congrArg not unobserved

end Sys2Proof.Machine
end

section
/-! Flits valid and not valid, delivery in sequence, NAK and replay (09 R265, R270 to R275; 11 R353). -/

namespace Sys2Proof.Machine

/-! ### A flit that is not valid -/

section
variable (s : State) (j : Nat)

/-- A flit that is not valid has been counted. -/
def flitCounted : State :=
  updPort s j (fun x => { x with
    rxFlits := sat64 (x.rxFlits + 1), crcErr := sat64 (x.crcErr + 1), link := { x.link with invalid := x.link.invalid + 1 } })

theorem rxInvalid_eq : rxInvalid s j = askReplay (flitCounted s j) j := rfl

theorem flitCounted_port : port (flitCounted s j) j = { port s j with
    rxFlits := sat64 ((port s j).rxFlits + 1), crcErr := sat64 ((port s j).crcErr + 1)
    link := { (port s j).link with invalid := (port s j).link.invalid + 1 } } := port_updPort_same ..

variable {s j}

theorem askReplay_asks (trained : talks (port s j) = true ∨ (port s j).state = 6) (first : (port s j).link.discarding = false) :
    askReplay s j = sendNak (updLink s j (fun l => { l with discarding := true })) j :=
  if_pos (by rcases trained with h | h <;> simp [h, first])

theorem askReplay_silent (silent : ¬ (talks (port s j) = true ∨ (port s j).state = 6) ∨ (port s j).link.discarding = true) :
    askReplay s j = s := by
  refine if_neg fun h => ?_
  simp only [Bool.and_eq_true, Bool.or_eq_true, beq_iff_eq, Bool.not_eq_true'] at h
  obtain ⟨trained, first⟩ := h
  exact silent.elim (· trained) (fun d => Bool.false_ne_true (first.symm.trans d))

variable (s j)

theorem sendNak_port : port (sendNak s j) j = { port s j with
    txFlits := min ((port s j).txFlits + 1) (2 ^ 64 - 1), nakTx := sat64 ((port s j).nakTx + 1)
    link := { (port s j).link with crvc := ((port s j).link.crvc + 1) % 8, naks := (port s j).link.naks + 1 } } := by
  simp only [sendNak, sendLctl, sendCtrl, port_updPort_same, emit_port]

theorem sendNak_out : (sendNak s j).out =
    s.out ++ [.lctl j (ctrlFlit (port s j).link 2 (leBytes 1 1 ++ leBytes 2 (port s j).link.rxSeq))] := rfl

theorem sendNak_others {k : Nat} (away : k ≠ j) : port (sendNak s j) k = port s k := by
  simp only [sendNak, sendLctl, sendCtrl, port_updPort, if_neg away, emit_port]

theorem askReplay_others {k : Nat} (away : k ≠ j) : port (askReplay s j) k = port s k := by
  unfold askReplay
  split
  · rw [sendNak_others _ j away, updLink, port_updPort, if_neg away]
  · rfl

end

/-- What a flit that is not valid leaves and does (R273). -/
theorem rxInvalid_effect (s : State) (j : Nat) :
    let x := port s j
    let y := port (rxInvalid s j) j
    y.link.rxSeq = x.link.rxSeq ∧ y.link.replay = x.link.replay ∧ y.link.asm = x.link.asm ∧ y.state = x.state ∧
    y.crcErr = sat64 (x.crcErr + 1) ∧ y.link.invalid = x.link.invalid + 1 ∧
    ((talks x = true ∨ x.state = 6) → y.link.discarding = true) ∧
    ((talks x = true ∨ x.state = 6) → x.link.discarding = false →
      y.nakTx = sat64 (x.nakTx + 1) ∧ y.link.naks = x.link.naks + 1 ∧
      .lctl j (ctrlFlit x.link 2 (leBytes 1 1 ++ leBytes 2 x.link.rxSeq)) ∈ (rxInvalid s j).out) ∧
    (x.link.discarding = true → y.nakTx = x.nakTx ∧ (rxInvalid s j).out = s.out) := by
  intro x y
  have counted := flitCounted_port s j
  by_cases asks : (talks x = true ∨ x.state = 6) ∧ x.link.discarding = false
  · obtain ⟨trained, first⟩ := asks
    have e : rxInvalid s j = sendNak (updLink (flitCounted s j) j (fun l => { l with discarding := true })) j :=
      askReplay_asks (s := flitCounted s j) (by rw [counted]; exact trained) (by rw [counted]; exact first)
    have nak : y = port (sendNak (updLink (flitCounted s j) j (fun l => { l with discarding := true })) j) j := congrArg (port · j) e
    rw [sendNak_port, updLink, port_updPort_same, counted] at nak
    have sent := sendNak_out (updLink (flitCounted s j) j (fun l => { l with discarding := true })) j
    rw [← e, updLink, port_updPort_same, counted] at sent
    rw [nak]
    refine ⟨rfl, rfl, rfl, rfl, rfl, rfl, fun _ => rfl, fun _ _ => ⟨rfl, rfl, ?_⟩, fun d => ?_⟩
    · rw [sent]
      exact List.mem_append_right _ (List.mem_singleton_self _)
    · exact absurd (first.symm.trans d) Bool.false_ne_true
  · have silent : ¬ (talks x = true ∨ x.state = 6) ∨ x.link.discarding = true := by
      rw [not_and_or, Bool.not_eq_false] at asks
      exact asks
    have e : rxInvalid s j = flitCounted s j := askReplay_silent (s := flitCounted s j) (by rw [counted]; exact silent)
    have nak : y = port (flitCounted s j) j := congrArg (port · j) e
    rw [counted] at nak
    rw [nak, e]
    refine ⟨rfl, rfl, rfl, rfl, rfl, rfl, fun trained => silent.resolve_left (not_not_intro trained), fun trained first => ?_,
      fun _ => ⟨rfl, rfl⟩⟩
    exact absurd ⟨trained, first⟩ asks

theorem rxInvalid_others (s : State) (j : Nat) {k : Nat} (away : k ≠ j) : port (rxInvalid s j) k = port s k := by
  rw [rxInvalid_eq, askReplay_others _ j away, flitCounted, port_updPort, if_neg away]

/-! ### DATA flits -/

section
variable {s : State} {j p : Nat} {f : Flit} {fs : List (Bytes × Nat)}

/-- Whether a port's partition is STRUCK, or it has none. -/
def portStruck (s : State) (j : Nat) : Bool :=
  match portPart s j with
  | some p => (proof s p).slice == 9
  | none => true

theorem rxData_shut (shut : (port s j).state ≠ 5 ∨ (port s j).link.discarding = true ∨ (port s j).epochWait = true ∨
    portPart s j = none ∨ ∃ p, portPart s j = some p ∧ (proof s p).slice = 9) : rxData s j f = s := by
  have struck : (portPart s j = none ∨ ∃ p, portPart s j = some p ∧ (proof s p).slice = 9) → portStruck s j = true := by
    rintro (h | ⟨p, h, slice⟩)
    · rw [portStruck, h]
    · rw [portStruck, h]
      simp [slice]
  refine if_pos (.inr ?_)
  rcases shut with h | h | h | h
  · exact .inl h
  · exact .inr (.inr (.inl h))
  · exact .inr (.inl h)
  · exact .inr (.inr (.inr (struck h)))

section
variable (kind : fKind f = 1) (active : (port s j).state = 5) (current : (port s j).epochWait = false)
  (taking : (port s j).link.discarding = false) (hp : portPart s j = some p) (live : (proof s p).slice ≠ 9)
include kind active current taking hp live

theorem rxData_open : ¬ (fKind f ≠ 1 ∨ (port s j).state ≠ 5 ∨ (port s j).epochWait = true ∨ (port s j).link.discarding = true ∨
    portStruck s j = true) := by
  have alive : portStruck s j = false := by
    rw [portStruck, hp]
    simp [live]
  simp [kind, active, current, taking, alive]

section
variable (off : (port s j).link.rxPos ≠ (port s j).link.rxSeq)
include off

theorem rxData_repeated (ahead : ((port s j).link.rxSeq + 1024 - (port s j).link.rxPos) % 1024 < 512) :
    rxData s j f = updLink s j (fun l => { l with rxPos := (l.rxPos + 1) % 1024 }) :=
  (if_neg (rxData_open kind active current taking hp live)).trans ((if_pos off).trans (if_pos ahead))

theorem rxData_gap (behind : 512 ≤ ((port s j).link.rxSeq + 1024 - (port s j).link.rxPos) % 1024) :
    rxData s j f = askReplay s j :=
  (if_neg (rxData_open kind active current taking hp live)).trans ((if_pos off).trans (if_neg (Nat.not_lt.2 behind)))

end

/-- The flit in sequence has joined those of its virtual channel. -/
def flitTaken (s : State) (j v : Nat) (fs : List (Bytes × Nat)) : State :=
  updLink s j (fun l => { l with
    rxSeq := ((port s j).link.rxSeq + 1) % 1024, rxPos := ((port s j).link.rxSeq + 1) % 1024, naks := 0, asm := mset l.asm [] v fs })

section
variable (in_ : (port s j).link.rxPos = (port s j).link.rxSeq)
  (joined : fs = mget (port s j).link.asm [] (fVc f) ++ [(fPayload f, fPoison f)])
include in_ joined

theorem rxData_joins (part_ : asmPacket (fVc f) fs = none) : rxData s j f = flitTaken s j (fVc f) fs := by
  subst joined
  refine (if_neg (rxData_open kind active current taking hp live)).trans ((if_neg (not_not_intro in_)).trans ?_)
  dsimp only
  rw [part_]
  rfl

/-- The packet that the flit completes has been received. -/
def packetReceived (s : State) (j v : Nat) (fs : List (Bytes × Nat)) (t : Nat) (pk : Packet) : State :=
  receive (updLink (flitTaken s j v fs) j (fun l => { l with asm := mset l.asm [] v [] })) j t pk

theorem rxData_packet {t : Nat} {pk : Packet} (whole : asmPacket (fVc f) fs = some (t, pk)) :
    rxData s j f =
      let h := (xport (flitTaken s j (fVc f) fs) p).held.length
      let r := packetReceived s j (fVc f) fs t pk
      if h < (xport r p).held.length then
        updXport r p (fun y => { y with held := y.held.dropLast ++ (y.held.drop h).map (fun e => { e with flits := fs.length }) })
      else freeBuffers r j (fVc f) fs.length := by
  have part_ : (portPart (updLink (flitTaken s j (fVc f) fs) j (fun l => { l with asm := mset l.asm [] (fVc f) [] })) j).getD 0 = p :=
    (congrArg (Option.getD · 0) hp : (portPart s j).getD 0 = p)
  refine (if_neg (rxData_open kind active current taking hp live)).trans ((if_neg (not_not_intro in_)).trans ?_)
  subst joined
  dsimp only
  rw [whole]
  dsimp only
  rw [← part_]
  rfl

end

end

/-! ### NAK and REPLAY_START -/

theorem rxNak_replays {pl : Bytes} (trained : talks (port s j) = true ∨ (port s j).state = 6) :
    rxNak s j pl = pump (checkRecover (resend (sendLctl (updPort s j (fun x => { x with
      nakRx := sat64 (x.nakRx + 1), link := { x.link with replayed := true } })) j 2 (leBytes 2 (leAt pl 1 2 % 1024))) j
      (leAt pl 1 2 % 1024)) j) j :=
  if_pos (by simpa using trained)

theorem rxReplayStart_begins {pl : Bytes} (trained : talks (port s j) = true ∨ (port s j).state = 6) :
    rxReplayStart s j pl = checkRecover (updLink s j (fun l => { l with
      discarding := false, rxPos := leAt pl 1 2 % 1024, replayed := true })) j :=
  if_pos (by simpa using trained)

/-- What the four flit rows do with a flit that they do not take: the same. -/
theorem flitRows_same {u : State} (hawake : awake s = true) {j : PortId} (same : ∀ k, rxFlit s j f k = u) :
    ∀ r ∈ [Instr.dataFlit j f, .idleFlit j f, .nak j f, .replayStart j f], Ends r s u := by
  simp only [List.forall_mem_cons, List.not_mem_nil, false_imp_iff, implies_true, and_true]
  have lctl (c : Nat) (k : State → Bytes → State) : rxLctl s j c f k = u := by
    unfold rxLctl
    exact same _
  exact ⟨done_next hawake (same _), done_next hawake (same _), done_next hawake (lctl _ _), done_next hawake (lctl _ _)⟩

end

/-- Settles O42. -/
theorem linkFlits : Obligations.LinkFlits := by
  unfold Obligations.LinkFlits
  refine ⟨?_, ?_⟩
  · intro s j f fs ptype pk hawake x t y v q u n
    refine ⟨fun deaf => ?_, fun hears_ clean => ⟨?_, fun bad => ?_, fun valid => ⟨?_, fun kind shut => ?_, ?_, ?_, ?_⟩⟩,
      fun hears_ injected => ?_, fun trained asked => ?_, fun taking => ?_, fun up limit => ?_, fun naks invalid => ?_⟩
    · have rows := flitRows_same (f := f) hawake (fun k => rxFlit_deaf (k := k) deaf)
      have last : Ends (.invalidFlit j) s s := done_next hawake (if_neg fun e => Bool.false_ne_true (deaf.symm.trans e))
      simp only [List.forall_mem_cons, List.not_mem_nil, false_imp_iff, implies_true, and_true] at rows ⊢
      obtain ⟨a, b, c, d⟩ := rows
      exact ⟨a, b, c, d, last⟩
    · exact done_next hawake (if_pos hears_)
    · exact flitRows_same hawake fun k => rxFlit_invalid hears_ clean bad
    · exact done_next hawake (rxFlit_valid hears_ clean valid id)
    · exact done_next hawake ((rxFlit_valid hears_ clean valid _).trans (rxData_shut shut))
    · intro p kind active current taking hp live joined r ahead h
      have data := rxFlit_valid hears_ clean valid (fun s => rxData s j f)
      refine ⟨fun off lt => ?_, fun off ge => ?_, fun in_ part_ => ?_, fun in_ whole => ⟨fun few => ?_, fun more => ?_⟩⟩
      · exact done_next hawake (data.trans (rxData_repeated kind active current taking hp live off lt))
      · exact done_next hawake (data.trans (rxData_gap kind active current taking hp live off ge))
      · exact done_next hawake (data.trans (rxData_joins kind active current taking hp live in_ joined part_))
      · exact done_next hawake (data.trans ((rxData_packet kind active current taking hp live in_ joined whole).trans
          (if_neg (Nat.not_lt.2 few))))
      · exact done_next hawake (data.trans ((rxData_packet kind active current taking hp live in_ joined whole).trans
          (if_pos more)))
    · intro kind type_ trained
      exact done_next hawake ((rxLctl_valid hears_ clean valid kind type_ _).trans (rxNak_replays trained))
    · intro kind type_ trained
      exact done_next hawake ((rxLctl_valid hears_ clean valid kind type_ _).trans (rxReplayStart_begins trained))
    · exact flitRows_same hawake fun k => rxFlit_injected hears_ injected
    · exact done_next hawake (if_pos (by simp [show (port s j).link.discarding = true from asked]; exact trained))
    · exact done_next hawake (if_neg (by simp [show (port s j).link.discarding = false from taking]))
    · exact done_next hawake (if_pos ⟨up, limit⟩)
    · refine done_next hawake (if_neg ?_)
      rintro ⟨-, h | h⟩
      · exact Nat.not_le.2 naks h
      · exact Nat.not_le.2 invalid h
  · intro s j x y
    obtain ⟨a1, a2, a3, a4, a5, a6, a7, a8, a9⟩ := rxInvalid_effect s j
    exact ⟨a1, a2, a3, a4, a5, a6, a7, a8, a9, fun k away => rxInvalid_others s j away⟩

end Sys2Proof.Machine
end

section
/-! Watchdogs and escalation (13 R398, R402, R403). -/

namespace Sys2Proof.Machine

section
variable {s : State} {h p q n : Nat} {f : Flight}

/-- Whether a started descriptor is a FENCE or a WAIT. -/
def isWaiting (f : Flight) : Bool :=
  match f.waits with
  | .fence _ => true
  | .cond _ _ _ => true
  | _ => false

/-- The host-queue watchdog has fired: the queue is STOPPED with STOPWHY 3, and its WAITs and FENCEs complete with FENCED. -/
def queueStopped (s : State) (h q : Nat) : State :=
  let t := updQueue (barked s (ucHost h) 3 (regF s (.hp h) 0x00C0810 0 12 * 1000000)) h q
    (fun x => if x.state = 1 ∨ x.state = 2 then { x with state := 2, stopwhy := 3 } else x)
  ((queueFlights t h q).filter isWaiting).foldl (fun s f => finishFlight s h f .fenced 0) t

section
variable (hp : hpPart s h = some p)
include hp

theorem queueBark_fires (runs : (proof s p).slice = 0 ∨ (proof s p).slice = 1)
    (found : (queueFlights s h q).find? (fun f => f.didx == n) = some f) :
    queueBark s h q n = if f.step.isSome then raise (queueStopped s h q) p 0x07 f.step (ucHost h) else queueStopped s h q := by
  simp only [queueBark, hp, found]
  exact if_pos runs.symm

theorem queueBark_restarting (not0 : (proof s p).slice ≠ 0) (not1 : (proof s p).slice ≠ 1) : queueBark s h q n = s := by
  cases found : (queueFlights s h q).find? (fun f => f.didx == n) with
  | none => simp only [queueBark, hp, found]
  | some f =>
    simp only [queueBark, hp, found]
    exact if_neg (by omega)

end

theorem queueBark_none (absent : (queueFlights s h q).find? (fun f => f.didx == n) = none) : queueBark s h q n = s := by
  rw [queueBark, absent]
  split
  · contradiction
  · rfl

theorem xportBark_busy (busy : (xport s p).colls ≠ [] ∨ (xport s p).rmas ≠ []) :
    xportBark s p = raise (updXport (barked s (ucXport p) 7 (regF s .dev 0x00C0818 0 14 * 1000)) p
      (fun x => { x with needReset := true })) p 0x07 none (ucXport p) :=
  if_neg (by simpa [-not_and, not_and_or] using busy)

theorem xportBark_idle (noColl : (xport s p).colls = []) (noRma : (xport s p).rmas = []) : xportBark s p = s :=
  if_pos (by simp [noColl, noRma])

end

/-- Settles O46. -/
theorem watchdogsFire : Obligations.WatchdogsFire := by
  unfold Obligations.WatchdogsFire
  intro s c unit k j p g h q d n f hawake fired stopped waits ended x
  refine ⟨fun runs => ?_, fun rests => ?_, fun head => ?_, fun empty => ?_, fun hp runs found => ⟨fun loose => ?_, fun bound => ?_⟩,
    fun hp not0 not1 => ?_, fun absent => ?_, ?_, fun dry => ?_, fun wet => ?_, fun dry => ?_, fun wet => ?_, fun busy => ?_,
    fun noColl noRma => ?_, ?_⟩
  · exact done_next hawake (if_pos runs)
  · exact done_next hawake (if_neg (Bool.eq_false_iff.1 rests))
  · exact done_next hawake (if_pos head)
  · exact done_next hawake (if_neg (Bool.eq_false_iff.1 empty))
  · exact done_next hawake ((queueBark_fires hp runs found).trans (if_neg (by simp [loose])))
  · exact done_next hawake ((queueBark_fires hp runs found).trans (if_pos (Option.isSome_iff_ne_none.2 bound)))
  · exact done_next hawake (queueBark_restarting hp not0 not1)
  · exact done_next hawake (queueBark_none absent)
  · exact done_next hawake rfl
  · exact done_next hawake (if_pos dry)
  · exact done_next hawake (if_neg (Bool.eq_false_iff.1 wet))
  · exact done_next hawake (if_pos dry)
  · exact done_next hawake (if_neg (Bool.eq_false_iff.1 wet))
  · exact done_next hawake (xportBark_busy busy)
  · exact done_next hawake (xportBark_idle noColl noRma)
  · exact done_next hawake rfl

end Sys2Proof.Machine
end

section
/-! Health scores and field tests (13 R389 to R395). -/

namespace Sys2Proof.Machine

/-! ### The tick -/

/-- The units of a partition that asked for a strike, after a tick (R354). -/
def healthAged (obs : Nat → Bool) (x : Proof) : Proof :=
  { x with healthUnits := x.healthUnits.filter obs, observe := x.observe && !(x.healthUnits.filter obs).isEmpty }

/-- One partition of a tick. -/
def healthPart (s : State) (p : Nat) : State := updProof s p (healthAged (observed s))

theorem foldl_healthPart (l : List Nat) (distinct : l.Nodup) (s : State) :
    (l.foldl healthPart s).faults = s.faults ∧ (l.foldl healthPart s).ms = s.ms ∧
      ∀ p, proof (l.foldl healthPart s) p = if p ∈ l then healthAged (observed s) (proof s p) else proof s p := by
  induction l generalizing s with
  | nil => exact ⟨rfl, rfl, fun _ => rfl⟩
  | cons q l ih =>
    obtain ⟨out, distinct⟩ := List.nodup_cons.1 distinct
    obtain ⟨faults, ms, proofs⟩ := ih distinct (healthPart s q)
    refine ⟨faults, ms, fun p => (proofs p).trans ?_⟩
    have same : observed (healthPart s q) = observed s := rfl
    rw [same]
    by_cases e : p = q
    · subst e
      rw [if_neg out, if_pos List.mem_cons_self, healthPart, proof_updProof_same]
    · have kept : proof (healthPart s q) p = proof s p := by
        rw [proof, healthPart, part_updProof, if_neg e]
        rfl
      simp only [kept, List.mem_cons, e, false_or]

/-- The scores after a tick (R394). -/
def scoresAged (s : State) : State :=
  updFaults s (fun f => { f with
    acc := mmapIf f.acc 0 (fun _ => true) (fun a => a - a / 32)
    saved := if speushUp s = true then mmapIf f.acc 0 (fun _ => true) (fun a => a - a / 32) else f.saved })

/-- The recent errors of the lanes after a tick. -/
def lanesAged (s : State) : State :=
  { s with ports := mmapIf s.ports {} (fun _ => true) (fun x =>
    { x with lanes := mmapIf x.lanes {} (fun _ => true) (fun l => { l with recent := l.recent - l.recent / 32 }) }) }

theorem healthTick_eq (s : State) : healthTick s = (List.range (nparts s)).foldl healthPart (lanesAged (scoresAged s)) := rfl

theorem healthTick_effect (s : State) : (healthTick s).faults = (scoresAged s).faults ∧ (healthTick s).ms = s.ms ∧
    ∀ p, p < nparts s → proof (healthTick s) p = healthAged (observed (scoresAged s)) (proof s p) := by
  obtain ⟨faults, ms, proofs⟩ := foldl_healthPart (List.range (nparts s)) List.nodup_range (lanesAged (scoresAged s))
  rw [healthTick_eq]
  refine ⟨faults, ms, fun p hp => ?_⟩
  rw [proofs p, if_pos (List.mem_range.2 hp)]
  rfl

/-! ### The units that fall due -/

section
variable {s : State} {u : Nat} {t : Test}

theorem updFaults_congr {f g : Faults → Faults} (same : f s.faults = g s.faults) : updFaults s f = updFaults s g := by
  rw [updFaults, updFaults, same]

theorem testDue_waiting (due : s.faults.due.contains u = true) : testDue s u = s := by
  refine (updFaults_congr (g := id) ?_).trans rfl
  rw [due]
  rfl

theorem testDue_new (free : s.faults.due.contains u = false) (none_ : s.faults.test = none) :
    testDue s u = updFaults s (fun f => { f with due := f.due ++ [u] }) := by
  refine updFaults_congr ?_
  rw [free, none_]
  rfl

theorem testSlot_next {i : Nat}
    (next : ((upto s.faults.rotation 140).map (· % 140)).find? (fun i => inRotation s (rotationUnit i)) = some i) :
    testSlot s = testDue (updFaults s (fun f => { f with rotation := (i + 1) % 140 })) (rotationUnit i) := by
  rw [testSlot, next]

theorem testSlot_none (none_ : ∀ i < 140, inRotation s (rotationUnit i) = false) : testSlot s = s := by
  have absent : ((upto s.faults.rotation 140).map (· % 140)).find? (fun i => inRotation s (rotationUnit i)) = none := by
    refine List.find?_eq_none.2 fun i hi => ?_
    obtain ⟨k, -, rfl⟩ := List.mem_map.1 hi
    simp [none_ (k % 140) (Nat.mod_lt _ (by decide))]
  rw [testSlot, absent]

theorem observationDue_engine (lo : ucEngine 0 ≤ u) (hi : u < ucEngine 12) (watched : underObservation s u = true)
    (serves : unitRetired s u = false) : observationDue s u = testDue s u :=
  if_pos (by simp [lo, hi, watched, serves])

theorem observationDue_healthy (healthy : underObservation s u = false) : observationDue s u = s := if_neg (by simp [healthy])

/-! ### A block of a test -/

theorem testFor_running (up : s.pins.stage ≠ .booting) (runs : s.faults.test = some t) (own : t.unit = u) :
    testFor s u = some t := by
  rw [testFor, if_neg up, runs]
  exact if_pos own

theorem testFor_other (up : s.pins.stage ≠ .booting) (runs : s.faults.test = some t) (other : t.unit ≠ u) :
    testFor s u = none := by
  rw [testFor, if_neg up, runs]
  exact if_neg other

section
variable (up : s.pins.stage ≠ .booting) (none_ : s.faults.test = none)
include up none_

theorem testFor_first (first : s.faults.due.find? (testIdle s) = some u) :
    testFor s u = some { unit := u, blocks := 0, worst := 0 } := by
  rw [testFor, if_neg up, none_]
  exact if_pos (by simp [first])

theorem testFor_later (later : s.faults.due.find? (testIdle s) ≠ some u) (unasked : s.faults.asked.contains u = false) :
    testFor s u = none := by
  rw [testFor, if_neg up, none_]
  exact if_neg (by rw [unasked]; simp [later])

end

theorem testBlock_none {o : BlockOutcome} (none_ : testFor s u = none) : testBlock s u o = s := by rw [testBlock, none_]

/-- The block has ended, with its outcome. -/
def blockEnded (s : State) (t : Test) (o : BlockOutcome) : State :=
  updFaults s (fun f => { f with test := some { t with blocks := t.blocks + 1, worst := max t.worst (outcomeCode o) } })

theorem testBlock_eq {o : BlockOutcome} (runs : testFor s u = some t) (idle : testIdle s u = true) :
    testBlock s u o =
      let v := if outcomeCode o = 0 then blockEnded s t o else testFailed (blockEnded s t o) u t.blocks (outcomeCode o)
      if t.blocks + 1 < 16 then v
      else endTest (updFaults v (fun f => { f with completed := f.completed + 1 })) u (max t.worst (outcomeCode o)) := by
  rw [testBlock, runs]
  exact if_neg (by simp [idle])

section
variable (runs : testFor s u = some t) (idle : testIdle s u = true) (more : t.blocks + 1 < 16)
include runs idle more

theorem testBlock_matches : testBlock s u .match_ = blockEnded s t .match_ :=
  (testBlock_eq runs idle).trans ((if_pos more).trans (if_pos rfl))

theorem testBlock_fails {o : BlockOutcome} (bad : outcomeCode o ≠ 0) :
    testBlock s u o = testFailed (blockEnded s t o) u t.blocks (outcomeCode o) :=
  (testBlock_eq runs idle).trans ((if_pos more).trans (if_neg bad))

end

theorem testBlock_last (runs : testFor s u = some t) (idle : testIdle s u = true) (last : t.blocks = 15) (ok : t.worst = 0) :
    testBlock s u .match_ =
      endTest (updFaults (blockEnded s t .match_) (fun f => { f with completed := f.completed + 1 })) u 0 := by
  refine (testBlock_eq runs idle).trans ((if_neg (by omega)).trans ?_)
  rw [ok, if_pos (show outcomeCode .match_ = 0 from rfl)]
  rfl

theorem testAbandoned_due (none_ : s.faults.test = none) (due : s.faults.due.contains u = true) :
    testAbandoned s u = endTest (updFaults s (fun f => { f with starved := min (f.starved + 1) (2 ^ 32 - 1) })) u 3 := by
  refine (if_pos (by simp only [due, Bool.or_true, Bool.true_or])).trans ?_
  rw [none_]
  exact if_neg Bool.false_ne_true

theorem testAbandoned_other (none_ : s.faults.test = none) (notDue : s.faults.due.contains u = false)
    (unasked : s.faults.asked.contains u = false) : testAbandoned s u = s := by
  have idle : testFor s u = none := by
    by_cases up : s.pins.stage = .booting
    · rw [testFor, if_pos up]
    · refine testFor_later up none_ (fun first => ?_) unasked
      have := List.mem_of_find?_eq_some first
      simp [this] at notDue
  exact if_neg (by simp only [idle, notDue, unasked]; decide)

theorem bootBlock_matches (lo : ucCore 0 ≤ u) (hi : u < ucCore 128) (more : mget s.faults.bootTests 0 u < 15) :
    bootBlock s u .match_ = updFaults s (fun f => { f with bootTests := mset f.bootTests 0 u (mget f.bootTests 0 u + 1) }) := by
  refine (if_neg (by simp [lo, hi]; omega)).trans ((if_pos rfl).trans ?_)
  have done_ : mget s.faults.bootTests 0 u / 15 = 0 := Nat.div_eq_of_lt more
  refine updFaults_congr ?_
  rw [done_]
  rfl

end

/-! ### Scores -/

section
variable {s : State} {u w v : Nat} (hv : min (accOf s u + w * 1024) (2 ^ 20 - 1) = v)

/-- A unit's score is set. -/
def scoreSet (s : State) (u v : Nat) : State := updFaults s (fun f => { f with acc := mset f.acc 0 u v })

theorem scoreSet_score (s : State) (u v : Nat) : scoreOf (scoreSet s u v) u = v / 1024 := by
  rw [scoreOf, accOf, scoreSet]
  exact congrArg (· / 1024) (mget_mset_same _ _ _ _)

theorem crossed_not {s : State} {u old new thr : Nat} (stays : thr ≤ old ∨ new < thr) : crossed s u old new thr = s :=
  if_neg (by omega)

include hv

theorem charge_eq : charge s u w =
    crossed (crossed (crossed (scoreSet s u v) u (scoreOf s u) (v / 1024) 256) u (scoreOf s u) (v / 1024) 512) u
      (scoreOf s u) (v / 1024) 768 := by
  subst hv
  rw [← scoreSet_score s u]
  rfl

/-- A score that rises through no threshold. -/
theorem charge_below (below : v / 1024 < 256 ∨ 256 ≤ scoreOf s u) (low : v / 1024 < 512) : charge s u w = scoreSet s u v := by
  rw [charge_eq hv, crossed_not (thr := 256) (by omega), crossed_not (by omega), crossed_not (by omega)]

theorem charge_through (old : scoreOf s u < 256) (new : 256 ≤ v / 1024) (low : v / 1024 < 512) :
    charge s u w = record (scoreSet s u v) (unitPart s u) u 0 0x0053 (leBytes 2 256 ++ leBytes 2 (v / 1024)) := by
  have first : crossed (scoreSet s u v) u (scoreOf s u) (v / 1024) 256 =
      record (scoreSet s u v) (unitPart s u) u 0 0x0053 (leBytes 2 256 ++ leBytes 2 (v / 1024)) :=
    if_pos ⟨old, new⟩
  rw [charge_eq hv, first, crossed_not (by omega), crossed_not (by omega)]

end

/-- Settles O47. -/
theorem healthAndFieldTests : Obligations.HealthAndFieldTests := by
  unfold Obligations.HealthAndFieldTests
  refine ⟨?_, ?_⟩
  · intro s u i t hawake n ticked next block
    refine ⟨?_, fun slot => ⟨fun due => ?_, fun free none_ => ?_⟩, fun none_ => ?_, fun lo hi watched serves none_ free => ?_,
      fun healthy => ?_, fun up runs own idle more => ⟨?_, ?_, ?_⟩, fun up runs own idle last ok => ?_, fun up runs other => ?_,
      fun up none_ idle => ⟨fun first => ?_, fun later unasked => ?_⟩, fun booting lo hi more => ?_, fun none_ due _ => ?_,
      fun none_ notDue unasked => ?_⟩
    · obtain ⟨faults, ms, proofs⟩ := healthTick_effect s
      refine ⟨healthTick s, done_next hawake rfl, faults, ms, fun p hp => ?_⟩
      rw [proofs p hp]
      exact ⟨rfl, rfl, rfl⟩
    · exact done_next hawake ((testSlot_next slot).trans (testDue_waiting due))
    · exact done_next hawake ((testSlot_next slot).trans (testDue_new free none_))
    · exact done_next hawake (testSlot_none none_)
    · exact done_next hawake ((observationDue_engine lo hi watched serves).trans (testDue_new free none_))
    · exact done_next hawake (observationDue_healthy healthy)
    · exact done_next hawake ((if_neg up).trans (testBlock_matches (testFor_running up runs own) idle more))
    · exact done_next hawake ((if_neg up).trans (testBlock_fails (testFor_running up runs own) idle more (by decide)))
    · exact done_next hawake ((if_neg up).trans (testBlock_fails (testFor_running up runs own) idle more (by decide)))
    · exact done_next hawake ((if_neg up).trans (testBlock_last (testFor_running up runs own) idle last ok))
    · exact done_next hawake ((if_neg up).trans (testBlock_none (testFor_other up runs other)))
    · exact done_next hawake ((if_neg up).trans (testBlock_matches (testFor_first up none_ first) idle (show 0 + 1 < 16 by decide)))
    · exact done_next hawake ((if_neg up).trans (testBlock_none (testFor_later up none_ later unasked)))
    · exact done_next hawake ((if_pos booting).trans (bootBlock_matches lo hi more))
    · exact done_next hawake (testAbandoned_due none_ due)
    · exact done_next hawake (testAbandoned_other none_ notDue unasked)
  · intro s u w t v
    exact ⟨fun low => charge_below rfl (.inl low) (by omega), fun old new low => charge_through rfl old new low,
      fun old low => charge_below rfl (.inr old) low⟩

end Sys2Proof.Machine
end

section
/-! Writes of BAR0 (08 R223; 15 R463, R464; 17 R481 to R504). -/

namespace Sys2Proof.Machine

section
variable {s : State} {h p off v : Nat} {f : RegFld} {fs : List RegFld}

/-! ### A host port that can write -/

theorem CanWrite.hostCan (can : CanWrite s h p) : hostCan s h = true := by
  obtain ⟨-, mine, up, thawed, -⟩ := can
  exact hostCan_iff.2 ⟨by rw [mine]; rfl, up, thawed⟩

theorem CanWrite.isReady (can : CanWrite s h p) : isReady s = true := by
  obtain ⟨-, -, -, -, ready⟩ := can
  rw [Machine.isReady, ready]
  rfl

theorem CanWrite.awake (can : CanWrite s h p) : awake s = true := can.1

theorem CanWrite.part (can : CanWrite s h p) : hpPart s h = some p := can.2.1

theorem CanWrite.thawed (can : CanWrite s h p) : (hport s h).frozen = false := can.2.2.2.1

theorem writeWord_eq (mine : hpPart s h = some p) : writeWord s h off v =
    hostWrite s h off v (fun s => if 0x2000000 ≤ off then writeAlias s h p off v else writePlain s h p off v) := by
  rw [writeWord, mine]

theorem writeWord_plain (can : CanWrite s h p) (low : off < 0x2000000) :
    writeWord s h off v = writePlain s h p off v :=
  ((writeWord_eq can.part).trans (hostWrite_ready can.hostCan can.isReady)).trans (if_neg (by omega))

theorem writeWord_alias (can : CanWrite s h p) (high : 0x2000000 ≤ off) :
    writeWord s h off v = writeAlias s h p off v :=
  ((writeWord_eq can.part).trans (hostWrite_ready can.hostCan can.isReady)).trans (if_pos high)

/-! ### The words with fields -/

/-- A word that `writePlain` writes by its fields: not UNLOCK, IND_DATA or a QCTRL. -/
abbrev Fielded (off : Nat) : Prop :=
  off < 0x2000000 ∧ off ≠ 0x40 ∧ off ≠ 0x108 ∧ ¬ (0x0020000 ≤ off ∧ off < 0x0024000 ∧ off % 256 = 0x18)

theorem writeWord_sel (can : CanWrite s h p) (fielded : Fielded off) :
    writeWord s h off v = writeSel s h p off v (fieldsAt h p off) := by
  obtain ⟨low, notKey, notData, notQctrl⟩ := fielded
  rw [writeWord_plain can low, writePlain, if_neg notKey, if_neg notData, if_neg fun ⟨a, b, c, _⟩ => notQctrl ⟨a, b, c⟩]

theorem writeFields_nil : writeFields s h off v [] = s := rfl

theorem writeSel_inScope (scope : inRegScope s h p (scopeAt s off v) = true) :
    writeSel s h p off v fs = writeFields s h off v fs := by
  rw [writeSel, if_pos scope]
  split
  · next none_ => rw [List.isEmpty_iff.1 none_, writeFields_nil]
  · rfl

theorem writeWord_fields (can : CanWrite s h p) (fielded : Fielded off) (scope : inRegScope s h p (scopeAt s off v) = true) :
    writeWord s h off v = writeFields s h off v (fieldsAt h p off) :=
  (writeWord_sel can fielded).trans (writeSel_inScope scope)

/-! ### The gates of the fields -/

/-- The fields that a write of a word means to write. -/
def hitFields (v : Nat) (fs : List RegFld) : List RegFld := fs.filter (fun f => f.acc.hit (f.val v))

/-- Those that the arming admits. -/
def liveFields (armed : Bool) (v : Nat) (fs : List RegFld) : List RegFld :=
  (hitFields v fs).filter (fun f => !f.acc.keyed || armed)

/-- The state after the record of a write whose keyed fields are all in range. -/
def keyRecorded (s : State) (h off v : Nat) (fs : List RegFld) : State :=
  if ((hitFields v fs).filter (fun f => f.acc.keyed)).isEmpty then s
  else keyedWrite (updHp s h (fun x => { x with armed := false })) h off v (if (hport s h).armed then 0 else 1)

theorem recordCauses_nil : recordCauses s h off v [] = s := rfl

/-- A write of which every field that is admitted is in range and taken by the state. -/
theorem writeFields_taken
    (ok : ∀ f ∈ liveFields (hport s h).armed v fs, f.range s (f.val v) = 0 ∧ f.gate s (f.val v) = 5) :
    writeFields s h off v fs =
      (liveFields (hport s h).armed v fs).foldl (fun u f => f.put u (f.val v)) (keyRecorded s h off v fs) := by
  have good : (liveFields (hport s h).armed v fs).filter (fun f => f.range s (f.val v) == 0) =
      liveFields (hport s h).armed v fs := List.filter_eq_self.2 fun f mem => by simp [(ok f mem).1]
  have take : (liveFields (hport s h).armed v fs).filter (fun f => f.gate s (f.val v) == 5) =
      liveFields (hport s h).armed v fs := List.filter_eq_self.2 fun f mem => by simp [(ok f mem).2]
  have ranges : (((liveFields (hport s h).armed v fs).filter (fun f => !f.acc.keyed)).map
      (fun f => f.range s (f.val v))).filter (· != 0) = [] := by
    rw [List.filter_eq_nil_iff]
    intro r mem
    obtain ⟨f, live, rfl⟩ := List.mem_map.1 mem
    simp [(ok f (List.mem_of_mem_filter live)).1]
  have gates : ((liveFields (hport s h).armed v fs).map (fun f => f.gate s (f.val v))).filter (· != 5) = [] := by
    rw [List.filter_eq_nil_iff]
    intro r mem
    obtain ⟨f, live, rfl⟩ := List.mem_map.1 mem
    simp [(ok f live).2]
  have outcome : (if !(hport s h).armed then 1 else
      if ((hitFields v fs).filter (fun f => f.acc.keyed)).any (fun f => f.range s (f.val v) != 0) then 3 else 0) =
      if (hport s h).armed then 0 else 1 := by
    cases armed : (hport s h).armed with
    | false => rfl
    | true =>
      have inside : ((hitFields v fs).filter (fun f => f.acc.keyed)).any (fun f => f.range s (f.val v) != 0) = false := by
        rw [List.any_eq_false]
        intro f mem
        have live : f ∈ liveFields (hport s h).armed v fs :=
          List.mem_filter.2 ⟨List.mem_of_mem_filter mem, by simp [armed]⟩
        simp [(ok f live).1]
      rw [inside]
      rfl
  unfold writeFields
  simp only [hitFields, liveFields] at good take ranges gates outcome
  simp only [good, take, ranges, gates, List.append_nil, recordCauses_nil, hitFields, liveFields, keyRecorded,
    ← outcome]
  rfl

theorem writeFields_put (hit : f.acc.hit (f.val v) = true) (plain : f.acc.keyed = false) (inside : f.range s (f.val v) = 0)
    (free : f.gate s (f.val v) = 5) : writeFields s h off v [f] = f.put s (f.val v) := by
  have live : ∀ a, liveFields a v [f] = [f] := fun a => by simp [liveFields, hitFields, hit, plain]
  rw [writeFields_taken (by simp [live, inside, free]), live]
  simp [keyRecorded, hitFields, hit, plain]

theorem writeFields_keyedPut (hit : f.acc.hit (f.val v) = true) (keyed : f.acc.keyed = true) (armed : (hport s h).armed = true)
    (inside : f.range s (f.val v) = 0) (free : f.gate s (f.val v) = 5) :
    writeFields s h off v [f] = f.put (keyTaken s h off v) (f.val v) := by
  have live : liveFields (hport s h).armed v [f] = [f] := by simp [liveFields, hitFields, hit, armed]
  rw [writeFields_taken (by simp [live, inside, free]), live]
  simp [keyRecorded, keyTaken, hitFields, hit, keyed, armed]

theorem writeFields_unarmed (hit : f.acc.hit (f.val v) = true) (keyed : f.acc.keyed = true)
    (unarmed : (hport s h).armed = false) :
    writeFields s h off v [f] = keyedWrite (updHp s h (fun x => { x with armed := false })) h off v 1 := by
  have live : liveFields (hport s h).armed v [f] = [] := by simp [liveFields, hitFields, hit, keyed, unarmed]
  rw [writeFields_taken (by simp [live]), live]
  simp [keyRecorded, hitFields, hit, keyed, unarmed]

theorem writeFields_keyedOutside (hit : f.acc.hit (f.val v) = true) (keyed : f.acc.keyed = true)
    (armed : (hport s h).armed = true) (outside : f.range s (f.val v) ≠ 0) :
    writeFields s h off v [f] = keyedWrite (updHp s h (fun x => { x with armed := false })) h off v 3 := by
  simp [writeFields, recordCauses, hit, keyed, armed, outside]

end

/-! ### A doorbell before READY -/

theorem busWrite_word {s : State} {h off v : Nat} (aligned : off % 4 = 0) :
    busWrite s h off 4 v = writeBar s h off (v % 2 ^ 32) := if_pos ⟨rfl, aligned⟩

theorem writeBar_doorbell {s : State} {h q v : Nat} (hq : q < 64) :
    writeBar s h (0x4000000 + 4096 * q) v = ringDoorbell s h q v := by
  have offset : 0x4000000 + 4096 * q - bar2At = 4096 * q := Nat.add_sub_cancel_left ..
  rw [writeBar, if_neg (by unfold bar2At; omega)]
  simp only [offset]
  rw [if_pos (by omega), Nat.mul_div_cancel_left q (by decide)]

theorem exec_doorbell_early {s : State} {h : HostId} {q : Nat} {v : DWord} (hq : q < 64) (hawake : awake s = true)
    (can : hostCan s h = true) (early : isReady s = false) :
    exec (.registerWrite h (0x4000000 + 4096 * q) 4 v) s =
      .next (finish s (writeIgnored s h (4096 * q) (v.toNat % 2 ^ 32) 0)) := by
  have ignored : busWrite s h (0x4000000 + 4096 * q) 4 v.toNat = writeIgnored s h (4096 * q) (v.toNat % 2 ^ 32) 0 := by
    rw [busWrite_word (by omega), writeBar_doorbell hq, ringDoorbell, hostWrite, if_pos can,
      if_neg (Bool.eq_false_iff.1 early)]
  exact done_next hawake ignored

/-- A booting device whose host port 0 has its link up. -/
def bootingDevice : State := { pins := { stage := .booting }, hps := [(0, { linkUp := true })] }

/-- It with an event recorder. -/
def bootingWith (r : Recorder) : State := { bootingDevice with evr := r }

theorem calm_bootingWith (r : Recorder) : Calm (bootingWith r) := by
  refine ⟨rfl, fun p _ => ⟨rfl, rfl, rfl, ?_, .inl rfl, ?_, .inl rfl⟩, ?_, nofun⟩
  · intro i _ committed
    have empty : (slotOf (bootingWith r) p i).state = 0 := by unfold slotOf; split <;> rfl
    omega
  · intro j _ active
    have disabled : (port (bootingWith r) j).state = 0 := rfl
    simp [disabled] at active
  · intro h _ f mem
    have idle : (hport (bootingWith r) h).flights = [] := by
      by_cases hh : h = 0
      · subst hh; rfl
      · simp [bootingWith, bootingDevice, hport, mget, Ne.symm hh]
    rw [idle] at mem
    cases mem

/-- The detail of a WRITE_IGNORED record of a write of 0. -/
def ignoredDetail (off : Nat) : Bytes := sub (leBytes 4 off ++ leBytes 4 0 ++ leBytes 1 0) 0 16

theorem pending_bootingDevice_ignored (off : Nat) {h v : Nat} (hh : h = 0) (hv : v = 0) :
    (finish bootingDevice (writeIgnored bootingDevice h off v 0)).evr.pending.map (·.detail) = [ignoredDetail off] := by
  subst hh hv
  obtain ⟨e, detail, ignored⟩ : ∃ e : Event, e.detail = ignoredDetail off ∧
      writeIgnored bootingDevice 0 off 0 0 = bootingWith { pending := [e], seqNext := 1 } := ⟨_, rfl, rfl⟩
  rw [ignored, finish, if_pos (show awake (bootingWith _) = true from rfl), settleAll_of_calm (calm_bootingWith _), ← detail]
  rfl

/-- Refutes O56: before READY a write of 0 to the doorbell of Q0, at 0x400_0000, is recorded with its offset in BAR2, which
is 0. -/
theorem not_registerWrites : ¬ Obligations.RegisterWrites := by
  unfold Obligations.RegisterWrites
  intro holds
  obtain ⟨-, -, early, -⟩ :=
    holds bootingDevice 0 0 (0x4000000 + 4096 * 0) 4 0 (kept .dev 0 0 0 .rw anyV open_)
  have claimed := early rfl rfl rfl (by decide)
  have actual := exec_doorbell_early (s := bootingDevice) (h := 0) (q := 0) (v := 0) (by decide) rfl rfl rfl
  have same := congrArg (fun u : State => u.evr.pending.map (·.detail))
    (Host.Outcome.next.inj (actual.symm.trans claimed))
  have ignored (off : Nat) :=
    pending_bootingDevice_ignored off (h := (0 : HostId)) (v := (0 : DWord).toNat % 2 ^ 32) rfl (by decide)
  have offsets : [ignoredDetail (4096 * 0)] = [ignoredDetail (0x4000000 + 4096 * 0)] :=
    (ignored _).symm.trans (same.trans (ignored _))
  exact absurd offsets (by decide)

end Sys2Proof.Machine
end

section
/-! UNLOCK, the indirect window, reads and the region of single bits (17 R484 to R494). -/

namespace Sys2Proof.Machine

section
variable {s : State} {h p off v : Nat} {f : RegFld}

/-! ### UNLOCK and IND_DATA -/

section
variable (can : CanWrite s h p)
include can

theorem writeWord_unlock : writeWord s h 0x0000040 v = writeUnlock s h v :=
  by
  rw [writeWord_plain can (by decide), writePlain, if_pos rfl]

theorem writeWord_indData : writeWord s h 0x0000108 v = indirectWrite s h p v := by
  rw [writeWord_plain can (by decide), writePlain, if_neg (by decide), if_pos rfl]

end

theorem writeUnlock_key (key : v = 0x7F1C0D5E) : writeUnlock s h v = updHp s h (fun x => { x with armed := true }) :=
  if_pos key

theorem writeUnlock_other (other : v ≠ 0x7F1C0D5E) :
    writeUnlock s h v = keyedWrite (updHp s h (fun x => { x with armed := false })) h 0x40 v 1 := if_neg other

theorem indirectWrite_mailbox {k : Nat} (window : windowAt (hport s h).indAddr = .mailbox k)
    (ok : windowErr s h p true (windowAt (hport s h).indAddr) = 0) :
    indirectWrite s h p v = indirectDone (writeMailbox s h k v) h 0 := by
  rw [window] at ok
  simp [indirectWrite, window, ok]

theorem indirectWrite_error (err : windowErr s h p true (windowAt (hport s h).indAddr) ≠ 0) :
    indirectWrite s h p v = indirectDone s h (windowErr s h p true (windowAt (hport s h).indAddr)) := by
  unfold indirectWrite
  dsimp only
  split
  · next k window => rw [if_neg err]
  · rfl

/-! ### Reads -/

/-- The state after a read that is answered with `x`. -/
def answered (h : Nat) (x : Nat × State) : State := updHp x.2 h (fun y => { y with rdata := x.1 })

section
variable (can : CanWrite s h p)
include can

theorem busRead_word (aligned : off % 4 = 0) : busRead s h off 4 = answered h (readBar s h p off) := by
  obtain ⟨-, mine, up, thawed, -⟩ := can
  simp [busRead, mine, up, thawed, aligned, answered]

theorem busRead_oddSize {n : Nat} (n4 : n ≠ 4) (n8 : n ≠ 8) :
    busRead s h off n = updHp (accessBad s h off n) h (fun x => { x with rdata := 0 }) := by
  obtain ⟨-, mine, up, thawed, -⟩ := can
  simp [busRead, mine, up, thawed, n4, n8]

theorem readBar_indData : readBar s h p 0x108 = indirectRead s h p := by
  rw [readBar, if_neg (by decide), if_neg (by simp [can.isReady]), if_pos rfl]

theorem readBar_plain (low : off < 0x4000000) (notData : off ≠ 0x108) : readBar s h p off = latchRead s h p off := by
  rw [readBar, if_neg (by unfold bar2At; omega), if_neg (by simp [can.isReady]), if_neg notData]

theorem readBar_doorbell {q : Nat} (hq : q < 64) :
    readBar s h p (0x4000000 + 4096 * q) = ((queue s h q).doorbell, s) := by
  have offset : 0x4000000 + 4096 * q - bar2At = 4096 * q := Nat.add_sub_cancel_left ..
  rw [readBar, if_pos (by unfold bar2At; omega)]
  simp only [offset]
  rw [if_pos ⟨can.isReady, by omega, by omega⟩, Nat.mul_div_cancel_left q (by decide)]

theorem busRead_indData : busRead s h 0x108 4 =
    updHp (indirectDone { s with freeCtr := s.freeCtr + 1 } h (windowErr s h p false (windowAt (hport s h).indAddr))) h
      (fun x => { x with
        rdata := if windowErr s h p false (windowAt (hport s h).indAddr) = 0 then
            windowRead s h (windowAt (hport s h).indAddr) s.freeCtr
          else 0 }) :=
  (busRead_word can (by decide)).trans (by rw [readBar_indData can]; rfl)

end

theorem latchRead_low (low : latches off = true) : latchRead s h p off =
    (readWord s h p off, updHp s h (fun x => { x with latch := readWord s h p (off + 4), latchOff := off })) := if_pos low

theorem latchRead_high (notLow : latches off = false) (four : 4 ≤ off) (high : latches (off - 4) = true)
    (held : (hport s h).latchOff = off - 4) (some_ : (hport s h).latchOff ≠ 0) :
    latchRead s h p off = ((hport s h).latch, s) :=
  (if_neg (Bool.eq_false_iff.1 notLow)).trans (if_pos ⟨four, high, held, some_⟩)

theorem latchRead_plain (notLow : latches off = false) (notHigh : latches (off - 4) = false) :
    latchRead s h p off = (readWord s h p off, s) :=
  (if_neg (Bool.eq_false_iff.1 notLow)).trans (if_neg fun ⟨_, high, _⟩ => by simp [notHigh] at high)

/-! ### The region of single bits -/

theorem busWrite_alias (can : CanWrite s h p) (aligned : off % 4 = 0) (high : 0x2000000 ≤ off) (low : off < 0x4000000) :
    busWrite s h off 4 v = writeAlias s h p off (v % 2 ^ 32) := by
  rw [busWrite_word aligned, writeBar, if_pos (by unfold bar2At; omega), writeWord_alias can high]

section
variable {o b : Nat} (named : aliasOf off = (o, b))
include named

theorem writeAlias_unlisted (unlisted : (aliased o && listedWord o) = false) :
    writeAlias s h p off v = accessBad s h off 4 := by
  unfold writeAlias
  rw [named]
  simp [unlisted]

section
variable (listed : (aliased o && listedWord o) = true)
include listed

theorem writeAlias_noField (none_ : (fieldsAt h p o).find? (·.has b) = none) :
    writeAlias s h p off v = s := by
  unfold writeAlias
  rw [named]
  simp [listed, none_]

variable (field : (fieldsAt h p o).find? (·.has b) = some f)
include field

theorem writeAlias_setRw (rw_ : f.acc = .rw ∨ f.acc = .rwk) (one : v % 2 = 1) : writeAlias s h p off v =
    writeSel s h p o (f.now s * 2 ^ f.lo ||| 2 ^ b) [f] := by
  unfold writeAlias
  rw [named]
  rcases rw_ with acc | acc <;> simp [listed, field, acc, one]

theorem writeAlias_clearRw (rw_ : f.acc = .rw ∨ f.acc = .rwk) (zero : v % 2 ≠ 1) : writeAlias s h p off v =
    writeSel s h p o (f.now s * 2 ^ f.lo - (f.now s * 2 ^ f.lo &&& 2 ^ b)) [f] := by
  unfold writeAlias
  rw [named]
  rcases rw_ with acc | acc <;> simp [listed, field, acc, zero]

theorem writeAlias_w1cOne (acc : f.acc = .w1c) (one : v % 2 = 1) : writeAlias s h p off v = s := by
  unfold writeAlias
  rw [named]
  simp [listed, field, acc, one]

theorem writeAlias_w1cZero (acc : f.acc = .w1c) (zero : v % 2 ≠ 1) :
    writeAlias s h p off v = writeSel s h p o (2 ^ b) [f] := by
  unfold writeAlias
  rw [named]
  simp [listed, field, acc, zero]

theorem writeAlias_woOne (acc : f.acc = .wo) (one : v % 2 = 1) :
    writeAlias s h p off v = writeSel s h p o (2 ^ b) [f] := by
  unfold writeAlias
  rw [named]
  simp [listed, field, acc, one]

theorem writeAlias_woZero (acc : f.acc = .wo) (zero : v % 2 ≠ 1) : writeAlias s h p off v = s := by
  unfold writeAlias
  rw [named]
  simp [listed, field, acc, zero]

end

end

end

/-- Settles O57. -/
theorem unlockIndirectAndAliases : Obligations.UnlockIndirectAndAliases := by
  unfold Obligations.UnlockIndirectAndAliases
  intro s h p a v f can
  have hawake := can.awake
  have read {off n : Nat} {u : State} (e : busRead s h off n = u) : Ends (.latchedRead h ⟨off, n⟩) s u := done_next hawake e
  have value : v.toNat % 2 ^ 32 = v.toNat := Nat.mod_eq_of_lt v.isLt
  refine ⟨fun key => ?_, fun other => ?_, done_next hawake rfl, done_next hawake (busRead_indData can),
    fun k window ok => ?_, fun err => ?_, fun aligned notData low latch => ?_, fun aligned notData low notLow held four high
      some_ => ?_,
    fun aligned notData low notLow notHigh => ?_, fun q => ?_, fun n n4 n8 => read (busRead_oddSize can n4 n8),
    fun aligned high low => ⟨fun unlisted => ?_, fun listed none_ => ?_, fun listed field => ?_⟩⟩
  · exact done_next hawake ((writeWord_unlock can).trans (writeUnlock_key key))
  · exact done_next hawake ((writeWord_unlock can).trans (writeUnlock_other other))
  · exact done_next hawake ((writeWord_indData can).trans (indirectWrite_mailbox window ok))
  · exact done_next hawake ((writeWord_indData can).trans (indirectWrite_error err))
  · exact read ((busRead_word can aligned).trans (by rw [readBar_plain can low notData, latchRead_low latch]; rfl))
  · exact read ((busRead_word can aligned).trans
      (by rw [readBar_plain can low notData, latchRead_high notLow four high held some_]; rfl))
  · exact read ((busRead_word can aligned).trans (by rw [readBar_plain can low notData, latchRead_plain notLow notHigh]; rfl))
  · exact read ((busRead_word can (by omega)).trans (by rw [readBar_doorbell can q.isLt]; rfl))
  all_goals
    have write {u : State} (e : writeAlias s h p a v.toNat = u) : Ends (.bitAliasWrite h a v) s u :=
      done_next hawake ((busWrite_alias can aligned high low).trans (by rw [value, e]))
  · exact write (writeAlias_unlisted rfl unlisted)
  · exact write (writeAlias_noField rfl listed none_)
  · exact ⟨fun acc one => write (writeAlias_setRw rfl listed field acc one),
      fun acc zero => write (writeAlias_clearRw rfl listed field acc zero),
      fun acc one => write (writeAlias_w1cOne rfl listed field acc one),
      fun acc zero => write (writeAlias_w1cZero rfl listed field acc zero),
      fun acc one => write (writeAlias_woOne rfl listed field acc one),
      fun acc zero => write (writeAlias_woZero rfl listed field acc zero)⟩

end Sys2Proof.Machine
end

section
/-! The reset registers, dumps and a core reset (13 R398, R406, R409, R413, R415). -/

namespace Sys2Proof.Machine

section
variable {s : State} {h p off v : Nat} {f : RegFld} {fs : List RegFld}

/-! ### Keyed words -/

theorem writeFields_hit : writeFields s h off v fs = writeFields s h off v (hitFields v fs) := by
  have idem : (hitFields v fs).filter (fun f => f.acc.hit (f.val v)) = hitFields v fs := by
    rw [hitFields, List.filter_filter]
    simp only [Bool.and_self]
  unfold writeFields
  rw [idem, hitFields]

theorem RegFld.val_eq {w : Nat} (mask : f.mask = 2 ^ w - 1) : f.val v = natFld v f.lo w := by
  rw [RegFld.val, mask, Nat.and_two_pow_sub_one_eq_mod, natFld]

theorem natFld_low (v w : Nat) : natFld v 0 w = v % 2 ^ w := by rw [natFld, pow_zero, Nat.div_one]

theorem inRegScope_owner (scope : scopeAt s off v = .owner) (owner : isOwner s h = true) :
    inRegScope s h p (scopeAt s off v) = true := by rw [scope]; exact owner

theorem inRegScope_part {q : Nat} (scope : scopeAt s off v = .unit (some q)) (mine : q = p) :
    inRegScope s h p (scopeAt s off v) = true := by rw [scope, mine]; exact beq_self_eq_true _

theorem inRegScope_unit : inRegScope s h p (.unit (some p)) = true := beq_self_eq_true _

/-- A word with one keyed field, in range and taken by the state, that an armed port writes. -/
theorem writeWord_keyedPut {lo w x : Nat} {a : Acc} (can : CanWrite s h p) (armed : (hport s h).armed = true)
    (scope : inRegScope s h p (scopeAt s off v) = true) (fielded : Fielded off) (fields : fieldsAt h p off = [f])
    (low : f.lo = lo) (mask : f.mask = 2 ^ w - 1) (acc : f.acc = a) (keyed : a.keyed = true) (value : natFld v lo w = x)
    (hit : a.hit x = true) (inside : f.range s x = 0) (free : f.gate s x = 5) :
    writeWord s h off v = f.put (keyTaken s h off v) x := by
  subst low acc
  have val : f.val v = x := (RegFld.val_eq mask).trans value
  rw [writeWord_fields can fielded scope, fields,
    writeFields_keyedPut (by rw [val, hit]) keyed armed (by rw [val, inside]) (by rw [val, free]), val]

/-- The same where the port is not armed. -/
theorem writeWord_unarmed {lo w x : Nat} {a : Acc} (can : CanWrite s h p) (unarmed : (hport s h).armed = false)
    (scope : inRegScope s h p (scopeAt s off v) = true) (fielded : Fielded off) (fields : fieldsAt h p off = [f])
    (low : f.lo = lo) (mask : f.mask = 2 ^ w - 1) (acc : f.acc = a) (keyed : a.keyed = true) (value : natFld v lo w = x)
    (hit : a.hit x = true) :
    writeWord s h off v = keyedWrite (updHp s h (fun x => { x with armed := false })) h off v 1 := by
  subst low acc
  have val : f.val v = x := (RegFld.val_eq mask).trans value
  rw [writeWord_fields can fielded scope, fields, writeFields_unarmed (by rw [val, hit]) keyed unarmed]

/-! ### The reset registers -/

theorem putCoreReset_eq (s : State) (v : Nat) : putCoreReset s v = coreDomain s (v % 128) 3 := rfl

theorem putDevReset_warm (planned : Bool) :
    putDevReset s h (1 + 4 * b2n planned) = resetWarm s (ucHost h) 3 3 planned := by
  have bits : (1 + 4 * b2n planned).testBit 0 = true ∧ (1 + 4 * b2n planned).testBit 1 = false ∧
      (1 + 4 * b2n planned).testBit 2 = planned := by cases planned <;> decide
  obtain ⟨warm, cold, bit⟩ := bits
  simp only [putDevReset, warm, cold, bit, if_true, Bool.false_eq_true, if_false]

theorem putDevReset_cold (planned : Bool) :
    putDevReset s h (2 + 4 * b2n planned) = coldNow s (ucHost h) 3 3 planned := by
  have bits : (2 + 4 * b2n planned).testBit 1 = true ∧ (2 + 4 * b2n planned).testBit 2 = planned := by
    cases planned <;> decide
  obtain ⟨cold, bit⟩ := bits
  simp only [putDevReset, cold, bit, if_true]

/-- The fields of DUMP_CTRL: TRIGGER and RELEASE. -/
def triggerField (h : Nat) : RegFld := fieldAt 0 1 .wok (fun _ => 0) (fun s _ => takeDump s (ucHost h) 4 0 7)

/-- RELEASE. -/
def releaseField : RegFld := fieldAt 1 1 .wo (fun _ => 0) (fun s _ => releaseDump s)

theorem fieldsAt_dump : fieldsAt h p 0x00C088C = [triggerField h, releaseField] := rfl

theorem hit_trigger : (triggerField h).acc.hit ((triggerField h).val v) = (v % 2 != 0) := by
  rw [RegFld.val_eq (f := triggerField h) (w := 1) rfl]
  exact congrArg (· != 0) (natFld_low v 1)

theorem hit_release : releaseField.acc.hit (releaseField.val v) = (v / 2 % 2 != 0) := by
  rw [RegFld.val_eq (f := releaseField) (w := 1) rfl]
  rfl

theorem hitFields_trigger : hitFields 1 [triggerField h, releaseField] = [triggerField h] := by
  simp [hitFields, hit_trigger, hit_release]

theorem hitFields_release : hitFields 2 [triggerField h, releaseField] = [releaseField] := by
  simp [hitFields, hit_trigger, hit_release]

section
variable (can : CanWrite s h p)
include can

section
variable (armed : (hport s h).armed = true)
include armed

theorem writeWord_coreReset (set : 128 ≤ v % 256) (mine : coreOwner s (v % 128) = p) :
    writeWord s h 0x00C0820 v = coreDomain (keyTaken s h 0x00C0820 v) (v % 128) 3 := by
  have core : v % 2 ^ 8 % 128 = v % 128 := by omega
  refine Eq.trans (writeWord_keyedPut (w := 8) can armed (mine ▸ inRegScope_unit) (by decide) rfl rfl rfl rfl rfl
    (natFld_low v 8) rfl (if_pos set) rfl) ?_
  exact (putCoreReset_eq _ _).trans (by rw [core])

theorem writeWord_partReset (set : v % 2 = 1) (mine : natFld v 1 2 = p) :
    writeWord s h 0x00C0824 v = resetPart (keyTaken s h 0x00C0824 v) p (ucHost h) 3 3 := by
  have odd : v % 2 ^ 3 % 2 = 1 := by omega
  refine Eq.trans (writeWord_keyedPut (w := 3) can armed (mine ▸ inRegScope_unit) (by decide) rfl rfl rfl rfl rfl
    (natFld_low v 3) rfl (if_pos odd) rfl) ?_
  dsimp only [fieldAt]

variable (owner : isOwner s h = true)
include owner

theorem writeWord_warm (planned : Bool) : writeWord s h 0x00C0828 (1 + 4 * b2n planned) =
    resetWarm (keyTaken s h 0x00C0828 (1 + 4 * b2n planned)) (ucHost h) 3 3 planned :=
  Eq.trans (writeWord_keyedPut (w := 3) (x := 1 + 4 * b2n planned) (lo := 0) (a := .wok) can armed
    (inRegScope_owner rfl owner) (by decide) rfl rfl
    rfl rfl rfl (by cases planned <;> decide) (by cases planned <;> decide) rfl rfl) (putDevReset_warm planned)

theorem writeWord_cold (planned : Bool) : writeWord s h 0x00C0828 (2 + 4 * b2n planned) =
    coldNow (keyTaken s h 0x00C0828 (2 + 4 * b2n planned)) (ucHost h) 3 3 planned :=
  Eq.trans (writeWord_keyedPut (w := 3) (x := 2 + 4 * b2n planned) (lo := 0) (a := .wok) can armed
    (inRegScope_owner rfl owner) (by decide) rfl rfl
    rfl rfl rfl (by cases planned <;> decide) (by cases planned <;> decide) rfl rfl) (putDevReset_cold planned)

theorem writeWord_readmit : writeWord s h 0x00C0844 1 = readmitDevice (keyTaken s h 0x00C0844 1) := by
  refine Eq.trans (writeWord_keyedPut (w := 1) can armed (inRegScope_owner rfl owner) (by decide) rfl rfl rfl rfl rfl
    (natFld_low 1 1) rfl rfl rfl) ?_
  dsimp only [fieldAt]

theorem writeWord_trigger : writeWord s h 0x00C088C 1 = takeDump (keyTaken s h 0x00C088C 1) (ucHost h) 4 0 7 := by
  rw [writeWord_fields can (by decide) (inRegScope_owner rfl owner), fieldsAt_dump, writeFields_hit, hitFields_trigger]
  exact writeFields_keyedPut (f := triggerField h) hit_trigger rfl armed rfl rfl

end

section
variable (unarmed : (hport s h).armed = false) (owner : isOwner s h = true)
include unarmed owner

/-- A keyed write of an unarmed port. -/
def unarmedWrite (s : State) (h off v : Nat) : State := keyedWrite (updHp s h (fun x => { x with armed := false })) h off v 1

theorem writeWord_cold_unarmed (planned : Bool) :
    writeWord s h 0x00C0828 (2 + 4 * b2n planned) = unarmedWrite s h 0x00C0828 (2 + 4 * b2n planned) :=
  writeWord_unarmed (w := 3) (x := 2 + 4 * b2n planned) (lo := 0) (a := .wok) can unarmed (inRegScope_owner rfl owner) (by decide)
    rfl rfl rfl rfl rfl (by cases planned <;> decide) (by cases planned <;> decide)

theorem writeWord_readmit_unarmed : writeWord s h 0x00C0844 1 = unarmedWrite s h 0x00C0844 1 :=
  writeWord_unarmed (w := 1) can unarmed (inRegScope_owner rfl owner) (by decide) rfl rfl rfl rfl rfl (natFld_low 1 1) rfl

theorem writeWord_trigger_unarmed : writeWord s h 0x00C088C 1 = unarmedWrite s h 0x00C088C 1 := by
  rw [writeWord_fields can (by decide) (inRegScope_owner rfl owner), fieldsAt_dump, writeFields_hit, hitFields_trigger]
  exact writeFields_unarmed (f := triggerField h) hit_trigger rfl unarmed

end

theorem writeWord_release (owner : isOwner s h = true) : writeWord s h 0x00C088C 2 = releaseDump s := by
  rw [writeWord_fields can (by decide) (inRegScope_owner rfl owner), fieldsAt_dump, writeFields_hit, hitFields_release]
  exact writeFields_put (f := releaseField) hit_release rfl rfl rfl

theorem writeWord_release_other (other : isOwner s h = false) :
    writeWord s h 0x00C088C 2 = writeIgnored s h 0x00C088C 2 1 := by
  have scope : inRegScope s h p (scopeAt s 0x00C088C 2) = false := other
  rw [writeWord_sel can (by decide), fieldsAt_dump, writeSel, scope]
  have unset : (triggerField h).acc.hit ((triggerField h).val 2) = false := hit_trigger
  simp [unset, show releaseField.acc.keyed = false from rfl]

end

end

/-! ### Dumps -/

section
variable {s : State}

theorem releaseDump_state (held : s.faults.dump.state = 2 ∨ s.faults.dump.state = 3) :
    (releaseDump s).faults.dump.state = 0 := congrArg Dump.state (if_pos held)

theorem Reports.faults {s t : State} (r : Reports s t) : t.faults = s.faults := by rw [r.frame]

theorem Routine.pins {s t : State} (r : Routine s t) : t.pins = s.pins := by rw [r.frame]

theorem Routine.faults {s t : State} (r : Routine s t) : t.faults = s.faults := by rw [r.frame]

/-- What the records of a written dump leave. -/
theorem dumpRecorded_effect {v w : State} (r : Routine v w) (f : Faults → Faults) (p src oper ev : Nat) (detail : Bytes) :
    (stickyDev (record (updFaults w f) p src oper ev detail) 3).pins = v.pins ∧
    (stickyDev (record (updFaults w f) p src oper ev detail) 3).faults.dump = (f w.faults).dump := by
  have kept := Routine.of_reports ((reports_record (s := updFaults w f) p src oper ev detail).trans (reports_stickyDev _ 3))
  exact ⟨kept.pins.trans r.pins, congrArg Faults.dump kept.faults⟩

theorem dumpDone_effect (us : List Nat) (busy : s.faults.dump.state = 1) :
    (dumpDone s us).pins = s.pins ∧ (dumpDone s us).faults.dump.state = 2 := by
  unfold dumpDone
  rw [if_pos busy]
  split
  next k v counted =>
  obtain ⟨-, rfl⟩ := Prod.mk.inj counted
  split
  next end_ es written =>
  extract_lets es' trunc n here src d idx head w x p y
  have stored : Routine { s with freeCtr := s.freeCtr + 1 } w := by
    refine Routine.of_ite ?_ (.refl _)
    refine (routine_pwrite _ _ _).trans (Routine.foldl (fun u e => ?_) _ _)
    exact .of_ite (routine_pwrite _ _ _) (.refl _)
  obtain ⟨pins, dump⟩ :=
    dumpRecorded_effect stored (fun f => { f with dump := if here then d else { d with store := head } }) p (ucSpeush 0) 0 0x0057
      (leBytes 4 d.seq ++ leBytes 1 (match d.causes with
        | c :: _ => c.2.1
        | [] => 0) ++ leBytes 2 n)
  refine ⟨pins, (congrArg Dump.state dump).trans ?_⟩
  dsimp only
  split <;> rfl

theorem dumpDone_idle (us : List Nat) (idle : s.faults.dump.state ≠ 1) : dumpDone s us = s := if_neg idle

theorem flashCopy_state (held : s.faults.dump.state = 2) (fits : s.faults.dump.length ≤ storeSize ∨ dumpSize s = 0) :
    (flashCopy s).faults.dump.state = 3 := by
  unfold flashCopy
  rw [if_pos held]
  split
  · rfl
  · next some_ =>
    rw [if_pos (fits.resolve_right some_)]
    rfl

end

/-! ### A core reset -/

section
variable {s : State} {c cause : Nat}

/-- The core has come back: what a core reset does before its record. -/
def coreBack (s : State) (c : Nat) : State :=
  let x := dumpMeetsReset (fenceCopy s c) [ucCore c]
  let y := updCore x c (fun k => coreCleared k (mget x.pulses 0 (c / 8)))
  updUnits y c (fun u => { unitsCleared u with
    resets := u.resets.filter (fun t => decide (nowAll y < t + 600000000000)) ++ [nowAll y] })

theorem dumpMeetsReset_frame (s : State) (us : List Nat) :
    ∃ d, dumpMeetsReset s us = { s with faults := { s.faults with dump := d } } := by
  unfold dumpMeetsReset
  split
  · exact ⟨_, rfl⟩
  · exact ⟨s.faults.dump, rfl⟩

theorem coreBack_frame : ∃ x, ∃ rs : List Nat, rs.length ≤ (unitsOf s c).resets.length + 1 ∧
    coreBack s c = { s with
      faults := x, cores := mset s.cores {} c (coreCleared (core s c) (mget s.pulses 0 (c / 8)))
      units := mset s.units {} c { resets := rs } } ∧ x.acc = s.faults.acc := by
  obtain ⟨d, frame⟩ := dumpMeetsReset_frame (fenceCopy s c) [ucCore c]
  unfold coreBack
  rw [frame]
  refine ⟨_, _, ?_, rfl, rfl⟩
  rw [List.length_append]
  exact Nat.add_le_add_right (List.length_filter_le _ _) 1

/-- A core that came back, with its record. -/
def coreBackRecorded (s : State) (c cause : Nat) : State :=
  recordE (coreBack s c) (coreOwner s c) (ucCore c) 0 0x0051 (leBytes 1 1 ++ leBytes 1 cause) false

theorem resetCore_idle (idle : running s c = false) (free : stallBarks s c cause = false) : resetCore s c cause true =
    if 3 ≤ (unitsOf (charge (coreBackRecorded s c cause) (ucCore c) 128) c).resets.length then
      retireCore (charge (coreBackRecorded s c cause) (ucCore c) 128) c true
    else charge (coreBackRecorded s c cause) (ucCore c) 128 := by
  have stopped : stopProgram (fenceCopy s c) c = fenceCopy s c := if_neg (Bool.eq_false_iff.1 idle)
  unfold resetCore
  simp only [free, stopped, if_true, Bool.false_eq_true, if_false]
  rfl

/-- A core reset that neither charges its core through a threshold nor retires it. -/
theorem resetCore_eq (idle : running s c = false) (first : (unitsOf s c).resets = []) (free : stallBarks s c cause = false)
    (low : accOf s (ucCore c) + 128 * 1024 < 256 * 1024) : resetCore s c cause true =
      scoreSet (coreBackRecorded s c cause) (ucCore c) (accOf s (ucCore c) + 128 * 1024) := by
  obtain ⟨x, rs, few, back, acc⟩ := coreBack_frame (s := s) (c := c)
  have reports : Reports (coreBack s c) (coreBackRecorded s c cause) := reports_recordE ..
  have score : accOf (coreBackRecorded s c cause) (ucCore c) = accOf s (ucCore c) := by
    rw [accOf, reports.faults, back]
    exact congrArg (mget · 0 (ucCore c)) acc
  have charged : charge (coreBackRecorded s c cause) (ucCore c) 128 =
      scoreSet (coreBackRecorded s c cause) (ucCore c) (accOf s (ucCore c) + 128 * 1024) :=
    charge_below (by rw [score]; omega) (.inl (by omega)) (by omega)
  have resets : (unitsOf (scoreSet (coreBackRecorded s c cause) (ucCore c) (accOf s (ucCore c) + 128 * 1024)) c).resets = rs := by
    show (mget (coreBackRecorded s c cause).units {} c).resets = rs
    rw [reports.units, back]
    exact congrArg Units.resets (mget_mset_same _ _ _ _)
  rw [resetCore_idle idle free, charged, resets, if_neg]
  rw [first] at few
  simp only [List.length_nil] at few
  omega

theorem queuesEmpty_cleared (rs : List Nat) : queuesEmpty { resets := rs } = true := rfl

theorem resetCore_effect (idle : running s c = false) (first : (unitsOf s c).resets = []) (free : stallBarks s c cause = false)
    (low : accOf s (ucCore c) + 128 * 1024 < 256 * 1024) :
    core (resetCore s c cause true) c = coreCleared (core s c) (mget s.pulses 0 (c / 8)) ∧
    queuesEmpty (unitsOf (resetCore s c cause true) c) = true ∧
    (∀ x, x ≠ c → core (resetCore s c cause true) x = core s x ∧ unitsOf (resetCore s c cause true) x = unitsOf s x) ∧
    (resetCore s c cause true).ms = s.ms ∧ (resetCore s c cause true).parts = s.parts ∧
    (resetCore s c cause true).retiredCores = s.retiredCores ∧
    accOf (resetCore s c cause true) (ucCore c) = accOf s (ucCore c) + 128 * 1024 := by
  obtain ⟨x, rs, few, back, acc⟩ := coreBack_frame (s := s) (c := c)
  have reports : Reports (coreBack s c) (coreBackRecorded s c cause) := reports_recordE ..
  rw [resetCore_eq idle first free low]
  have cores : (coreBackRecorded s c cause).cores = mset s.cores {} c (coreCleared (core s c) (mget s.pulses 0 (c / 8))) := by
    rw [reports.cores, back]
  have units : (coreBackRecorded s c cause).units = mset s.units {} c { resets := rs } := by rw [reports.units, back]
  refine ⟨?_, ?_, fun y hy => ⟨?_, ?_⟩, ?_, ?_, ?_, mget_mset_same ..⟩
  · exact (congrArg (mget · {} c) cores).trans (mget_mset_same ..)
  · have same : unitsOf (coreBackRecorded s c cause) c = { resets := rs } := by rw [unitsOf, units, mget_mset_same]
    show queuesEmpty (unitsOf (coreBackRecorded s c cause) c) = true
    rw [same, queuesEmpty_cleared]
  · exact (congrArg (mget · {} y) cores).trans (mget_mset_other _ _ _ _ hy)
  · exact (congrArg (mget · {} y) units).trans (mget_mset_other _ _ _ _ hy)
  · exact reports.ms.trans (by rw [back])
  · exact reports.parts.trans (by rw [back])
  · exact reports.retiredCores.trans (by rw [back])

end

/-- Settles O48. -/
theorem resetsAndDumps : Obligations.ResetsAndDumps := by
  unfold Obligations.ResetsAndDumps
  refine ⟨fun s h p v planned can => ?_, fun s c cause idle first free low => resetCore_effect idle first free low⟩
  have hawake := can.awake
  refine ⟨fun armed => ⟨fun set mine => done_next hawake (writeWord_coreReset can armed set mine),
      fun set mine => done_next hawake (writeWord_partReset can armed set mine), fun owner => ⟨?_, ?_, ?_, ?_⟩⟩,
    fun unarmed owner => ⟨?_, ?_, ?_⟩, fun owner => ?_, fun other => ?_, releaseDump_state, fun us quiet busy => ?_,
    fun us quiet idle => ?_, fun power mgmt => ?_, flashCopy_state⟩
  · have word : 2 + 4 * b2n planned - 1 = 1 + 4 * b2n planned := by omega
    rw [word]
    exact done_next hawake (writeWord_warm can armed owner planned)
  · exact done_next hawake (writeWord_cold can armed owner planned)
  · exact done_next hawake (writeWord_readmit can armed owner)
  · exact done_next hawake (writeWord_trigger can armed owner)
  · exact done_next hawake (writeWord_cold_unarmed can unarmed owner planned)
  · exact done_next hawake (writeWord_readmit_unarmed can unarmed owner)
  · exact done_next hawake (writeWord_trigger_unarmed can unarmed owner)
  · exact done_next hawake (writeWord_release can owner)
  · exact done_next hawake (writeWord_release_other can other)
  · obtain ⟨pins, state⟩ := dumpDone_effect (us.map (·.toNat)) busy
    exact ⟨done_next hawake (if_neg (by rw [pins, quiet]; decide)), state⟩
  · refine done_next hawake ((if_neg ?_).trans (dumpDone_idle _ idle))
    rw [dumpDone_idle _ idle, quiet]
    decide
  · exact done_next hawake (if_neg (by simp [power, mgmt]))

end Sys2Proof.Machine
end

section
/-! The registers whose writes have effects of their own (01 R24, R29; 09 R285, R292; 10 R325; 14 R427; 15 R457, R466; 17 R498). -/

namespace Sys2Proof.Machine

section
variable {s : State} {h p off v : Nat} {f : RegFld} {fs : List RegFld}

/-! ### Words with one field -/

/-- A word with one field that is not keyed, in range and taken by the state. -/
theorem writeWord_put {lo w x : Nat} {a : Acc} (can : CanWrite s h p) (scope : inRegScope s h p (scopeAt s off v) = true)
    (fielded : Fielded off) (fields : fieldsAt h p off = [f]) (low : f.lo = lo) (mask : f.mask = 2 ^ w - 1) (acc : f.acc = a)
    (plain : a.keyed = false) (value : natFld v lo w = x) (hit : a.hit x = true) (inside : f.range s x = 0)
    (free : f.gate s x = 5) : writeWord s h off v = f.put s x := by
  subst low acc
  have val : f.val v = x := (RegFld.val_eq mask).trans value
  rw [writeWord_fields can fielded scope, fields,
    writeFields_put (by rw [val, hit]) plain (by rw [val, inside]) (by rw [val, free]), val]

/-- A word with one keyed field, that an armed port writes with a value out of range. -/
theorem writeWord_keyedOutside {lo w x : Nat} {a : Acc} (can : CanWrite s h p) (armed : (hport s h).armed = true)
    (scope : inRegScope s h p (scopeAt s off v) = true) (fielded : Fielded off) (fields : fieldsAt h p off = [f])
    (low : f.lo = lo) (mask : f.mask = 2 ^ w - 1) (acc : f.acc = a) (keyed : a.keyed = true) (value : natFld v lo w = x)
    (hit : a.hit x = true) (outside : f.range s x ≠ 0) :
    writeWord s h off v = keyedWrite (updHp s h (fun x => { x with armed := false })) h off v 3 := by
  subst low acc
  have val : f.val v = x := (RegFld.val_eq mask).trans value
  rw [writeWord_fields can fielded scope, fields,
    writeFields_keyedOutside (by rw [val, hit]) keyed armed (by rw [val]; exact outside)]

theorem putMask_kept (s : State) (h v : Nat) : (hport (putMask s h v) h).asyncMask = v := by
  have written : (hport (updHp s h (fun x => { x with asyncMask := v })) h).asyncMask = v :=
    congrArg HostPort.asyncMask (mget_mset_same ..)
  unfold putMask
  dsimp only
  split
  · rw [(reports_sendMsix _ h _).hp]
    exact written
  · exact written

/-! ### CORE_MAP -/

section
variable {l : Nat} (hl : l < 120)
include hl

/-- CORE_MAP of L`l`. -/
def mapField (p l : Nat) : RegFld :=
  { lo := 0, mask := 127, acc := .rwk, now := fun s => physOf s l, range := mapRange p l, gate := mapGate p
    put := fun s v => setPhys s l v }

theorem fieldsAt_coreMap : fieldsAt h p (0x0010800 + 4 * l) = [mapField p l] := by
  have index : (0x0010800 + 4 * l - 0x0010800) / 4 = l := by omega
  rw [fieldsAt, if_neg (by omega), if_pos (by omega), partFields.eq_def,
    if_neg (by omega), if_pos (by omega)]
  simp only [index]
  rfl

theorem scopeAt_coreMap : scopeAt s (0x0010800 + 4 * l) v = .unit (some (lcorePart s l)) := by
  have index : (0x0010800 + 4 * l - 0x0010800) / 4 = l := by omega
  rw [scopeAt.eq_def, if_neg (by omega), if_pos (by omega), index]

theorem fielded_coreMap : Fielded (0x0010800 + 4 * l) := by
  refine ⟨?_, ?_, ?_, ?_⟩ <;> omega

end

/-! ### PSHARE -/

section
variable {q : Nat} (hq : q < 4)
include hq

/-- The share of partition `q`. -/
def shareField (q : Nat) : RegFld :=
  { fieldAt 0 9 .rwk (fun s => mget s.power.staged 0 q) (fun s v => stageShare s q v) with range := within 0 256 }

theorem fieldsAt_share : fieldsAt h p (0x0080008 + 4 * q) = [shareField q] := by
  have index : (0x0080008 + 4 * q - 0x0080000 - 0x008) / 4 = q := by omega
  rw [fieldsAt, if_neg (by omega), if_neg (by omega), if_neg (by omega), if_neg (by omega), if_pos (by omega),
    powerFields.eq_def]
  dsimp only
  rw [if_pos (by omega), index]
  rfl

theorem scopeAt_share : scopeAt s (0x0080008 + 4 * q) v = .owner := by
  rw [scopeAt.eq_def, if_neg (by omega), if_neg (by omega), if_neg (by omega), if_neg (by omega), if_neg (by omega),
    if_pos (by omega)]

end

/-! ### FRZ_LIFT -/

/-- What FRZ_LIFT may name: a host port by the owner, a queue of the port, or a core of its partition. -/
theorem lift_inScope {kind idx : Nat} (hkind : natFld v 12 4 = kind) (hidx : natFld v 0 12 = idx)
    (named : (kind = 1 ∧ idx < 4 ∧ isOwner s h = true) ∨ (kind = 2 ∧ idx < 64) ∨
      (kind = 3 ∧ idx < 120 ∧ lcorePart s idx = p)) :
    inRegScope s h p (liftScope s v) = true ∧ liftRange s (v % 65536) = 0 := by
  have kind' : natFld (v % 65536) 12 4 = kind := by rw [← hkind]; unfold natFld; omega
  have idx' : natFld (v % 65536) 0 12 = idx := by rw [← hidx]; unfold natFld; omega
  unfold liftScope liftRange
  rw [hkind, hidx, kind', idx']
  rcases named with ⟨rfl, small, owner⟩ | ⟨rfl, small⟩ | ⟨rfl, small, mine⟩
  · exact ⟨owner, if_pos small⟩
  · exact ⟨rfl, if_pos small⟩
  · refine ⟨?_, if_pos small⟩
    dsimp only
    rw [if_pos small, mine]
    exact beq_self_eq_true _

/-! ### Words with several fields -/

section
variable (lo w : Nat) (a : Acc) (now : State → Nat) (put : State → Nat → State) (i : RegInst) (range gate : State → Nat → Nat)

@[simp] theorem fieldAt_val : (fieldAt lo w a now put).val v = natFld v lo w := RegFld.val_eq (f := fieldAt lo w a now put) rfl
@[simp] theorem fieldAt_acc : (fieldAt lo w a now put).acc = a := rfl
@[simp] theorem fieldAt_put : (fieldAt lo w a now put).put = put := rfl
@[simp] theorem fieldAt_range (x : Nat) : (fieldAt lo w a now put).range s x = 0 := rfl
@[simp] theorem fieldAt_gate (x : Nat) : (fieldAt lo w a now put).gate s x = 5 := rfl
@[simp] theorem kept_val : (kept i off lo w a range gate).val v = natFld v lo w :=
  RegFld.val_eq (f := kept i off lo w a range gate) rfl
@[simp] theorem kept_acc : (kept i off lo w a range gate).acc = a := rfl
@[simp] theorem kept_put : (kept i off lo w a range gate).put = fun s v => setRegF s i off lo w v := rfl
@[simp] theorem kept_range : (kept i off lo w a range gate).range = range := rfl
@[simp] theorem kept_gate : (kept i off lo w a range gate).gate = gate := rfl

end

/-! ### JP_CFG -/

section
variable {j : Nat} (hj : j < 32)
include hj

theorem fieldsAt_jpCfg : fieldsAt h p (0x0400000 + 0x1000 * j) = jilanFields p j 0x000 := by
  have index : (0x0400000 + 0x1000 * j - 0x0400000) / 0x1000 = j := by omega
  have first : (0x0400000 + 0x1000 * j) % 0x1000 = 0 := by omega
  rw [fieldsAt, if_neg (by omega), if_neg (by omega), if_neg (by omega), if_neg (by omega), if_neg (by omega),
    if_neg (by omega), if_neg (by omega), if_neg (by omega), if_neg (by omega), if_pos (by omega), index, first]

theorem scopeAt_jpCfg : scopeAt s (0x0400000 + 0x1000 * j) v = .unit (portPart s j) := by
  have index : (0x0400000 + 0x1000 * j - 0x0400000) / 0x1000 = j := by omega
  rw [scopeAt.eq_def, if_pos (by omega), index]

theorem fielded_jpCfg : Fielded (0x0400000 + 0x1000 * j) := by
  refine ⟨?_, ?_, ?_, ?_⟩ <;> omega

end

/-- JP_CFG.RETRAIN. -/
def retrainField (j : Nat) : RegFld := fieldAt 5 1 .wo (fun _ => 0) (fun s _ => askRetrain s j 0)

/-- JP_CFG.CNTCLR. -/
def clearField (j : Nat) : RegFld := fieldAt 6 1 .wo (fun _ => 0) (fun s _ => clearCounters s j)

/-- The fields of JP_CFG that are not keyed and hold a setting: DEFER and BER_EXP. -/
def plainFields (j : Nat) : List RegFld :=
  [kept .dev (0x0400000 + 0x1000 * j) 7 1 .rw anyV open_, kept .dev (0x0400000 + 0x1000 * j) 8 4 .rw (within 4 7) open_]

/-- Its keyed fields: EN, ROLE and the width. -/
def keyedFields (p j : Nat) : List RegFld :=
  [fieldAt 0 1 .rwk (fun s => b2n (jpEn s j)) (fun s v => putEn s j v),
   kept .dev (0x0400000 + 0x1000 * j) 1 2 .rwk (fun s v => if v = jpRole s j ∨ (28 ≤ j ∧ (v = 1 ∨ v = 2)) then 0 else 2)
     (fun s v => if v = jpRole s j then 5 else early p s v),
   kept .dev (0x0400000 + 0x1000 * j) 3 2 .rwk (within 0 2) open_]

theorem jilanFields_cfg (p j : Nat) :
    jilanFields p j 0x000 = keyedFields p j ++ retrainField j :: clearField j :: plainFields j := rfl

theorem hit_rwk (x : Nat) : Acc.hit .rwk x = true := rfl
theorem hit_rw (x : Nat) : Acc.hit .rw x = true := rfl
theorem hit_wo (x : Nat) : Acc.hit .wo x = (x != 0) := rfl
theorem hit_wok (x : Nat) : Acc.hit .wok x = (x != 0) := rfl
theorem keyed_rwk : Acc.keyed .rwk = true := rfl
theorem keyed_wok : Acc.keyed .wok = true := rfl
theorem keyed_rw : Acc.keyed .rw = false := rfl
theorem keyed_wo : Acc.keyed .wo = false := rfl

section
variable {j : Nat}

theorem hitFields_jpCfg : hitFields v (jilanFields p j 0x000) = keyedFields p j ++
    ((if natFld v 5 1 = 0 then [] else [retrainField j]) ++ (if natFld v 6 1 = 0 then [] else [clearField j]) ++
      plainFields j) := by
  rw [jilanFields_cfg]
  by_cases r : natFld v 5 1 = 0 <;> by_cases c : natFld v 6 1 = 0 <;>
    simp [hitFields, keyedFields, plainFields, retrainField, clearField, hit_rwk, hit_rw, hit_wo, r, c]

theorem liveFields_jpCfg_unarmed : liveFields false v (jilanFields p j 0x000) =
    (if natFld v 5 1 = 0 then [] else [retrainField j]) ++ (if natFld v 6 1 = 0 then [] else [clearField j]) ++
      plainFields j := by
  rw [liveFields, hitFields_jpCfg]
  by_cases r : natFld v 5 1 = 0 <;> by_cases c : natFld v 6 1 = 0 <;>
    simp [keyedFields, plainFields, retrainField, clearField, keyed_rwk, keyed_rw, keyed_wo, r, c]

theorem liveFields_jpCfg_armed (r : natFld v 5 1 = 0) (c : natFld v 6 1 = 0) :
    liveFields true v (jilanFields p j 0x000) = keyedFields p j ++ plainFields j := by
  rw [liveFields, hitFields_jpCfg, r, c]
  simp

theorem keyRecorded_jpCfg : keyRecorded s h off v (jilanFields p j 0x000) =
    keyedWrite (updHp s h (fun x => { x with armed := false })) h off v (if (hport s h).armed then 0 else 1) := by
  rw [keyRecorded, hitFields_jpCfg, if_neg]
  simp [keyedFields, keyed_rwk]

theorem plainFields_ok (exp : 4 ≤ natFld v 8 4 ∧ natFld v 8 4 ≤ 7) :
    ∀ f ∈ plainFields j, f.range s (f.val v) = 0 ∧ f.gate s (f.val v) = 5 := by
  simp [plainFields, anyV, open_, within, exp]

/-- The settings of JP_CFG written as they stand in `v`. -/
def settingsWritten (v j : Nat) (u : State) (fs : List (Nat × Nat)) : State :=
  fs.foldl (fun u f => setRegF u .dev (0x0400000 + 0x1000 * j) f.1 f.2 (natFld v f.1 f.2)) u

theorem settingsWritten_cons (v j lo w : Nat) (u : State) (fs : List (Nat × Nat)) : settingsWritten v j u ((lo, w) :: fs) =
    settingsWritten v j (setRegF u .dev (0x0400000 + 0x1000 * j) lo w (natFld v lo w)) fs := rfl

theorem settingsWritten_congr {cfg : Nat} (u : State) {fs : List (Nat × Nat)}
    (same : ∀ f ∈ fs, natFld v f.1 f.2 = natFld cfg f.1 f.2) : settingsWritten v j u fs = settingsWritten cfg j u fs := by
  induction fs generalizing u with
  | nil => rfl
  | cons f fs ih =>
    obtain ⟨lo, w⟩ := f
    rw [settingsWritten_cons, settingsWritten_cons, same _ (.head _), ih _ fun f mem => same f (.tail _ mem)]

section
variable (exp : 4 ≤ natFld v 8 4 ∧ natFld v 8 4 ≤ 7)
include exp

section
variable (unarmed : (hport s h).armed = false)
include unarmed

theorem writeFields_jpCfg_retrain (r : natFld v 5 1 = 1) (c : natFld v 6 1 = 0) :
    writeFields s h off v (jilanFields p j 0x000) =
      settingsWritten v j (askRetrain (unarmedWrite s h off v) j 0) [(7, 1), (8, 4)] := by
  have live : liveFields (hport s h).armed v (jilanFields p j 0x000) = retrainField j :: plainFields j := by
    rw [unarmed, liveFields_jpCfg_unarmed, r, c]
    rfl
  rw [writeFields_taken, live, keyRecorded_jpCfg, unarmed]
  · simp only [plainFields, retrainField, List.foldl_cons, List.foldl_nil, fieldAt_put, kept_put, kept_val]
    rfl
  · rw [live]
    exact List.forall_mem_cons.2 ⟨⟨rfl, rfl⟩, plainFields_ok exp⟩

theorem writeFields_jpCfg_clear (r : natFld v 5 1 = 0) (c : natFld v 6 1 = 1) :
    writeFields s h off v (jilanFields p j 0x000) =
      settingsWritten v j (clearCounters (unarmedWrite s h off v) j) [(7, 1), (8, 4)] := by
  have live : liveFields (hport s h).armed v (jilanFields p j 0x000) = clearField j :: plainFields j := by
    rw [unarmed, liveFields_jpCfg_unarmed, r, c]
    rfl
  rw [writeFields_taken, live, keyRecorded_jpCfg, unarmed]
  · simp only [plainFields, clearField, List.foldl_cons, List.foldl_nil, fieldAt_put, kept_put, kept_val]
    rfl
  · rw [live]
    exact List.forall_mem_cons.2 ⟨⟨rfl, rfl⟩, plainFields_ok exp⟩

end

theorem writeFields_jpCfg_enable {en : Nat} (armed : (hport s h).armed = true) (r : natFld v 5 1 = 0) (c : natFld v 6 1 = 0)
    (hen : natFld v 0 1 = en) (role : natFld v 1 2 = jpRole s j) (width : natFld v 3 2 ≤ 2) :
    writeFields s h off v (jilanFields p j 0x000) =
      settingsWritten v j (putEn (keyTaken s h off v) j en) [(1, 2), (3, 2), (7, 1), (8, 4)] := by
  have live : liveFields (hport s h).armed v (jilanFields p j 0x000) = keyedFields p j ++ plainFields j := by
    rw [armed, liveFields_jpCfg_armed r c]
  rw [writeFields_taken, live, keyRecorded_jpCfg, armed]
  · simp only [keyedFields, plainFields, List.cons_append, List.nil_append, List.foldl_cons, List.foldl_nil, fieldAt_put,
      fieldAt_val, kept_put, kept_val, hen]
    rfl
  · rw [live]
    refine List.forall_mem_append.2 ⟨?_, plainFields_ok exp⟩
    simp [keyedFields, role, within, width, open_]

end

end

/-- BOOT_PREF and SVN_COMMIT. -/
def bootFields : List RegFld :=
  [fieldAt 0 1 .rwk (fun s => s.mgmt.bootPref) (fun s v => putFlash s (fun m => { m with bootPref := v })),
   fieldAt 1 1 .wok (fun _ => 0) (fun s _ => commitSvn s)]

section
variable (can : CanWrite s h p)
include can

theorem writeWord_asyncMask : writeWord s h 0x0049008 v = putMask s h (v % 64) := by
  refine Eq.trans (writeWord_put (w := 6) (x := v % 64) can rfl (by decide) rfl rfl rfl rfl rfl (natFld_low v 6) rfl rfl rfl) ?_
  dsimp only [fieldAt]

/-! ### Keyed words -/

section
variable (armed : (hport s h).armed = true)
include armed

section
variable {l : Nat} (hl : l < 120)
include hl

variable (mine : lcorePart s l = p)
include mine

theorem writeWord_coreMap (other : ∀ x, x < 120 → x ≠ l → physOf s x ≠ v % 128) (healthy : smem s.retiredCores (v % 128) = false)
    (inside : v % 128 / (128 / nparts s) = p) (still : stepActive s p = false) (free : ∀ x ∈ s.launches, x.part ≠ p) :
    writeWord s h (0x0010800 + 4 * l) v = setPhys (keyTaken s h (0x0010800 + 4 * l) v) l (v % 128) := by
  have unused : (List.range 120).any (fun x => x != l && physOf s x == v % 128) = false := by
    rw [List.any_eq_false]
    intro x mem
    have := other x (List.mem_range.1 mem)
    simpa using this
  have range : mapRange p l s (v % 128) = 0 := by simp [mapRange, unused, healthy, inside]
  have stopped : s.launches.any (fun x => x.part == p && !x.running.isEmpty) = false := by
    rw [List.any_eq_false]
    intro x mem
    simp [free x mem]
  have gate : mapGate p s (v % 128) = 5 := by simp [mapGate, still, stopped]
  exact Eq.trans (writeWord_keyedPut (f := mapField p l) (w := 7) (x := v % 128) can armed (inRegScope_part (scopeAt_coreMap hl) mine)
    (fielded_coreMap hl) (fieldsAt_coreMap hl) rfl rfl rfl rfl (natFld_low v 7) rfl range gate) rfl

theorem writeWord_coreMap_retired (retired : smem s.retiredCores (v % 128) = true) : writeWord s h (0x0010800 + 4 * l) v =
    keyedWrite (updHp s h (fun x => { x with armed := false })) h (0x0010800 + 4 * l) v 3 := by
  have range : mapRange p l s (v % 128) ≠ 0 := by simp [mapRange, retired]
  exact writeWord_keyedOutside (f := mapField p l) (w := 7) (x := v % 128) can armed (inRegScope_part (scopeAt_coreMap hl) mine)
    (fielded_coreMap hl) (fieldsAt_coreMap hl) rfl rfl rfl rfl (natFld_low v 7) rfl range

end

theorem writeWord_pshare {q : Nat} (hq : q < 4) (owner : isOwner s h = true) (small : v % 512 ≤ 256) :
    writeWord s h (0x0080008 + 4 * q) v = stageShare (keyTaken s h (0x0080008 + 4 * q) v) q (v % 512) := by
  have fielded : Fielded (0x0080008 + 4 * q) := by refine ⟨?_, ?_, ?_, ?_⟩ <;> omega
  exact Eq.trans (writeWord_keyedPut (f := shareField q) (w := 9) (x := v % 512) can armed
    (inRegScope_owner (scopeAt_share hq) owner) fielded (fieldsAt_share hq) rfl rfl rfl rfl (natFld_low v 9) rfl
    (if_pos ⟨Nat.zero_le _, small⟩) rfl) rfl

theorem writeWord_frzLift (scope : inRegScope s h p (liftScope s v) = true) (range : liftRange s (v % 65536) = 0)
    (frozen : isFrozen s (natFld v 12 4) (natFld v 0 12) h = true) : writeWord s h 0x0010C30 v =
      liftFreeze (keyTaken s h 0x0010C30 v) (natFld v 12 4) (natFld v 0 12) h 2 (ucHost h) := by
  have kind : natFld (v % 65536) 12 4 = natFld v 12 4 := by unfold natFld; omega
  have idx : natFld (v % 65536) 0 12 = natFld v 0 12 := by unfold natFld; omega
  refine Eq.trans (writeWord_keyedPut (w := 16) (x := v % 65536) can armed scope (by decide) rfl rfl rfl rfl rfl
    (natFld_low v 16) rfl range (if_pos (by rw [kind, idx, frozen]))) ?_
  dsimp only
  rw [kind, idx]

theorem writeWord_hsfrz : writeWord s h 0x0204038 v = putHsfrz (keyTaken s h 0x0204038 v) p (v % 16) := by
  refine Eq.trans (writeWord_keyedPut (w := 4) (x := v % 16) can armed rfl (by decide) rfl rfl rfl rfl rfl
    (natFld_low v 4) rfl rfl rfl) ?_
  dsimp only [fieldAt]

theorem writeWord_svnCommit (owner : isOwner s h = true) (pref : s.mgmt.bootPref ≤ 1) :
    writeWord s h 0x0010C0C (s.mgmt.bootPref + 2) = commitSvn
      (updMgmt (keyTaken s h 0x0010C0C (s.mgmt.bootPref + 2)) (fun m => { m with bootPref := s.mgmt.bootPref })) := by
  have bits : natFld (s.mgmt.bootPref + 2) 0 1 = s.mgmt.bootPref ∧ natFld (s.mgmt.bootPref + 2) 1 1 = 1 := by
    unfold natFld
    omega
  obtain ⟨slot, commit⟩ := bits
  have fields : fieldsAt h p 0x0010C0C = bootFields := rfl
  have live : liveFields (hport s h).armed (s.mgmt.bootPref + 2) bootFields = bootFields := by
    simp [liveFields, hitFields, bootFields, armed, hit_rwk, hit_wok, commit]
  rw [writeWord_fields can (by decide) (inRegScope_owner rfl owner), fields, writeFields_taken, live]
  · simp [bootFields, keyRecorded, hitFields, hit_rwk, hit_wok, keyed_rwk, commit, slot, armed]
    rfl
  · rw [live]
    simp [bootFields]

end

section
variable {j : Nat} (hj : j < 32) (mine : portPart s j = some p)
include hj mine

theorem writeWord_jpCfg : writeWord s h (0x0400000 + 0x1000 * j) v =
    writeFields s h (0x0400000 + 0x1000 * j) v (jilanFields p j 0x000) := by
  have scope : inRegScope s h p (scopeAt s (0x0400000 + 0x1000 * j) v) = true := by
    rw [scopeAt_jpCfg hj, mine]
    exact inRegScope_unit
  rw [writeWord_fields can (fielded_jpCfg hj) scope, fieldsAt_jpCfg hj]

end

end

end

/-- The fields of JP_CFG in a word that differs from `cfg` in the triggers alone. -/
theorem natFld_trigger {cfg k : Nat} (clear : cfg / 32 % 4 = 0) (hk : k ≤ 2) :
    natFld (cfg + 32 * k) 5 1 = k % 2 ∧ natFld (cfg + 32 * k) 6 1 = k / 2 ∧ natFld (cfg + 32 * k) 7 1 = natFld cfg 7 1 ∧
    natFld (cfg + 32 * k) 8 4 = natFld cfg 8 4 := by
  unfold natFld
  omega

/-- The fields of a word of which EN is written. -/
theorem natFld_setEn {cfg : Nat} (clear : cfg / 32 % 4 = 0) (en : Bool) :
    natFld (setFld cfg 0 1 (b2n en)) 0 1 = b2n en ∧ natFld (setFld cfg 0 1 (b2n en)) 5 1 = 0 ∧
    natFld (setFld cfg 0 1 (b2n en)) 6 1 = 0 ∧
    ∀ f ∈ [(1, 2), (3, 2), (7, 1), (8, 4)], natFld (setFld cfg 0 1 (b2n en)) f.1 f.2 = natFld cfg f.1 f.2 := by
  have bit : b2n en = 0 ∨ b2n en = 1 := by cases en <;> simp [b2n]
  simp only [List.forall_mem_cons, List.not_mem_nil, false_imp_iff, implies_true, and_true]
  unfold setFld natFld
  omega

/-- Settles O58. -/
theorem registersWithEffects : Obligations.RegistersWithEffects := by
  unfold Obligations.RegistersWithEffects
  intro s h p v l q j en can
  have hawake := can.awake
  refine ⟨done_next hawake (writeWord_asyncMask can), putMask_kept _ _ _, fun armed => ⟨?_, ?_, ?_, ?_, ?_, ?_⟩,
    fun mine clear width low high => ⟨fun unarmed => ⟨?_, ?_⟩, fun armed => ?_⟩⟩
  · exact fun mine other healthy inside still free =>
      done_next hawake (writeWord_coreMap can armed l.isLt mine other healthy inside still free)
  · exact fun mine retired => done_next hawake (writeWord_coreMap_retired can armed l.isLt mine retired)
  · exact fun owner small => done_next hawake (writeWord_pshare can armed q.isLt owner small)
  · exact fun owner pref => done_next hawake (writeWord_svnCommit can armed owner pref)
  · intro named frozen
    obtain ⟨scope, range⟩ := lift_inScope rfl rfl named
    exact done_next hawake (writeWord_frzLift can armed scope range frozen)
  · exact done_next hawake (writeWord_hsfrz can armed)
  · obtain ⟨retrain, clears, seven, eight⟩ := natFld_trigger (k := 1) clear (by decide)
    have kept : ∀ f ∈ [(7, 1), (8, 4)], natFld (jpCfg s j + 32) f.1 f.2 = natFld (jpCfg s j) f.1 f.2 := by simp [seven, eight]
    refine done_next hawake ((writeWord_jpCfg can j.isLt mine).trans ((writeFields_jpCfg_retrain ?_ unarmed retrain clears).trans
      (settingsWritten_congr _ kept)))
    · exact (kept (8, 4) (by simp)).symm ▸ ⟨low, high⟩
  · obtain ⟨retrain, clears, seven, eight⟩ := natFld_trigger (k := 2) clear (by decide)
    have kept : ∀ f ∈ [(7, 1), (8, 4)], natFld (jpCfg s j + 64) f.1 f.2 = natFld (jpCfg s j) f.1 f.2 := by simp [seven, eight]
    refine done_next hawake ((writeWord_jpCfg can j.isLt mine).trans ((writeFields_jpCfg_clear ?_ unarmed retrain clears).trans
      (settingsWritten_congr _ kept)))
    · exact (kept (8, 4) (by simp)).symm ▸ ⟨low, high⟩
  · obtain ⟨bit, retrain, clears, kept⟩ := natFld_setEn clear en
    refine done_next hawake ((writeWord_jpCfg can j.isLt mine).trans ((writeFields_jpCfg_enable ?_ armed retrain clears bit
      ?_ ?_).trans
      (settingsWritten_congr _ kept)))
    · exact (kept (8, 4) (by simp)).symm ▸ ⟨low, high⟩
    · exact kept (1, 2) (by simp)
    · exact (kept (3, 2) (by simp)).symm ▸ width

end Sys2Proof.Machine
end

section
/-! The event recorder (16 R474 to R478). -/

namespace Sys2Proof.Machine

section
variable {s : State} {h p : Nat}

/-! ### Flushes and freezes -/

theorem flushEvents_open (open_ : s.evr.frozen = false) (up : s.mgmt.bothDown = false) :
    flushEvents s = updEvr s (fun x => { x with flash := x.flash ++ x.pending, pending := [] }) :=
  if_neg (by simp [open_, up])

theorem flushEvents_frozen (frozen : s.evr.frozen = true) : flushEvents s = s := if_pos (by simp [frozen])

theorem recordE_frozen (frozen : s.evr.frozen = true) (q src oper ev : Nat) (detail : Bytes) (inj : Bool) :
    (recordE s q src oper ev detail inj).evr.pending = s.evr.pending ∧
    (recordE s q src oper ev detail inj).evr.flash = s.evr.flash := by
  unfold recordE
  dsimp only
  split
  · exact ⟨rfl, rfl⟩
  · exact ⟨rfl, rfl⟩

theorem endFreeze_open (open_ : s.evr.frozen = false) : endFreeze s = s := if_neg (Bool.eq_false_iff.1 open_)

theorem freezeRecorder_open (open_ : s.evr.frozen = false) : freezeRecorder s =
    updEvr s (fun x => { x with frozen := true, frozenCnt := 0, frozenSev := 0, frozenAt := uptimeNs s }) :=
  if_neg (Bool.eq_false_iff.1 open_)

theorem freezeRecorder_frozen (frozen : s.evr.frozen = true) : freezeRecorder s = s := if_pos frozen

theorem sendMsix_evr (h v : Nat) : (sendMsix s h v).evr = s.evr := by
  unfold sendMsix
  split
  · split
    · rfl
    · rfl
  · rfl

theorem asyncCause_evr (s : State) (h bit : Nat) : (asyncCause s h bit).evr = s.evr := by
  unfold asyncCause
  split
  · rfl
  · dsimp only
    split
    · exact sendMsix_evr _ _
    · rfl

theorem stickyDev_evr (bit : Nat) : (stickyDev s bit).evr = s.evr := by
  have causes (hs : List Nat) (u : State) : (stickyCause u hs).evr = u.evr := by
    induction hs generalizing u with
    | nil => rfl
    | cons h hs ih => exact (ih (asyncCause u h 4)).trans (asyncCause_evr u h 4)
  unfold stickyDev
  dsimp only
  split
  · rfl
  · exact causes _ _

theorem storeEvent_open (open_ : s.evr.frozen = false) (e : Event) : (storeEvent s e).evr.frozen = false := by
  unfold storeEvent
  extract_lets x full fullBuf put
  split
  · split
    · exact open_
    · rw [stickyDev_evr]
      exact open_
  · exact open_

theorem recordE_open (open_ : s.evr.frozen = false) (q src oper ev : Nat) (detail : Bytes) (inj : Bool) :
    (recordE s q src oper ev detail inj).evr.frozen = false := by
  unfold recordE
  extract_lets sev dev pr e stored
  have kept : stored.evr.frozen = false := by
    subst stored
    split
    · split
      · exact open_
      · exact storeEvent_open open_ e
    · exact storeEvent_open open_ e
  split
  · exact open_
  · rw [if_neg (Bool.eq_false_iff.1 open_)]
    split
    · unfold flushEvents
      split
      · exact kept
      · exact kept
    · exact kept

theorem endFreeze_ends : (endFreeze s).evr.frozen = false := by
  unfold endFreeze
  split
  · dsimp only
    split
    · rfl
    · exact recordE_open rfl ..
  · next open_ => exact Bool.eq_false_iff.2 open_

/-! ### CLEAR -/

/-- An empty recorder. -/
def Emptied (s : State) : Prop :=
  s.evr.flash = [] ∧ s.evr.pending = [] ∧ s.evr.frozen = false

theorem storeEvent_emptied (empty : Emptied s) (e : Event) : storeEvent s e =
    updEvr s (fun r => { r with pending := [{ e with seq := s.evr.seqNext }], seqNext := s.evr.seqNext + 1 }) := by
  obtain ⟨flash, pending, -⟩ := empty
  simp [storeEvent, flash, pending, flashSlots, bufferSlots, updEvr]

/-- A record of severity 5 or more that an empty recorder takes. -/
theorem record_emptied (empty : Emptied s) (up : s.mgmt.bothDown = false) {ev : Nat} (stored : s.evr.minSev ≤ evSev ev)
    (high : 5 ≤ evSev ev) (q src oper : Nat) (detail : Bytes) : ∃ x : Event, x.event = ev ∧ x.seq = s.evr.seqNext ∧
      record s q src oper ev detail = updEvr s (fun r => { r with flash := [x], pending := [], seqNext := s.evr.seqNext + 1 }) := by
  obtain ⟨flash, pending, thawed⟩ := id empty
  unfold record recordE
  extract_lets sev dev pr e t
  have ht : t = storeEvent s e := by
    subst t
    rw [pending]
    rfl
  rw [storeEvent_emptied empty] at ht
  refine ⟨{ e with seq := s.evr.seqNext }, rfl, rfl, ?_⟩
  rw [if_neg (Nat.not_lt.2 stored), if_neg (Bool.eq_false_iff.1 thawed), if_pos (.inl high), ht]
  refine Eq.trans (flushEvents_open ?_ ?_) ?_
  · exact thawed
  · exact up
  · simp [updEvr, flash]

/-- The recorder as CLEAR empties it. -/
def emptied (s : State) : State := updEvr s (fun x =>
  { x with flash := [], pending := [], dropped := 0, frozen := false, frozenCnt := 0, frozenSev := 0 })

theorem clearRecorder_effect (c : Nat) (low : s.evr.minSev ≤ 2) (up : s.mgmt.bothDown = false) :
    (clearRecorder s c).evr.dropped = 0 ∧ (clearRecorder s c).evr.frozen = false ∧ (clearRecorder s c).evr.pending = [] ∧
    ∃ x, (clearRecorder s c).evr.flash = [x] ∧ x.event = 0xF1 ∧ x.seq = s.evr.seqNext := by
  have empty : Emptied (emptied s) := ⟨rfl, rfl, rfl⟩
  have stored : s.evr.minSev ≤ evSev 0x00F1 := low.trans (by decide)
  obtain ⟨x, event, seq, made⟩ := record_emptied empty up (ev := 0x00F1) stored (by decide) 7
    (if c = 0 then ucSpeush 0 else ucHost s.mgmt.owner) 0
    (leBytes 4 (s.evr.flash.length + s.evr.pending.length) ++ leBytes 4 s.evr.dropped ++
      leBytes 4 (if s.evr.frozen then s.evr.frozenCnt else 0) ++ leBytes 1 c)
  have run : clearRecorder s c = updEvr (flushEvents (record (emptied s) 7 (if c = 0 then ucSpeush 0 else ucHost s.mgmt.owner) 0
      0x00F1 (leBytes 4 (s.evr.flash.length + s.evr.pending.length) ++ leBytes 4 s.evr.dropped ++
        leBytes 4 (if s.evr.frozen then s.evr.frozenCnt else 0) ++ leBytes 1 c)))
      (fun x => { x with clearing := !x.pending.isEmpty }) := rfl
  have flushed := flushEvents_open (s := updEvr (emptied s) (fun r =>
    { r with flash := [x], pending := [], seqNext := (emptied s).evr.seqNext + 1 })) rfl up
  rw [run, made, flushed]
  exact ⟨rfl, rfl, rfl, x, rfl, event, seq⟩

/-! ### The lookup -/

theorem lookupRecord_hit {high q : Nat} {x : Event} (hq : (hport s h).rdSeq % 2 ^ 32 + 2 ^ 32 * high = q)
    (hit : (recordsInOrder (updHp s h (fun x => { x with rdSeq := q }))).find? (fun x =>
      decide (q ≤ x.seq) && mayRead (updHp s h (fun x => { x with rdSeq := q })) h x) = some x) :
    lookupRecord s h high = updHp (updHp s h (fun x => { x with rdSeq := q })) h (fun y => { y with
      rdRecord := x.bytes, rdStat := 1 + 4 * b2n (seqGap (updHp s h (fun x => { x with rdSeq := q })) q x.seq) }) := by
  subst hq
  simp only [lookupRecord, hit]

theorem lookupRecord_none {high q : Nat} (hq : (hport s h).rdSeq % 2 ^ 32 + 2 ^ 32 * high = q)
    (none_ : (recordsInOrder (updHp s h (fun x => { x with rdSeq := q }))).find? (fun x =>
      decide (q ≤ x.seq) && mayRead (updHp s h (fun x => { x with rdSeq := q })) h x) = none) :
    lookupRecord s h high =
      updHp (updHp s h (fun x => { x with rdSeq := q })) h (fun y => { y with rdStat := 8 }) := by
  subst hq
  simp only [lookupRecord, none_]

/-! ### The control word -/

/-- FREEZE and MINSEV. -/
def freezeField : RegFld :=
  fieldAt 0 1 .rw (fun s => b2n s.evr.frozen) (fun s v => if v = 1 then freezeRecorder s else endFreeze s)

/-- CLEAR. -/
def recorderClearField : RegFld := fieldAt 1 1 .wok (fun _ => 0) (fun s _ => clearRecorder s 1)

/-- MINSEV. -/
def minSevField : RegFld :=
  { fieldAt 2 2 .rw (fun s => s.evr.minSev) (fun s v => updEvr s (fun x => { x with minSev := v })) with range := within 0 2 }

theorem fieldsAt_recorder : fieldsAt h p 0x0100000 = [freezeField, recorderClearField, minSevField] := rfl

@[simp] theorem minSevField_val (v : Nat) : minSevField.val v = natFld v 2 2 := RegFld.val_eq (f := minSevField) rfl

/-- FREEZE written. -/
def freezeWritten (s : State) (a : Nat) : State := if a = 1 then freezeRecorder s else endFreeze s

theorem hitFields_recorderClear {v : Nat} (clears : natFld v 1 1 = 1) : hitFields v [freezeField, recorderClearField, minSevField] =
    [freezeField, recorderClearField, minSevField] := by
  simp [hitFields, freezeField, recorderClearField, hit_wok, hit_rw, clears, show minSevField.acc = .rw from rfl]

section
variable (can : CanWrite s h p) (owner : isOwner s h = true) {v a w : Nat} (freeze : natFld v 0 1 = a) (sev : natFld v 2 2 = w)
  (low : w ≤ 2)
include can owner freeze sev low

theorem writeWord_recorder (noClear : natFld v 1 1 = 0) :
    writeWord s h 0x0100000 v = updEvr (freezeWritten s a) (fun x => { x with minSev := w }) := by
  have hits : hitFields v [freezeField, recorderClearField, minSevField] = [freezeField, minSevField] := by
    simp [hitFields, freezeField, recorderClearField, hit_wok, hit_rw, noClear, show minSevField.acc = .rw from rfl]
  have live : liveFields (hport s h).armed v [freezeField, recorderClearField, minSevField] = [freezeField, minSevField] := by
    rw [liveFields, hits]
    simp [freezeField, keyed_rw, show minSevField.acc = .rw from rfl]
  rw [writeWord_fields can (by decide) (inRegScope_owner rfl owner), fieldsAt_recorder, writeFields_taken, live, keyRecorded, hits]
  · simp [freezeField, keyed_rw, show minSevField.acc = .rw from rfl, freeze, sev]
    rfl
  · rw [live]
    simp [freezeField, sev, show minSevField.range = within 0 2 from rfl, within, low]
    rfl

section
variable (clears : natFld v 1 1 = 1)
include clears

theorem writeWord_recorderClear (armed : (hport s h).armed = true) : writeWord s h 0x0100000 v =
    updEvr (clearRecorder (freezeWritten (keyTaken s h 0x0100000 v) a) 1) (fun x => { x with minSev := w }) := by
  have hits := hitFields_recorderClear clears
  have live : liveFields (hport s h).armed v [freezeField, recorderClearField, minSevField] =
      [freezeField, recorderClearField, minSevField] := by
    rw [liveFields, hits, armed]
    simp
  rw [writeWord_fields can (by decide) (inRegScope_owner rfl owner), fieldsAt_recorder, writeFields_taken, live, keyRecorded, hits,
    armed]
  · simp [freezeField, recorderClearField, keyed_wok, freeze, sev]
    rfl
  · rw [live]
    simp [freezeField, recorderClearField, sev, show minSevField.range = within 0 2 from rfl, within, low]
    rfl

theorem writeWord_recorderClear_unarmed (unarmed : (hport s h).armed = false) : writeWord s h 0x0100000 v =
    updEvr (freezeWritten (unarmedWrite s h 0x0100000 v) a) (fun x => { x with minSev := w }) := by
  have hits := hitFields_recorderClear clears
  have live : liveFields (hport s h).armed v [freezeField, recorderClearField, minSevField] = [freezeField, minSevField] := by
    rw [liveFields, hits, unarmed]
    simp [freezeField, recorderClearField, keyed_rw, keyed_wok, show minSevField.acc = .rw from rfl]
  rw [writeWord_fields can (by decide) (inRegScope_owner rfl owner), fieldsAt_recorder, writeFields_taken, live, keyRecorded, hits,
    unarmed]
  · simp [freezeField, recorderClearField, keyed_wok, freeze, sev]
    rfl
  · rw [live]
    simp [freezeField, sev, show minSevField.range = within 0 2 from rfl, within, low]
    rfl

end

end

theorem clearWord (open_ : s.evr.frozen = false) : writeWord s h 0x0100000 (b2n s.evr.frozen + 2 + 4 * s.evr.minSev) =
    writeWord s h 0x0100000 (2 + 4 * s.evr.minSev) := by
  rw [open_, show b2n false = 0 from rfl, Nat.zero_add]

theorem updEvr_minSev_self {s : State} {w : Nat} (same : s.evr.minSev = w) : updEvr s (fun x => { x with minSev := w }) = s := by
  subst same
  rfl

theorem recorderBits {v a c w : Nat} (hv : v = a + 2 * c + 4 * w) (ha : a ≤ 1) (hc : c ≤ 1) (hw : w ≤ 2) :
    natFld v 0 1 = a ∧ natFld v 1 1 = c ∧ natFld v 2 2 = w := by
  subst hv
  unfold natFld
  omega

end

/-- Settles O55. -/
theorem eventRecorder : Obligations.EventRecorder := by
  unfold Obligations.EventRecorder
  intro s h p high can
  have hawake := can.awake
  refine ⟨fun open_ up => done_next hawake (flushEvents_open open_ up), fun frozen => done_next hawake (flushEvents_frozen frozen),
    fun q u o c d frozen => recordE_frozen frozen q u o c d false, fun open_ => done_next hawake (endFreeze_open open_),
    fun frozen => ⟨done_next hawake rfl, endFreeze_ends⟩, fun owner low => ⟨fun open_ => ⟨?_, ?_⟩, fun frozen => ⟨?_, ?_⟩,
    fun open_ armed => ?_, fun unarmed open_ => ?_⟩, fun c low up => clearRecorder_effect c low up, fun x hit => ?_, fun none_ => ?_⟩
  · obtain ⟨freeze, clears, sev⟩ := recorderBits (v := 1 + 4 * s.evr.minSev) (a := 1) (c := 0) (by omega) (by decide) (by decide) low
    refine done_next hawake ((writeWord_recorder can owner freeze sev low clears).trans ?_)
    rw [freezeWritten, if_pos rfl, freezeRecorder_open open_]
    exact updEvr_minSev_self rfl
  · obtain ⟨freeze, clears, sev⟩ := recorderBits (v := 4 * s.evr.minSev) (a := 0) (c := 0) (by omega) (by decide) (by decide) low
    refine done_next hawake ((writeWord_recorder can owner freeze sev low clears).trans ?_)
    rw [freezeWritten, if_neg (by decide), endFreeze_open open_]
    exact updEvr_minSev_self rfl
  · obtain ⟨freeze, clears, sev⟩ := recorderBits (v := 1 + 4 * s.evr.minSev) (a := 1) (c := 0) (by omega) (by decide) (by decide) low
    refine done_next hawake ((writeWord_recorder can owner freeze sev low clears).trans ?_)
    rw [freezeWritten, if_pos rfl, freezeRecorder_frozen frozen]
    exact updEvr_minSev_self rfl
  · obtain ⟨freeze, clears, sev⟩ := recorderBits (v := 4 * s.evr.minSev) (a := 0) (c := 0) (by omega) (by decide) (by decide) low
    refine done_next hawake ((writeWord_recorder can owner freeze sev low clears).trans ?_)
    rw [freezeWritten, if_neg (by decide)]
  · obtain ⟨freeze, clears, sev⟩ := recorderBits (v := 2 + 4 * s.evr.minSev) (a := 0) (c := 1) (by omega) (by decide) (by decide) low
    refine done_next hawake (((clearWord open_).trans (writeWord_recorderClear can owner freeze sev low clears armed)).trans ?_)
    rw [freezeWritten, if_neg (by decide)]
  · obtain ⟨freeze, clears, sev⟩ := recorderBits (v := 2 + 4 * s.evr.minSev) (a := 0) (c := 1) (by omega) (by decide) (by decide) low
    refine done_next hawake (((clearWord open_).trans (writeWord_recorderClear_unarmed can owner freeze sev low clears
      unarmed)).trans ?_)
    rw [freezeWritten, if_neg (by decide), unarmedWrite]
  · exact done_next hawake ((hostWrite_ready can.hostCan can.isReady).trans (lookupRecord_hit rfl hit))
  · exact done_next hawake ((hostWrite_ready can.hostCan can.isReady).trans (lookupRecord_none rfl none_))

end Sys2Proof.Machine
end

section
/-! The Speush mailbox and the SVN fuses (15 R453, R457, R458; 17 R491). -/

namespace Sys2Proof.Machine

section
variable {s : State} {h p : Nat}

/-! ### MB_GO -/

theorem mbGo_busy (busy : (hport s h).mailbox.busy = true) : mbGo s h = writeIgnored s h 0x0000108 1 4 := if_pos busy

section
variable (idle : (hport s h).mailbox.busy = false)
include idle

theorem mbGo_down (down : speushUp s = false) : mbGo s h = mbResult s h 1 [] := by
  rw [mbGo, if_neg (Bool.eq_false_iff.1 idle), if_pos (by rw [down]; rfl)]

variable (up : speushUp s = true)
include up

theorem mbGo_runs : mbGo s h = mbCommand s h := by
  rw [mbGo, if_neg (Bool.eq_false_iff.1 idle), if_neg (by simp [up])]

theorem mbGo_unknown (unknown : (hport s h).mailbox.cmd < 0x0101 ∨ 0x0105 < (hport s h).mailbox.cmd) :
    mbGo s h = mbResult s h 3 [] := (mbGo_runs idle up).trans (if_pos unknown)

section
variable (known : 0x0101 ≤ (hport s h).mailbox.cmd ∧ (hport s h).mailbox.cmd ≤ 0x0105)
include known

theorem mbGo_refused (other : isOwner s h = false) : mbGo s h = mbResult s h 2 [] := by
  rw [mbGo_runs idle up, mbCommand, if_neg (by omega), if_pos (by simp [other])]

end

/-- The command that a code names. -/
def mbRun (s : State) (h : Nat) : Nat → State
  | 0x0101 => mbChunk s h
  | 0x0102 => mbVerify s h
  | 0x0103 => mbActivate s h
  | 0x0104 => mbResult (commitSvn s) h 0 []
  | _ => mbDumpRead s h

theorem mbGo_owner (owner : isOwner s h = true) {c : Nat} (cmd : (hport s h).mailbox.cmd = c) (known : 0x0101 ≤ c ∧ c ≤ 0x0105) :
    mbGo s h = mbRun s h c := by
  subst cmd
  rw [mbGo_runs idle up, mbCommand, if_neg (by omega), if_neg (by simp [owner])]
  rfl

end

/-! ### The commands -/

theorem mbChunk_written (four : 4 ≤ (hport s h).mailbox.len)
    (fits : leNat (mbReq s h 0 4) + (mbReq s h 4 ((hport s h).mailbox.len - 4)).length ≤ 80 * 2 ^ 20)
    (power : s.pins.pwrfail = false) : mbChunk s h =
      mbResult (updMgmt s (fun y => { y with fw := mset y.fw {} (1 - s.mgmt.slot) { mget y.fw {} (1 - s.mgmt.slot) with
        factory := false, verified := false
        bytes := (mbReq s h 4 ((hport s h).mailbox.len - 4)).zipIdx.foldl
          (fun m c => mput m (leNat (mbReq s h 0 4) + c.2) c.1) (mget y.fw {} (1 - s.mgmt.slot)).bytes } })) h 0 [] := by
  rw [mbChunk, if_neg (by omega), if_neg (Bool.eq_false_iff.1 power)]
  rfl

theorem mbChunk_outside (outside : (hport s h).mailbox.len < 4 ∨
    80 * 2 ^ 20 < leNat (mbReq s h 0 4) + (mbReq s h 4 ((hport s h).mailbox.len - 4)).length) :
    mbChunk s h = mbResult s h 3 [] := if_pos outside

theorem commitSvn_keeps (b : Nat) (set : s.fuses.svnMin.getLsbD b = true) : (commitSvn s).fuses.svnMin.getLsbD b = true := by
  simp [commitSvn, set]

theorem commitSvn_raises (b : Nat) (hb : b < 64) (below : b < s.mgmt.svn) : (commitSvn s).fuses.svnMin.getLsbD b = true := by
  show (s.fuses.svnMin ||| BitVec.ofNat 64 (2 ^ s.mgmt.svn - 1)).getLsbD b = true
  rw [BitVec.getLsbD_or, BitVec.getLsbD_ofNat, Nat.testBit_two_pow_sub_one]
  simp [hb, below]

/-! ### The rows -/

theorem mbRow_goes (can : CanWrite s h p) {c : Nat} (cmd : (hport s h).mailbox.cmd = c ∨
    (hport s h).mailbox.cmd < 0x0101 ∨ 0x0105 < (hport s h).mailbox.cmd) : mbRow s h c = mbGo s h :=
  (if_pos cmd).trans (hostWrite_ready can.hostCan can.isReady)

end

/-- The mailbox rows with their codes. -/
noncomputable def mailboxRows (h : HostId) : List (Instr × Nat) :=
  [(Instr.fwChunk h, 0x0101), (.fwVerify h, 0x0102), (.fwActivate h, 0x0103), (.mbSvnCommit h, 0x0104), (.dumpRead h, 0x0105)]

theorem exec_mailboxRow (s : State) (h : HostId) : ∀ r ∈ mailboxRows h, exec r.1 s = done s (mbRow s h r.2) := by
  simp only [mailboxRows, List.forall_mem_cons, List.not_mem_nil, false_imp_iff, implies_true, and_true]
  exact ⟨rfl, rfl, rfl, rfl, rfl⟩

theorem code_mailboxRow (h : HostId) : ∀ r ∈ mailboxRows h, 0x0101 ≤ r.2 ∧ r.2 ≤ 0x0105 := by
  simp [mailboxRows]

theorem ends_mailboxRow {s u : State} {h : HostId} {p : Nat} (can : CanWrite s h p) (r : Instr × Nat) (row : r ∈ mailboxRows h)
    (cmd : (hport s h).mailbox.cmd = r.2 ∨ (hport s h).mailbox.cmd < 0x0101 ∨ 0x0105 < (hport s h).mailbox.cmd)
    (e : mbGo s h = u) : Ends r.1 s u :=
  (exec_mailboxRow s h r row).trans (done_next can.awake ((mbRow_goes can cmd).trans e))

/-- Settles O54. -/
theorem mailbox : Obligations.Mailbox := by
  unfold Obligations.Mailbox
  intro s h p can
  refine ⟨fun r row cmd => ?_, fun idle up owner => ?_, commitSvn_keeps, commitSvn_raises⟩
  · obtain ⟨lo, hi⟩ := code_mailboxRow h r row
    have go {u : State} (e : mbGo s h = u) : Ends r.1 s u := ends_mailboxRow can r row (.inl cmd) e
    exact ⟨fun busy => go (mbGo_busy busy), fun idle down => go (mbGo_down idle down),
      fun idle up other => go (mbGo_refused idle up (by omega) other)⟩
  · have run {c : Nat} {i : Instr} {u : State} (row : (i, c) ∈ mailboxRows h) (cmd : (hport s h).mailbox.cmd = c)
        (e : mbRun s h c = u) : Ends i s u :=
      ends_mailboxRow can (i, c) row (.inl cmd) ((mbGo_owner idle up owner cmd (code_mailboxRow h _ row)).trans e)
    refine ⟨fun cmd four fits power => run (by simp [mailboxRows]) cmd (mbChunk_written four fits power),
      fun cmd outside => run (by simp [mailboxRows]) cmd (mbChunk_outside outside),
      fun unknown r row => ends_mailboxRow can r row (.inr unknown) (mbGo_unknown idle up unknown),
      fun cmd ok => run (by simp [mailboxRows]) cmd (if_pos ok), fun cmd bad => run (by simp [mailboxRows]) cmd (if_neg bad),
      fun cmd verified => run (by simp [mailboxRows]) cmd (if_pos verified),
      fun cmd unverified => run (by simp [mailboxRows]) cmd (if_neg (Bool.eq_false_iff.1 unverified)),
      fun cmd => run (by simp [mailboxRows]) cmd rfl,
      fun cmd few inside => run (by simp [mailboxRows]) cmd (if_neg (by omega)),
      fun cmd outside => run (by simp [mailboxRows]) cmd (if_pos outside)⟩

end Sys2Proof.Machine
end

section
/-! Management frames and the Speush controllers (15 R439 to R446, R450). -/

namespace Sys2Proof.Machine

section
variable {s : State} {m : Nat} {f : Frame}

/-! ### Frames sent -/

theorem sendFrame_up (up : mget s.mgmt.mup 0 m = 1 ∧ speushUp s = true) (t : Nat) (b : Bytes) :
    (sendFrame s m t 0xFF b).out = s.out ++ [.frame m (frameHeader s m t 0xFF b.length ++ b)] ∧
    mget (sendFrame s m t 0xFF b).mgmt.txSeq 0 m = mget s.mgmt.txSeq 0 m + 1 := by
  rw [sendFrame, if_pos up]
  exact ⟨rfl, mget_mset_same ..⟩

theorem sendFrame_down (down : mget s.mgmt.mup 0 m ≠ 1) (t : Nat) (b : Bytes) : sendFrame s m t 0xFF b = s :=
  if_neg fun ⟨up, _⟩ => down up

theorem sendTelemetry_down (down : mget s.mgmt.mup 0 m ≠ 1) : sendTelemetry s m = s := if_neg fun ⟨up, _⟩ => down up

/-! ### Frames received -/

section
variable {t : Nat} {k : State → State}

theorem frameIn_refused (refused : macAccepts s m f = false) : frameIn s m f t k = s := if_pos (by rw [refused]; rfl)

theorem frameIn_dropped (accepted : macAccepts s m f = true) (bad : f.version ≠ 1 ∨ listedFrame (frameType f) = false) :
    frameIn s m f t k = updMgmt s (fun x => { x with drop := min (x.drop + 1) (2 ^ 32 - 1) }) := by
  rw [frameIn, if_neg (by simp [accepted]), if_pos (by simpa using bad)]

theorem frameIn_taken (accepted : macAccepts s m f = true) (version : f.version = 1) (type : frameType f = t)
    (listed : listedFrame t = true) : frameIn s m f t k = k s := by
  subst type
  rw [frameIn, if_neg (by simp [accepted]), if_neg (by simp [version, listed]), if_pos rfl]

end

/-- The rows of received frames, each with its type and what it does. -/
theorem exec_frameRow {m : MgmtId} {f : Frame} : ∀ i ∈ [Instr.mgrHb m f, .stoppressFrame m f, .eventReq m f, .strike m f,
    .readmit m f, .freezeLift m f, .dump m f, .mgmtReset m f, .takeover m f, .bootPref m f, .owner m f],
    ∃ t k, ∀ s, exec i s = done s (frameIn s m f t k) := by
  simp only [List.forall_mem_cons, List.not_mem_nil, false_imp_iff, implies_true, and_true]
  exact ⟨⟨_, _, fun _ => rfl⟩, ⟨_, _, fun _ => rfl⟩, ⟨_, _, fun _ => rfl⟩, ⟨_, _, fun _ => rfl⟩, ⟨_, _, fun _ => rfl⟩,
    ⟨_, _, fun _ => rfl⟩, ⟨_, _, fun _ => rfl⟩, ⟨_, _, fun _ => rfl⟩, ⟨_, _, fun _ => rfl⟩, ⟨_, _, fun _ => rfl⟩,
    ⟨_, _, fun _ => rfl⟩⟩

/-! ### Controllers -/

theorem mgmtSilent_lost {p late : Nat} (hlate : s.mgmt.hbTime.foldl (fun a c => max a c.2) 0 = late) (active : stepActive s p = true)
    (first : s.mgmt.lost.contains p = false) (silent : late + 64000000 ≤ uptimeNs s) : mgmtSilent s p =
      raise (updMgmt s (fun x => { x with lost := sins x.lost p })) p 0x1D none (ucSpeush 0) := by
  subst hlate
  exact if_pos ⟨active, by rw [first]; rfl, silent⟩

theorem mgmtSilent_heard {p late : Nat} (hlate : s.mgmt.hbTime.foldl (fun a c => max a c.2) 0 = late)
    (heard : uptimeNs s < late + 64000000) : mgmtSilent s p = s := by
  subst hlate
  exact if_neg fun ⟨_, _, silent⟩ => absurd silent (Nat.not_le.2 heard)

theorem takeOver_standby {n : Nat} (ok : s.mgmt.standbyOk = true) : takeOver s n =
    record (updMgmt s (fun m => { m with primary := 1 - m.primary, standbyOk := false, beats := 0 })) 7 (ucSpeush 0) 0 0x0070
      (leBytes 1 s.mgmt.primary ++ leBytes 4 n) := if_pos ok

theorem takeOver_none {n : Nat} (none_ : s.mgmt.standbyOk = false) :
    takeOver s n = driveFault (updMgmt s (fun m => { m with bothDown := true })) := if_neg (Bool.eq_false_iff.1 none_)

theorem standbyBack_ok {b : Bool} (ok : s.mgmt.standbyOk = true) : standbyBack s b = s := if_pos (by rw [ok]; rfl)

section
variable (up : speushUp s = true) (gone : s.mgmt.standbyOk = false)
include up gone

theorem standbyBack_booted : standbyBack s true = updMgmt s (fun m => { m with standbyOk := true }) :=
  (if_neg (by simpa [gone, speushUp] using up)).trans (if_pos rfl)

theorem standbyBack_failed : standbyBack s false = stickySpeush s :=
  (if_neg (by simpa [gone, speushUp] using up)).trans (if_neg Bool.false_ne_true)

end

end

/-- Settles O52. -/
theorem managementFrames : Obligations.ManagementFrames := by
  unfold Obligations.ManagementFrames
  intro s m f p n req hawake
  refine ⟨done_next hawake rfl, fun stage => done_next hawake (if_neg stage), fun stage => done_next hawake (if_pos stage),
    done_next hawake rfl, ⟨fun up t b => sendFrame_up up t b, fun down t b => ⟨sendFrame_down down t b, sendTelemetry_down down⟩⟩,
    fun refused r row => ?_, fun accepted bad r row => ?_, fun accepted version => ⟨fun type => ?_, fun type up ready => ?_,
      fun type up ready => ?_⟩, fun some_ active first silent => ?_, fun heard => ?_, fun up ok => ?_, fun up none_ => ?_,
    fun up none_ => ⟨?_, ?_⟩, fun ok b => ?_, done_next hawake rfl, done_next hawake rfl, fun up => ?_, fun up => ?_⟩
  · obtain ⟨t, k, row⟩ := exec_frameRow r row
    exact (row s).trans (done_next hawake (frameIn_refused refused))
  · obtain ⟨t, k, row⟩ := exec_frameRow r row
    exact (row s).trans (done_next hawake (frameIn_dropped accepted bad))
  · exact done_next hawake (frameIn_taken accepted version type rfl)
  · exact done_next hawake ((frameIn_taken accepted version type rfl).trans (if_pos (by simp [speushTakes, up, ready])))
  · exact done_next hawake ((frameIn_taken accepted version type rfl).trans (if_pos (by simp [speushTakes, up, ready])))
  · exact done_next hawake ((if_pos some_).trans (mgmtSilent_lost rfl active first silent))
  · refine done_next hawake ?_
    rw [mgmtSilent_heard rfl heard]
    exact ite_self s
  · exact done_next hawake ((if_pos up).trans (takeOver_standby ok))
  · exact done_next hawake ((if_pos up).trans (takeOver_none none_))
  · exact done_next hawake (standbyBack_booted up none_)
  · exact done_next hawake (standbyBack_failed up none_)
  · exact done_next hawake (standbyBack_ok ok)
  · exact done_next hawake (if_pos up)
  · exact done_next hawake (if_pos up)

end Sys2Proof.Machine
end

section
/-! Management commands (15 R447 to R449). -/

namespace Sys2Proof.Machine

section
variable {s : State} {m c : Nat} {f : Frame} {argsOk stateOk : State → Bytes → Bool} {effect : State → Bytes → State}

/-- A command frame of code `c` reaches a controller that takes it. -/
structure Commands (s : State) (m : Nat) (f : Frame) (c : Nat) : Prop where
  accepted : macAccepts s m f = true
  version : f.version = 1
  type : frameType f = 0x10
  takes : speushTakes s = true
  code : leAt (frameBody f) 0 2 = c
  listed : 1 ≤ c ∧ c ≤ 8

/-- What an accepted command leaves before its effect. -/
def commandTaken (s : State) (m : Nat) (f : Frame) (c : Nat) : State :=
  respond (record (updMgmt s (fun x => { x with ctr := cmdCtr (frameBody f) })) 7 (ucSpeush 0) (operMgmt c) 0x0072
    (leBytes 2 c ++ leBytes 8 (cmdCtr (frameBody f)) ++ leBytes 1 0)) m c (cmdCtr (frameBody f)) 0

section
variable (cmd : Commands s m f c)
include cmd

theorem command_noKey (noKey : allZero (mgmtKey s) = true) :
    command s m f c argsOk stateOk effect = respond s m c (cmdCtr (frameBody f)) 2 := by
  obtain ⟨accepted, version, type, takes, code, listed⟩ := cmd
  unfold command
  rw [frameIn_taken accepted version type rfl]
  simp [takes, code, noKey]

section
variable (key : allZero (mgmtKey s) = false)
include key

theorem command_badTag (bad : tagOk s f = false) : command s m f c argsOk stateOk effect = authFailed s := by
  obtain ⟨accepted, version, type, takes, code, listed⟩ := cmd
  unfold command
  rw [frameIn_taken accepted version type rfl]
  simp [takes, code, key, bad]

section
variable (tag : tagOk s f = true)
include tag

theorem command_old (old : cmdCtr (frameBody f) ≤ s.mgmt.ctr) :
    command s m f c argsOk stateOk effect = respond s m c (cmdCtr (frameBody f)) 3 := by
  obtain ⟨accepted, version, type, takes, code, listed⟩ := cmd
  unfold command
  rw [frameIn_taken accepted version type rfl]
  simp [takes, code, key, tag, old]

section
variable (new : s.mgmt.ctr < cmdCtr (frameBody f))
include new

theorem command_reserved (bad : zeroRange (frameBody f) 2 4 = false) :
    command s m f c argsOk stateOk effect = respond s m c (cmdCtr (frameBody f)) 4 := by
  obtain ⟨accepted, version, type, takes, code, listed⟩ := cmd
  unfold command
  rw [frameIn_taken accepted version type rfl]
  simp [takes, code, key, tag, Nat.not_le.2 new, bad]

end

end

end

end

/-- A command whose key, tag, counter and reserved bytes pass. -/
structure Passes (s : State) (m : Nat) (f : Frame) (c : Nat) : Prop extends Commands s m f c where
  key : allZero (mgmtKey s) = false
  tag : tagOk s f = true
  new : s.mgmt.ctr < cmdCtr (frameBody f)
  zero2 : zeroRange (frameBody f) 2 4 = true
  zero12 : zeroRange (frameBody f) 12 16 = true

section
variable (cmd : Passes s m f c)
include cmd

theorem command_badArgs (bad : argsOk s (cmdArgs (frameBody f)) = false) :
    command s m f c argsOk stateOk effect = respond s m c (cmdCtr (frameBody f)) 4 := by
  obtain ⟨⟨accepted, version, type, takes, code, listed⟩, key, tag, new, zero2, zero12⟩ := cmd
  unfold command
  rw [frameIn_taken accepted version type rfl]
  simp [takes, code, key, tag, Nat.not_le.2 new, bad]

section
variable (args : argsOk s (cmdArgs (frameBody f)) = true)
include args

theorem command_badState (bad : stateOk s (cmdArgs (frameBody f)) = false) :
    command s m f c argsOk stateOk effect = respond s m c (cmdCtr (frameBody f)) 5 := by
  obtain ⟨⟨accepted, version, type, takes, code, listed⟩, key, tag, new, zero2, zero12⟩ := cmd
  unfold command
  rw [frameIn_taken accepted version type rfl]
  simp [takes, code, key, tag, Nat.not_le.2 new, args, bad, zero2, zero12, listed]

theorem command_taken (ok : stateOk s (cmdArgs (frameBody f)) = true) :
    command s m f c argsOk stateOk effect = effect (commandTaken s m f c) (cmdArgs (frameBody f)) := by
  obtain ⟨⟨accepted, version, type, takes, code, listed⟩, key, tag, new, zero2, zero12⟩ := cmd
  unfold command
  rw [frameIn_taken accepted version type rfl]
  simp [takes, code, key, tag, Nat.not_le.2 new, args, ok, zero2, zero12, listed]
  rfl

end

end

end

/-- The command rows with their codes. -/
noncomputable def commandRows (m : MgmtId) (f : Frame) : List (Instr × Nat) :=
  [(Instr.strike m f, 1), (.readmit m f, 2), (.freezeLift m f, 3), (.dump m f, 4), (.mgmtReset m f, 5), (.takeover m f, 6),
    (.bootPref m f, 7), (.owner m f, 8)]

theorem exec_commandRow {m : MgmtId} {f : Frame} : ∀ r ∈ commandRows m f, (1 ≤ r.2 ∧ r.2 ≤ 8) ∧
    ∃ argsOk stateOk effect, ∀ s, exec r.1 s = done s (command s m f r.2 argsOk stateOk effect) := by
  simp only [commandRows, List.forall_mem_cons, List.not_mem_nil, false_imp_iff, implies_true, and_true]
  exact ⟨⟨by decide, _, _, _, fun _ => rfl⟩, ⟨by decide, _, _, _, fun _ => rfl⟩, ⟨by decide, _, _, _, fun _ => rfl⟩,
    ⟨by decide, _, _, _, fun _ => rfl⟩, ⟨by decide, _, _, _, fun _ => rfl⟩, ⟨by decide, _, _, _, fun _ => rfl⟩,
    ⟨by decide, _, _, _, fun _ => rfl⟩, ⟨by decide, _, _, _, fun _ => rfl⟩⟩

/-- What FREEZE_LIFT checks of its arguments. -/
def liftArgs (s : State) (a : Bytes) : Bool :=
  match natFld (leAt a 0 2) 12 4 with
  | 1 => decide (natFld (leAt a 0 2) 0 12 < 4)
  | 2 => decide (natFld (leAt a 0 2) 0 12 < 64) && (hpPart s (leAt a 2 1)).isSome
  | 3 => decide (natFld (leAt a 0 2) 0 12 < 120)
  | _ => false

theorem liftArgs_ok {s : State} {a : Bytes} {kind idx : Nat} (hkind : natFld (leAt a 0 2) 12 4 = kind)
    (hidx : natFld (leAt a 0 2) 0 12 = idx)
    (named : (kind = 1 ∧ idx < 4) ∨ (kind = 2 ∧ idx < 64 ∧ hpPart s (leAt a 2 1) ≠ none) ∨ (kind = 3 ∧ idx < 120)) :
    liftArgs s a = true := by
  unfold liftArgs
  rw [hkind, hidx]
  rcases named with ⟨rfl, small⟩ | ⟨rfl, small, some_⟩ | ⟨rfl, small⟩
  · exact decide_eq_true small
  · exact Bool.and_eq_true_iff.2 ⟨decide_eq_true small, Option.isSome_iff_ne_none.2 some_⟩
  · exact decide_eq_true small

theorem liftArgs_bad {s : State} {a : Bytes} (none_ : natFld (leAt a 0 2) 12 4 = 0) : liftArgs s a = false := by
  unfold liftArgs
  rw [none_]
  rfl

section
variable {s : State} {a : Bytes}

theorem strikeArgs_ok (some_ : partExists s (leAt a 0 1) = true) (zero : zeroRange a 1 2 = true) (lo : 1 ≤ leAt a 2 2)
    (hi : leAt a 2 2 ≤ 1018) (fits : 4 + 2 * leAt a 2 2 ≤ a.length) :
    (partExists s (leAt a 0 1) && zeroRange a 1 2 && decide (1 ≤ leAt a 2 2) && decide (leAt a 2 2 ≤ 1018) &&
      decide (4 + 2 * leAt a 2 2 ≤ a.length)) = true := by
  rw [some_, zero, decide_eq_true lo, decide_eq_true hi, decide_eq_true fits]
  rfl

theorem resetArgs_ok (named : partExists s (leAt a 0 1) = true ∨ leAt a 0 1 = 4 ∨ leAt a 0 1 = 5) (plan : leAt a 1 1 < 2) :
    ((partExists s (leAt a 0 1) || leAt a 0 1 == 4 || leAt a 0 1 == 5) && decide (leAt a 1 1 < 2)) = true := by
  simpa [plan, or_assoc] using named

theorem resetArgs_bad (above : 5 < leAt a 0 1) :
    ((partExists s (leAt a 0 1) || leAt a 0 1 == 4 || leAt a 0 1 == 5) && decide (leAt a 1 1 < 2)) = false := by
  have few : nparts s ≤ 4 := by unfold nparts; split <;> [decide; (split <;> decide)]
  have absent : partExists s (leAt a 0 1) = false := decide_eq_false (by omega)
  have four : leAt a 0 1 ≠ 4 := by omega
  have five : leAt a 0 1 ≠ 5 := by omega
  simp [absent, four, five]

end

theorem resetBy_warm {s : State} {planned : Bool} : resetBy s 4 planned = resetWarm s (ucSpeush 0) 5 3 planned := by
  rw [resetBy, if_neg (by decide), if_pos rfl]

theorem resetBy_cold {s : State} {planned : Bool} : resetBy s 5 planned = coldNow s (ucSpeush 0) 5 3 planned := by
  rw [resetBy, if_neg (by decide), if_neg (by decide)]

/-- Settles O53. -/
theorem managementCommands : Obligations.ManagementCommands := by
  unfold Obligations.ManagementCommands
  intro s m f bs a ctr part n kind idx refused accepted rows hawake accepts version type takes
  have commands {c : Nat} (code : leAt bs 0 2 = c) (listed : 1 ≤ c ∧ c ≤ 8) : Commands s m f c :=
    ⟨accepts, version, type, takes, code, listed⟩
  refine ⟨fun r row code => ?_, fun key tag new zero2 zero12 => ?_⟩
  · obtain ⟨listed, argsOk, stateOk, effect, run⟩ := exec_commandRow r row
    have cmd := commands code listed
    exact ⟨fun noKey => (run s).trans (done_next hawake (command_noKey cmd noKey)),
      fun key bad => (run s).trans (done_next hawake (command_badTag cmd key bad)),
      fun key tag old => (run s).trans (done_next hawake (command_old cmd key tag old)),
      fun key tag new bad => (run s).trans (done_next hawake (command_reserved cmd key tag new bad))⟩
  · have passes {c : Nat} (code : leAt bs 0 2 = c) (listed : 1 ≤ c ∧ c ≤ 8) : Passes s m f c :=
      ⟨commands code listed, key, tag, new, zero2, zero12⟩
    refine ⟨fun code some_ zero lo hi fits => ⟨fun open_ alive => ?_, fun off => ?_⟩, fun code => ?_,
      fun code named => ⟨fun frozen => ?_, fun thawed => ?_⟩, fun code none_ => ?_, fun code => ?_,
      fun code plan => ⟨fun small some_ => ?_, fun four => ?_, fun five => ?_, fun above => ?_⟩,
      fun code => ⟨fun ok => ?_, fun gone => ?_⟩, fun code => ⟨fun small => ?_, fun big => ?_⟩,
      fun code => ⟨fun small => ?_, fun big => ?_⟩⟩
    · refine done_next hawake (command_taken (passes code (by decide)) (strikeArgs_ok some_ zero lo hi fits) ?_)
      exact Bool.and_eq_true_iff.2 ⟨bne_iff_ne.2 open_, bne_iff_ne.2 alive⟩
    · refine done_next hawake (command_badState (passes code (by decide)) (strikeArgs_ok some_ zero lo hi fits) ?_)
      exact Bool.and_eq_false_iff.2 (.inl (bne_eq_false_iff_eq.2 off))
    · exact done_next hawake (command_taken (passes code (by decide)) rfl rfl)
    · exact done_next hawake (command_taken (passes code (by decide)) (liftArgs_ok rfl rfl named) frozen)
    · exact done_next hawake (command_badState (passes code (by decide)) (liftArgs_ok rfl rfl named) thawed)
    · exact done_next hawake (command_badArgs (passes code (by decide)) (liftArgs_bad none_))
    · exact done_next hawake (command_taken (passes code (by decide)) rfl rfl)
    · refine done_next hawake ((command_taken (passes code (by decide)) (resetArgs_ok (.inl some_) plan) rfl).trans ?_)
      exact if_pos small
    · refine done_next hawake ((command_taken (passes code (by decide)) (resetArgs_ok (.inr (.inl four)) plan) rfl).trans ?_)
      exact (congrArg (resetBy _ · _) four).trans resetBy_warm
    · refine done_next hawake ((command_taken (passes code (by decide)) (resetArgs_ok (.inr (.inr five)) plan) rfl).trans ?_)
      exact (congrArg (resetBy _ · _) five).trans resetBy_cold
    · exact done_next hawake (command_badArgs (passes code (by decide)) (resetArgs_bad above))
    · exact ⟨_, _, rfl, done_next hawake (command_taken (passes code (by decide)) rfl ok)⟩
    · exact done_next hawake (command_badState (passes code (by decide)) rfl gone)
    · exact done_next hawake (command_taken (passes code (by decide)) (decide_eq_true small) rfl)
    · exact done_next hawake (command_badArgs (passes code (by decide)) (decide_eq_false (Nat.not_lt.2 big)))
    · exact done_next hawake (command_taken (passes code (by decide)) (decide_eq_true small) rfl)
    · exact done_next hawake (command_badArgs (passes code (by decide)) (decide_eq_false (Nat.not_lt.2 big)))


end Sys2Proof.Machine
end

section
/-! The power and thermal loops (14 R421, R422, R425 to R437). -/

namespace Sys2Proof.Machine

section
variable {s : State}

/-! ### Operating points and VCORE -/

theorem calibrate_silent (silent : s.power.silent = true) (m e : Nat) : calibrate s m e = s := if_pos silent

theorem calibrate_heard (heard : s.power.silent = false) {m e : Nat} (he : e ≠ 0) :
    calibrate s m e = updPower { s with freeCtr := s.freeCtr + 1 } (fun x => { x with
      gain := min (max ((s.power.gain : Int) + (16384 * ((m : Int) - e)) / (8 * e : Nat)) 0x3000).toNat 0x5000 }) := by
  rw [calibrate, if_neg (Bool.eq_false_iff.1 heard)]
  simp only [fresh, he, if_false]
  rfl

section
variable {p : Nat}

theorem opDown_steps (high : 16 * (leadSum s p).2 < (leadSum s p).1) :
    opDown s p = updPart s p (fun x => { x with opCap := opInForce s p - 1 }) := if_pos high

theorem opDown_stays (low : (leadSum s p).1 ≤ 16 * (leadSum s p).2) : opDown s p = s := if_neg (Nat.not_lt.2 low)

theorem opUp_steps (none_ : (leadSum s p).1 = 0) (below : (part s p).opCap < opRequested s p) :
    opUp s p = updPart s p (fun x => { x with opCap := x.opCap + 1 }) := if_pos ⟨none_, below⟩

theorem opUp_stays (stays : (leadSum s p).1 ≠ 0 ∨ opRequested s p ≤ (part s p).opCap) : opUp s p = s :=
  if_neg fun ⟨none_, below⟩ => stays.elim (absurd none_) (Nat.not_le.2 below)

end

section
variable {mv : Nat}

theorem vcoreSettled_near (raising : s.power.raising = true) (acked : s.power.avsPending = false)
    (above : mv ≤ s.power.target + 10) (below : s.power.target ≤ mv + 10) :
    vcoreSettled s (some mv) = updPower s (fun x => { x with meas := mv, raising := false }) := by
  simp [vcoreSettled, updPower, raising, acked, above, below]

theorem vcoreSettled_far (far : s.power.target + 10 < mv ∨ mv + 10 < s.power.target) :
    vcoreSettled s (some mv) = updPower s (fun x => { x with meas := mv }) := by
  have off : ¬ (mv ≤ s.power.target + 10 ∧ s.power.target ≤ mv + 10) := by omega
  have near : (decide (mv ≤ s.power.target + 10) && decide (s.power.target ≤ mv + 10)) = false := by
    simpa using off
  refine if_neg ?_
  show ¬ (s.power.raising && (decide (mv ≤ s.power.target + 10) && decide (s.power.target ≤ mv + 10)) && !s.power.avsPending) = true
  simp [near]

theorem vcoreSettled_late (raising : s.power.raising = true) (acked : s.power.avsPending = false) :
    vcoreSettled s none = updPower s (fun x => { x with raising := false }) := by
  simp [vcoreSettled, raising, acked]

end

/-! ### Sensors -/

/-- A state whose power loops differ in their sticky bits alone. -/
def PowerSticky (s t : State) : Prop := t.power = { s.power with stat := t.power.stat } ∧
  regF t .dev 0x0080018 0 8 = regF s .dev 0x0080018 0 8

theorem PowerSticky.refl (s : State) : PowerSticky s s := ⟨rfl, rfl⟩

theorem PowerSticky.trans {s t u : State} (a : PowerSticky s t) (b : PowerSticky t u) : PowerSticky s u := by
  obtain ⟨ap, ar⟩ := a
  obtain ⟨bp, br⟩ := b
  refine ⟨?_, br.trans ar⟩
  rw [bp, ap]

theorem Reports.power {s t : State} (r : Reports s t) : t.power = s.power := by rw [r.frame]

theorem powerSticky_record (q src oper ev : Nat) (detail : Bytes) : PowerSticky s (record s q src oper ev detail) := by
  have r := reports_record (s := s) q src oper ev detail
  exact ⟨by rw [r.power], by rw [regF, regF, r.regs _ _ (by decide) (by decide)]⟩

theorem powerSticky_stickyPower (bit : Nat) : PowerSticky s (stickyPower s bit) := by
  unfold stickyPower
  split
  · exact .refl s
  · have r := reports_stickyCause (s := updPower s (fun x => { x with stat := x.stat ||| 2 ^ bit })) (activeHps s)
    exact ⟨by rw [r.power]; rfl, by rw [regF, regF, r.regs _ _ (by decide) (by decide)]; rfl⟩

theorem PowerSticky.sensors {s t : State} (k : PowerSticky s t) : t.power.sensors = s.power.sensors := by rw [k.1]

theorem PowerSticky.hotSensor {s t : State} (k : PowerSticky s t) (ss : List Nat) (x : Nat) :
    hotSensor t ss x = Machine.hotSensor s ss x := by rw [Machine.hotSensor, Machine.hotSensor, k.sensors]

theorem hotSensor_none {ss : List Nat} {x : Nat} (cool : ∀ i ∈ ss, mget s.power.sensors 0 i < x) : hotSensor s ss x = none := by
  rw [hotSensor, List.find?_eq_none]
  intro i mem
  simpa using cool i mem

theorem hotSensor_some {ss : List Nat} {x : Nat} (hot : ∃ i ∈ ss, x ≤ mget s.power.sensors 0 i) : ∃ i, hotSensor s ss x = some i := by
  obtain ⟨i, mem, hot⟩ := hot
  rw [← Option.isSome_iff_exists, hotSensor, List.find?_isSome]
  exact ⟨i, mem, decide_eq_true hot⟩

/-- What SENSOR_READ records of a compute die that passes TJ_LIMIT. -/
def dieSeen (was : List Nat) (s : State) (d : Nat) : State :=
  if was.getD d 0 < tjLimit s ∧ tjLimit s ≤ dieTemp s d then
    let i := (hotSensor s (dieSensors d) (tjLimit s)).getD 0
    stickyPower (record s 7 (ucDie d) 0 0x0063 (leBytes 1 i ++ leBytes 2 (mget s.power.sensors 0 i))) 3
  else s

/-- The I/O dies that are at 110 °C. -/
def ioSeen (s : State) : State :=
  [0, 1].foldl (fun s x => if (hotSensor s (dieSensors (4 + x)) 440).isSome then ioHot s x else s) s

/-- THERMTRIP where a sensor of a compute die is at 115 °C. -/
def tripSeen (s : State) : State :=
  match hotSensor s (List.range 64) 460 with
  | some i => thermTrip s i
  | none => s

/-- The sensors read. -/
def sensed (s : State) (temps : List Nat) : State := updPower s (fun x => { x with sensors := mofList 0 0 (temps.take 72) })

theorem sensorsRead_eq (s : State) (temps : List Nat) : sensorsRead s temps =
    tripSeen (ioSeen ((List.range 4).foldl (dieSeen ((List.range 4).map (dieTemp s))) (sensed s temps))) := by
  unfold sensorsRead tripSeen ioSeen sensed
  rfl

theorem powerSticky_dieSeen (was : List Nat) (d : Nat) : PowerSticky s (dieSeen was s d) := by
  unfold dieSeen
  split
  · exact (powerSticky_record ..).trans (powerSticky_stickyPower _)
  · exact .refl s

theorem powerSticky_diesSeen (was ds : List Nat) (s : State) : PowerSticky s (ds.foldl (dieSeen was) s) := by
  induction ds generalizing s with
  | nil => exact .refl s
  | cons d ds ih => exact (powerSticky_dieSeen was d).trans (ih _)

theorem diesSeen_calm {was : List Nat} (cool : ∀ d, d < 4 → dieTemp s d < tjLimit s) : (List.range 4).foldl (dieSeen was) s = s :=
  foldl_eq_self_of_mem fun d mem => if_neg fun ⟨_, hot⟩ => absurd hot (Nat.not_le.2 (cool d (List.mem_range.1 mem)))

theorem mem_dieSensors_io {x i : Nat} : i ∈ dieSensors (4 + x) ↔ 64 + 4 * x ≤ i ∧ i < 64 + 4 * x + 4 := by
  rw [dieSensors, if_neg (by omega), show 4 + x - 4 = x from Nat.add_sub_cancel_left .., mem_upto]

/-- An I/O die below 110 °C. -/
theorem ioStep_cool {x : Nat} (cool : ∀ i, i < 4 → mget s.power.sensors 0 (64 + 4 * x + i) < 440) :
    (if (hotSensor s (dieSensors (4 + x)) 440).isSome then ioHot s x else s) = s := by
  have none_ : hotSensor s (dieSensors (4 + x)) 440 = none := hotSensor_none fun i mem => by
    obtain ⟨lo, hi⟩ := mem_dieSensors_io.1 mem
    have := cool (i - (64 + 4 * x)) (by omega)
    rwa [show 64 + 4 * x + (i - (64 + 4 * x)) = i by omega] at this
  rw [none_]
  rfl

theorem ioStep_hot {x : Nat} (hot : ∃ i, i < 4 ∧ 440 ≤ mget s.power.sensors 0 (64 + 4 * x + i)) :
    (if (hotSensor s (dieSensors (4 + x)) 440).isSome then ioHot s x else s) = ioHot s x := by
  obtain ⟨i, hi, hot⟩ := hot
  obtain ⟨j, found⟩ := hotSensor_some ⟨64 + 4 * x + i, mem_dieSensors_io.2 ⟨Nat.le_add_right _ _, Nat.add_lt_add_left hi _⟩, hot⟩
  rw [found]
  rfl

theorem ioSeen_cool (cool : ∀ i, i < 8 → mget s.power.sensors 0 (64 + i) < 440) : ioSeen s = s := by
  have first := ioStep_cool (s := s) (x := 0) fun i hi => cool i (by omega)
  have second := ioStep_cool (s := s) (x := 1) fun i hi => by
    have := cool (4 + i) (by omega)
    rwa [← Nat.add_assoc] at this
  rw [ioSeen, List.foldl_cons, first, List.foldl_cons, second, List.foldl_nil]

theorem ioSeen_hot (hot : ∃ i, i < 4 ∧ 440 ≤ mget s.power.sensors 0 (64 + i))
    (cool : ∀ i, i < 4 → mget s.power.sensors 0 (68 + i) < 440) (kept : (ioHot s 0).power.sensors = s.power.sensors) :
    ioSeen s = ioHot s 0 := by
  have first := ioStep_hot (s := s) (x := 0) hot
  have second := ioStep_cool (s := ioHot s 0) (x := 1) fun i hi => by rw [kept]; exact cool i hi
  rw [ioSeen, List.foldl_cons, first, List.foldl_cons, second, List.foldl_nil]

theorem tripSeen_cool (cool : ∀ i, i < 64 → mget s.power.sensors 0 i < 460) : tripSeen s = s := by
  rw [tripSeen, hotSensor_none fun i mem => cool i (List.mem_range.1 mem)]

theorem tripSeen_hot (hot : ∃ i, i < 64 ∧ 460 ≤ mget s.power.sensors 0 i) :
    (tripSeen s).pins.stage = .stopped ∧ (tripSeen s).pins.thermtripN = false ∧ (tripSeen s).pins.faultN = false := by
  obtain ⟨i, hi, hot⟩ := hot
  obtain ⟨j, found⟩ := hotSensor_some ⟨i, List.mem_range.2 hi, hot⟩
  rw [tripSeen, found]
  exact ⟨rfl, rfl, by simp [thermTrip, driveFault]⟩

/-! ### AVS and PMBUS -/

theorem railAnswer_silent (s : State) (r : Nat) (a : RailAnswer) : (railAnswer s r a).power.silent = s.power.silent := by
  unfold railAnswer
  split
  · split <;> rfl
  · rfl

theorem railAnswers_silent (l : List (RailAnswer × Nat)) (s : State) :
    (l.foldl (fun s a => railAnswer s a.2 a.1) s).power.silent = s.power.silent := by
  induction l generalizing s with
  | nil => rfl
  | cons a l ih =>
    exact (ih _).trans (railAnswer_silent s a.2 a.1)

theorem railsPolled_heard {rails : List RailAnswer} (heard : ∀ a ∈ rails.take 4, a.ok = true ∨ a.silentMs < 100) :
    railsPolled s rails =
      updPower (((rails.take 4).zipIdx).foldl (fun s a => railAnswer s a.2 a.1) s) (fun x => { x with silent := false }) := by
  have none_ : ((rails.take 4).zipIdx).find? (fun a => !a.1.ok && decide (100 ≤ a.1.silentMs)) = none := by
    rw [List.find?_eq_none]
    intro a mem
    have in_ : a.1 ∈ rails.take 4 := (List.mem_zipIdx' mem).2 ▸ List.getElem_mem _
    rcases heard a.1 in_ with ok | short
    · simp [ok]
    · simp [Nat.not_le.2 short]
  simp only [railsPolled, none_]

theorem railsPolled_silent {rails : List RailAnswer} {a : RailAnswer} {r : Nat}
    (found : ((rails.take 4).zipIdx).find? (fun a => !a.1.ok && decide (100 ≤ a.1.silentMs)) = some (a, r)) {polled : State}
    (hp : ((rails.take 4).zipIdx).foldl (fun s a => railAnswer s a.2 a.1) s = polled) : railsPolled s rails =
      stickyPower (updPower (if s.power.silent then polled else record polled 7 (ucSpeush 0) 0 0x0062 (leBytes 1 2 ++ leBytes 1 r))
        (fun x => { x with silent := true })) 5 := by
  subst hp
  simp only [railsPolled, found, railAnswers_silent]

/-! ### POWER_PERIOD -/

/-- A state that the power loops reach without a change of the thermal leading, the sensors or the estimates of the period. -/
structure Period (s t : State) : Prop where
  frame : t = { s with
    power := t.power, parts := t.parts, evr := t.evr, out := t.out, regs := t.regs, hps := t.hps, freeCtr := t.freeCtr }
  power : t.power = { s.power with stat := t.power.stat, lead := t.power.lead, partEst := t.power.partEst }
  stat : ∀ b, s.power.stat.testBit b = true → t.power.stat.testBit b = true
  limit : regF t .dev 0x0080018 0 8 = regF s .dev 0x0080018 0 8

namespace Period

theorem refl (s : State) : Period s s := ⟨rfl, rfl, fun _ => id, rfl⟩

theorem trans {s t u : State} (a : Period s t) (b : Period t u) : Period s u where
  frame := by rw [b.frame, a.frame]
  power := by rw [b.power, a.power]
  stat k h := b.stat k (a.stat k h)
  limit := b.limit.trans a.limit

theorem foldl {α : Type} {g : State → α → State} (hg : ∀ s a, Period s (g s a)) (l : List α) (s : State) :
    Period s (l.foldl g s) := by
  induction l generalizing s with
  | nil => exact refl s
  | cons a l ih => exact (hg s a).trans (ih _)

theorem of_ite {s t u : State} {c : Prop} [Decidable c] (a : Period s t) (b : Period s u) : Period s (if c then t else u) := by
  split
  · exact a
  · exact b

end Period

theorem period_stickyPower (bit : Nat) : Period s (stickyPower s bit) := by
  unfold stickyPower
  split
  · exact .refl s
  · have r := reports_stickyCause (s := updPower s (fun x => { x with stat := x.stat ||| 2 ^ bit })) (activeHps s)
    refine ⟨by rw [r.frame]; rfl, by rw [r.power]; rfl, fun b h => ?_, by rw [regF, regF, r.regs _ _ (by decide) (by decide)]; rfl⟩
    rw [r.power]
    show (s.power.stat ||| 2 ^ bit).testBit b = true
    rw [Nat.testBit_or, h, Bool.true_or]

theorem stickyPower_set (bit : Nat) : (stickyPower s bit).power.stat.testBit bit = true := by
  unfold stickyPower
  split
  · assumption
  · have r := reports_stickyCause (s := updPower s (fun x => { x with stat := x.stat ||| 2 ^ bit })) (activeHps s)
    rw [r.power]
    show (s.power.stat ||| 2 ^ bit).testBit bit = true
    rw [Nat.testBit_or, Nat.testBit_two_pow_self, Bool.or_true]

theorem period_updPower {f : Power → Power}
    (same : ∀ x, f x = { x with lead := (f x).lead, partEst := (f x).partEst }) : Period s (updPower s f) where
  frame := rfl
  power := by
    have kept : (f s.power).stat = s.power.stat := by rw [same]
    show f s.power = { s.power with stat := (f s.power).stat, lead := (f s.power).lead, partEst := (f s.power).partEst }
    rw [kept]
    exact same s.power
  stat b h := by
    show (f s.power).stat.testBit b = true
    rw [same]
    exact h
  limit := rfl

theorem period_leadPart (p est : Nat) : Period s (leadPart s p est) := by
  unfold leadPart
  split
  split
  next f v counted =>
  obtain ⟨-, rfl⟩ := Prod.mk.inj counted
  extract_lets old was48 isOver new led marked hold
  have counting : Period s { s with freeCtr := s.freeCtr + 1 } := ⟨rfl, rfl, fun _ => id, rfl⟩
  have leading : Period s led := counting.trans (.foldl (fun u g => period_updPower fun _ => rfl) _ _)
  have marking : Period s marked := leading.trans (.of_ite (period_stickyPower _) (.refl _))
  exact marking.trans ⟨rfl, rfl, fun _ => id, rfl⟩

/-- The thermal leading of galley `g` after a period (R435). -/
def thermalNew (s : State) (g v : Nat) : Nat :=
  if tjLimit s ≤ dieTemp s (g / 4) then min (v + 4) 48 else if dieTemp s (g / 4) + 8 < tjLimit s then v - 1 else v

/-- The thermal leading of every galley replaced. -/
def thermalSet (s : State) (m : Map Nat) : State := updPower s (fun x => { x with thermal := m })

/-- The entries `gs` of a table changed one after another. -/
def updEach (h : Nat → Nat → Nat) (gs : List Nat) (m : Map Nat) : Map Nat := gs.foldl (fun m g => mset m 0 g (h g (mget m 0 g))) m

theorem mget_updEach {h : Nat → Nat → Nat} {gs : List Nat} (nodup : gs.Nodup) (m : Map Nat) (g : Nat) :
    mget (updEach h gs m) 0 g = if g ∈ gs then h g (mget m 0 g) else mget m 0 g := by
  induction gs generalizing m with
  | nil => rfl
  | cons a gs ih =>
    obtain ⟨fresh_, nodup⟩ := List.nodup_cons.1 nodup
    refine (ih nodup (mset m 0 a (h a (mget m 0 a)))).trans ?_
    rw [mget_mset]
    by_cases same : g = a
    · subst same
      simp [fresh_]
    · simp [same]

theorem updEach_append (h : Nat → Nat → Nat) (as bs : List Nat) (m : Map Nat) :
    updEach h (as ++ bs) m = updEach h bs (updEach h as m) := List.foldl_append

/-- One galley of a die of temperature `t`. -/
def thermalStep (t : Nat) (s : State) (g : Nat) : State :=
  updPower s (fun x =>
    let v := mget x.thermal 0 g
    let w := if tjLimit s ≤ t then min (v + 4) 48 else if t + 8 < tjLimit s then v - 1 else v
    { x with thermal := mset x.thermal 0 g w })

theorem thermalDie_eq (s : State) (d : Nat) : thermalDie s d = (upto (4 * d) 4).foldl (thermalStep (dieTemp s d)) s := by
  unfold thermalDie
  rfl

theorem thermalStep_set {d g : Nat} (die : g / 4 = d) (m : Map Nat) : thermalStep (dieTemp s d) (thermalSet s m) g =
    thermalSet s (mset m 0 g (thermalNew s g (mget m 0 g))) := by
  subst die
  rfl

theorem thermalDie_set (d : Nat) (m : Map Nat) :
    thermalDie (thermalSet s m) d = thermalSet s (updEach (thermalNew s) (upto (4 * d) 4) m) := by
  have each (gs : List Nat) (die : ∀ g ∈ gs, g / 4 = d) (m : Map Nat) :
      gs.foldl (thermalStep (dieTemp s d)) (thermalSet s m) = thermalSet s (updEach (thermalNew s) gs m) := by
    induction gs generalizing m with
    | nil => rfl
    | cons g gs ih =>
      rw [List.foldl_cons, thermalStep_set (die g (.head _)), ih fun x mem => die x (.tail _ mem)]
      rfl
  refine (thermalDie_eq _ d).trans (each _ (fun g mem => ?_) m)
  have := mem_upto.1 mem
  omega

theorem thermalDies_set (m : Map Nat) :
    (List.range 4).foldl thermalDie (thermalSet s m) = thermalSet s (updEach (thermalNew s) (List.range 16) m) := by
  have dies : List.range 4 = [0, 1, 2, 3] := rfl
  have galleys : List.range 16 = upto (4 * 0) 4 ++ (upto (4 * 1) 4 ++ (upto (4 * 2) 4 ++ upto (4 * 3) 4)) := by decide
  simp only [dies, List.foldl_cons, List.foldl_nil, thermalDie_set, galleys, updEach_append]

theorem thermalDies_eq (s : State) :
    (List.range 4).foldl thermalDie s = thermalSet s (updEach (thermalNew s) (List.range 16) s.power.thermal) := by
  have start : thermalSet s s.power.thermal = s := rfl
  have dies := thermalDies_set (s := s) s.power.thermal
  rwa [start] at dies

/-- The leading in force replaced. -/
def totalSet (s : State) (m : Map Nat) : State := updPower s (fun x => { x with total := m })

/-- The leading in force of galley `g` (R432). -/
def totalNew (s : State) (g : Nat) : Nat :=
  if s.power.edcHold then 48 else max (max (mget s.power.lead 0 g) (mget s.power.thermal 0 g)) (stackLead s g)

/-- One galley of SET_LEADING. -/
def totalStep (s : State) (g : Nat) : State :=
  let l := max (max (mget s.power.lead 0 g) (mget s.power.thermal 0 g)) (stackLead s g)
  updPower s (fun x => { x with total := mset x.total 0 g (if x.edcHold then 48 else l) })

theorem totalStep_set (m : Map Nat) (g : Nat) : totalStep (totalSet s m) g = totalSet s (mset m 0 g (totalNew s g)) := rfl

theorem setLeading_eq (s : State) : setLeading s = totalSet s (updEach (fun g _ => totalNew s g) (List.range 16) s.power.total) := by
  have each (gs : List Nat) (m : Map Nat) :
      gs.foldl totalStep (totalSet s m) = totalSet s (updEach (fun g _ => totalNew s g) gs m) := by
    induction gs generalizing m with
    | nil => rfl
    | cons g gs ih => rw [List.foldl_cons, totalStep_set, ih]; rfl
  exact each (List.range 16) s.power.total

/-- The estimates of a period. -/
def periodEstimates (s : State) (watts : List Nat) (io amps : Nat) (edc : Bool) : State :=
  updPower s (fun x => { x with
    iEst := amps, edcHold := edc
    pEst := (s.power.gain * (watts.foldl (· + ·) 0 + io)) / 2 ^ 14 + (upto 1 3).foldl (fun a r => a + mget x.rails 0 r) 0 })

theorem powerPeriod_effect {watts : List Nat} {io amps : Nat} (hamps : (if s.power.meas = 0 then 0
      else s.power.gain * (watts.foldl (· + ·) 0 + io) * 1000 / (s.power.meas * 2 ^ 14)) = amps) :
    ∃ a b w, Period (periodEstimates s watts io amps (decide (regF s .dev 0x0080004 0 12 < amps))) a ∧
      (regF s .dev 0x0080004 0 12 < amps → a.power.stat.testBit 1 = true) ∧
      b = thermalSet a (updEach (thermalNew a) (List.range 16) a.power.thermal) ∧ Period b w ∧
      powerPeriod s watts io = totalSet w (updEach (fun g _ => totalNew w g) (List.range 16) w.power.total) := by
  subst hamps
  unfold powerPeriod
  extract_lets ps ests all amps edc s1 s2 s3 s4 s5 s6
  have marked : Period s1 s2 := .of_ite (period_stickyPower 1) (.refl _)
  have led : Period s2 s3 := .foldl (fun u p => period_leadPart p _) _ _
  have ended : Period s4 s6 := (period_updPower fun _ => rfl).trans (.of_ite (period_stickyPower 6) (.refl _))
  refine ⟨s3, s4, s6, marked.trans led, fun above => led.stat 1 ?_, thermalDies_eq s3, ended, setLeading_eq s6⟩
  have high : edc = true := decide_eq_true above
  have set_ : s2 = stickyPower s1 1 := if_pos high
  rw [set_]
  exact stickyPower_set 1

theorem Period.thermalNew {s t : State} (k : Period s t) (g v : Nat) : thermalNew t g v = Machine.thermalNew s g v := by
  have sensors : t.power.sensors = s.power.sensors := by rw [k.power]
  have limit : tjLimit t = tjLimit s := congrArg (4 * ·) k.limit
  have temp : dieTemp t (g / 4) = dieTemp s (g / 4) := by rw [dieTemp, dieTemp, sensors]
  rw [Machine.thermalNew, Machine.thermalNew, limit, temp]

section
variable {s t : State} (k : Period s t)
include k
theorem Period.iEst : t.power.iEst = s.power.iEst := by rw [k.power]
theorem Period.edcHold : t.power.edcHold = s.power.edcHold := by rw [k.power]
theorem Period.droopHold : t.power.droopHold = s.power.droopHold := by rw [k.power]
theorem Period.thermal : t.power.thermal = s.power.thermal := by rw [k.power]
theorem Period.ms : t.ms = s.ms := by rw [k.frame]
theorem Period.cores : t.cores = s.cores := by rw [k.frame]
end

section
variable {s : State} {watts : List Nat} {io amps : Nat} {edc : Bool}

theorem periodEstimates_iEst : (periodEstimates s watts io amps edc).power.iEst = amps := rfl
theorem periodEstimates_edcHold : (periodEstimates s watts io amps edc).power.edcHold = edc := rfl
theorem periodEstimates_droopHold : (periodEstimates s watts io amps edc).power.droopHold = s.power.droopHold := rfl
theorem periodEstimates_thermal : (periodEstimates s watts io amps edc).power.thermal = s.power.thermal := rfl
theorem periodEstimates_ms : (periodEstimates s watts io amps edc).ms = s.ms := rfl
theorem periodEstimates_cores : (periodEstimates s watts io amps edc).cores = s.cores := rfl
theorem periodEstimates_thermalNew (g v : Nat) : thermalNew (periodEstimates s watts io amps edc) g v = thermalNew s g v := rfl

end

section
variable {s : State} (m : Map Nat)

theorem thermalSet_iEst : (thermalSet s m).power.iEst = s.power.iEst := rfl
theorem thermalSet_edcHold : (thermalSet s m).power.edcHold = s.power.edcHold := rfl
theorem thermalSet_droopHold : (thermalSet s m).power.droopHold = s.power.droopHold := rfl
theorem thermalSet_stat : (thermalSet s m).power.stat = s.power.stat := rfl
theorem thermalSet_thermal : (thermalSet s m).power.thermal = m := rfl
theorem thermalSet_ms : (thermalSet s m).ms = s.ms := rfl
theorem thermalSet_cores : (thermalSet s m).cores = s.cores := rfl
theorem totalSet_total : (totalSet s m).power.total = m := rfl
theorem totalSet_lead : (totalSet s m).power.lead = s.power.lead := rfl
theorem totalSet_thermal : (totalSet s m).power.thermal = s.power.thermal := rfl
theorem totalSet_iEst : (totalSet s m).power.iEst = s.power.iEst := rfl
theorem totalSet_edcHold : (totalSet s m).power.edcHold = s.power.edcHold := rfl
theorem totalSet_droopHold : (totalSet s m).power.droopHold = s.power.droopHold := rfl
theorem totalSet_ms : (totalSet s m).ms = s.ms := rfl
theorem totalSet_cores : (totalSet s m).cores = s.cores := rfl
theorem totalSet_stat : (totalSet s m).power.stat = s.power.stat := rfl
theorem totalSet_stackLead (g : Nat) : stackLead (totalSet s m) g = stackLead s g := rfl

end

theorem mget_updEach_galley {h : Nat → Nat → Nat} {g : Nat} (hg : g < 16) (m : Map Nat) :
    mget (updEach h (List.range 16) m) 0 g = h g (mget m 0 g) := by
  rw [mget_updEach List.nodup_range, if_pos (List.mem_range.2 hg)]

theorem powerPeriod_leaves {watts : List Nat} {io amps : Nat} (hamps : (if s.power.meas = 0 then 0
      else s.power.gain * (watts.foldl (· + ·) 0 + io) * 1000 / (s.power.meas * 2 ^ 14)) = amps) {u : State}
    (hu : powerPeriod s watts io = u) :
    u.power.iEst = amps ∧ u.power.edcHold = decide (regF s .dev 0x0080004 0 12 < amps) ∧
    (regF s .dev 0x0080004 0 12 < amps → u.power.stat.testBit 1 = true) ∧
    (∀ g, g < 16 →
      (mget u.power.total 0 g = if regF s .dev 0x0080004 0 12 < amps then 48
        else max (max (mget u.power.lead 0 g) (mget u.power.thermal 0 g)) (stackLead u g)) ∧
      (mget u.power.thermal 0 g = if tjLimit s ≤ dieTemp s (g / 4) then min (mget s.power.thermal 0 g + 4) 48
        else if dieTemp s (g / 4) + 8 < tjLimit s then mget s.power.thermal 0 g - 1 else mget s.power.thermal 0 g)) ∧
    u.ms = s.ms ∧ u.cores = s.cores ∧ u.power.droopHold = s.power.droopHold := by
  obtain ⟨a, b, w, led, above, thermal, ended, run⟩ := powerPeriod_effect hamps
  obtain rfl : totalSet w (updEach (fun g _ => totalNew w g) (List.range 16) w.power.total) = u := run.symm.trans hu
  subst thermal
  have edc : w.power.edcHold = decide (regF s .dev 0x0080004 0 12 < amps) := by
    rw [ended.edcHold, thermalSet_edcHold, led.edcHold, periodEstimates_edcHold]
  have kept : w.power.thermal = updEach (thermalNew a) (List.range 16) s.power.thermal := by
    rw [ended.thermal, thermalSet_thermal, led.thermal, periodEstimates_thermal]
  refine ⟨?_, ?_, fun high => ?_, fun g hg => ⟨?_, ?_⟩, ?_, ?_, ?_⟩
  · rw [totalSet_iEst, ended.iEst, thermalSet_iEst, led.iEst, periodEstimates_iEst]
  · rw [totalSet_edcHold, edc]
  · rw [totalSet_stat]
    refine ended.stat 1 ?_
    rw [thermalSet_stat]
    exact above high
  · rw [totalSet_total, totalSet_lead, totalSet_thermal, totalSet_stackLead, mget_updEach_galley hg, totalNew, edc]
    simp only [decide_eq_true_eq]
  · rw [totalSet_thermal, kept, mget_updEach_galley hg, led.thermalNew, periodEstimates_thermalNew, thermalNew]
  · rw [totalSet_ms, ended.ms, thermalSet_ms, led.ms, periodEstimates_ms]
  · rw [totalSet_cores, ended.cores, thermalSet_cores, led.cores, periodEstimates_cores]
  · rw [totalSet_droopHold, ended.droopHold, thermalSet_droopHold, led.droopHold, periodEstimates_droopHold]

end

/-- Settles O49. -/
theorem powerEvents : Obligations.PowerEvents := by
  unfold Obligations.PowerEvents
  refine ⟨fun s p g m e mv temps rails hawake => ?_, fun s watts io hawake =>
    ⟨_, done_next hawake rfl, powerPeriod_leaves rfl rfl⟩⟩
  have sensed_eq {u : State} (e : tripSeen (ioSeen ((List.range 4).foldl (dieSeen ((List.range 4).map (dieTemp s)))
      (sensed s temps))) = u) :
      Ends (.sensorRead temps) s u := done_next hawake ((sensorsRead_eq s temps).trans e)
  refine ⟨fun silent => done_next hawake (calibrate_silent silent m e),
    fun heard he => done_next hawake (calibrate_heard heard he),
    fun some_ => ⟨fun high => done_next hawake ((if_pos some_).trans (opDown_steps high)),
      fun low => done_next hawake ((if_pos some_).trans (opDown_stays low)),
      fun none_ below => done_next hawake ((if_pos some_).trans (opUp_steps none_ below)),
      fun stays => done_next hawake ((if_pos some_).trans (opUp_stays stays))⟩,
    fun raising acked above below => done_next hawake (vcoreSettled_near raising acked above below),
    fun far => done_next hawake (vcoreSettled_far far),
    fun raising acked => done_next hawake (vcoreSettled_late raising acked), done_next hawake rfl,
    fun dies low io => ?_, fun dies low hot cool kept => ?_, fun hot cool => ?_, done_next hawake rfl, fun pending => ⟨?_, ?_⟩,
    fun acked b => ?_, fun heard => done_next hawake (railsPolled_heard heard), fun a r found => ⟨fun silent => ?_, fun heard => ?_⟩⟩
  · refine sensed_eq ?_
    rw [diesSeen_calm (s := sensed s temps) dies, ioSeen_cool (s := sensed s temps) io, tripSeen_cool (s := sensed s temps) low]
    rfl
  · refine sensed_eq ?_
    rw [diesSeen_calm (s := sensed s temps) dies, ioSeen_hot (s := sensed s temps) hot cool kept,
      tripSeen_cool (s := ioHot (sensed s temps) 0) fun i hi => ?_]
    · rfl
    · exact (congrArg (mget · 0 i) kept).trans_lt (low i hi)
  · have sticky := powerSticky_diesSeen ((List.range 4).map (dieTemp s)) (List.range 4) (sensed s temps)
    refine ⟨_, sensed_eq rfl, ?_⟩
    rw [ioSeen_cool (by rw [sticky.sensors]; exact cool)]
    exact tripSeen_hot (by rw [sticky.sensors]; exact hot)
  · exact done_next hawake (if_pos pending)
  · exact done_next hawake (if_pos pending)
  · exact done_next hawake (if_neg (Bool.eq_false_iff.1 acked))
  · refine done_next hawake ((railsPolled_silent found rfl).trans ?_)
    rw [silent]
    rfl
  · refine done_next hawake ((railsPolled_silent found rfl).trans ?_)
    rw [heard]
    rfl

end Sys2Proof.Machine
end

section
/-! The reset and power pins, READY, the slot that boots and the start of a partition (13 R401, R405; 15 R451 to R462;
18 R505 to R522). -/

namespace Sys2Proof.Machine

section
variable {s : State}

/-! ### RESET_N -/

theorem resetFalls_low (low : s.pins.resetN = false) : resetFalls s = s := if_pos (by rw [low]; rfl)

section
variable (high : s.pins.resetN = true) {fell : State}
  (hf : { s with pins := { s.pins with resetN := false, pwrfail := false } } = fell)
include high hf

theorem resetFalls_held (stage : s.pins.stage = .held) : resetFalls s = fell := by
  subst hf
  rw [resetFalls, if_neg (by simp [high])]
  simp only [stage]

theorem resetFalls_other (notReady : s.pins.stage ≠ .ready) (notHeld : s.pins.stage ≠ .held) :
    resetFalls s = resetEffect fell := by
  subst hf
  rw [resetFalls, if_neg (by simp [high])]
  dsimp only
  split
  · next ready => exact absurd ready notReady
  · next held => exact absurd held notHeld
  · rfl

/-- A READY device whose RESET_N has fallen: STOPs, the dump and the flush have been asked for. -/
def resetWaits (fell : State) : State :=
  let dumped := takeDump ((List.range (nparts fell)).foldl stopForReset fell) (ucSpeush 0) 3 0x20 7
  let flushed := flushEvents (endFreeze (recordReset dumped 7 (ucSpeush 0) 9 9))
  { flushed with pins := { flushed.pins with resetPending := true } }

theorem resetFalls_ready (stage : s.pins.stage = .ready) : resetFalls s =
    if (resetWaits fell).faults.dump.state = 1 then resetWaits fell else resetEffect (resetWaits fell) := by
  subst hf
  rw [resetFalls, if_neg (by simp [high])]
  simp only [stage]
  rfl

end

/-! ### BOOT -/

theorem boot_pending (a : Nat) (pending : s.pins.resetPending = true) :
    boot s a = { s with pins := { s.pins with resetN := true, smbAddr := a } } := if_pos pending

section
variable (free : s.pins.resetPending = false) (a : Nat)
include free

theorem boot_held (stage : s.pins.stage = .held) (low : s.pins.resetN = false) : boot s a =
    startBoot { s with pins := { s.pins with stage := .booting, resetN := true, smbAddr := a }, ticks := 0 } := by
  rw [boot, if_neg (Bool.eq_false_iff.1 free), if_pos (.inl ⟨stage, by rw [low]; rfl⟩)]

theorem boot_ready (stage : s.pins.stage = .ready) : boot s a = s := by
  rw [boot, if_neg (Bool.eq_false_iff.1 free), if_neg (by simp [stage])]

end

/-! ### Power -/

theorem powerFails_taken (high : s.pins.resetN = true) (hawake : awake s = true) (first : s.pins.pwrfail = false) :
    powerFails s = flushPower { endFreeze s with pins := { (endFreeze s).pins with pwrfail := true } } := by
  rw [powerFails, if_neg (by simp [high, hawake, first])]

theorem powerFails_ignored (ignored : s.pins.resetN = false ∨ s.pins.pwrfail = true) : powerFails s = s :=
  if_pos (by rcases ignored with low | second <;> simp [*])

theorem powerHold_held (failed : s.pins.pwrfail = true) : (powerHold s).pins.stage = .held := by
  rw [powerHold, if_pos failed]
  rfl

theorem powerHold_free (free : s.pins.pwrfail = false) : powerHold s = s := if_neg (Bool.eq_false_iff.1 free)

theorem refclkLost_stops (high : s.pins.resetN = true) (running : s.pins.stage ≠ .held) :
    refclkLost s = driveFault { s with pins := { s.pins with stage := .stopped } } := if_pos (by simp [high, running])

theorem refclkLost_low (low : s.pins.resetN = false) : refclkLost s = s := if_neg (by simp [low])

/-! ### READY -/

/-- Every partition of the mode leaves boot. -/
def partsBooted (s : State) : State :=
  (List.range (nparts s)).foldl (fun s p => updPart s p (fun x => { x with pstate := if x.modeBlocked then 5 else 1 })) s

theorem partsBooted_faults (s : State) : (partsBooted s).faults = s.faults := by
  have each (ps : List Nat) (s : State) : (ps.foldl (fun s p => updPart s p (fun x =>
      { x with pstate := if x.modeBlocked then 5 else 1 })) s).faults = s.faults := by
    induction ps generalizing s with
    | nil => rfl
    | cons p ps ih => exact ih _
  exact each _ s

theorem decideOos_serves (few : s.faults.recov.length < 4) (serves : s.faults.oos = false) : decideOos s = driveFault s := by
  have some_ : (recoveries s).length < 4 := (List.length_filter_le _ _).trans_lt few
  rw [decideOos]
  simp only [Nat.not_le.2 some_, false_and, if_false, serves, Bool.false_eq_true]

/-- A device whose records stay, READY before its partitions leave boot. -/
def bootDone (s : State) : State :=
  { updMgmt (updFaults s (fun f => { f with subst := [] })) (fun m => { m with standbyOk := true }) with
    pins := { s.pins with stage := .ready, powerUp := false } }

theorem applyRecords_none (none_ : s.faults.subst = []) : applyRecords s = updFaults s (fun f => { f with subst := [] }) := by
  rw [applyRecords, none_]
  rfl

theorem bootReady_boots (stage : s.pins.stage = .booting) (up : speushUp s = true) (mode : s.pmode = s.mgmt.recordedMode)
    (none_ : s.faults.subst = []) (kept : s.evr.clearing = false) (serves : s.faults.oos = false)
    (few : s.faults.recov.length < 4) : bootReady s = driveFault (partsBooted (bootDone s)) := by
  have clearing : (updFaults s (fun f => { f with subst := [] })).evr.clearing = false := kept
  have ready : bootReady s = decideOos (partsBooted (bootDone s)) := by
    rw [bootReady, if_pos ⟨stage, up⟩, if_pos mode, applyRecords_none none_]
    simp only [clearing, Bool.false_eq_true, if_false]
    rfl
  rw [ready, decideOos_serves]
  · rw [partsBooted_faults]
    exact few
  · rw [partsBooted_faults]
    exact serves

end

/-- Settles O50. -/
theorem pinsAndReady : Obligations.PinsAndReady := by
  unfold Obligations.PinsAndReady
  intro s a
  have pin {i : Instr} {t u : State} (row : exec i s = pinDone s t) (e : t = u) : Ends i s u := by
    rw [Ends, row, pinDone, e]
  refine ⟨pin rfl rfl, fun low => pin rfl (resetFalls_low low),
    fun high => ⟨fun stage busy => ?_, fun stage free => ?_, fun stage => pin rfl (resetFalls_held high rfl stage),
      fun notReady notHeld => pin rfl (resetFalls_other high rfl notReady notHeld)⟩,
    fun pending => pin rfl (if_pos pending), fun free => pin rfl (if_neg (Bool.eq_false_iff.1 free)),
    fun pending => pin rfl (boot_pending _ pending), fun free stage low => pin rfl (boot_held free _ stage low),
    fun free stage => pin rfl (boot_ready free _ stage),
    fun high hawake first => pin rfl (powerFails_taken high hawake first), fun ignored => pin rfl (powerFails_ignored ignored),
    pin rfl rfl, fun failed => ⟨pin rfl rfl, powerHold_held failed⟩, fun free => pin rfl (powerHold_free free),
    ⟨pin rfl rfl, rfl, rfl⟩, fun high running => pin rfl (refclkLost_stops high running), fun low => pin rfl (refclkLost_low low),
    fun stage up mode none_ kept serves few => ?_, fun stage => ?_⟩
  · exact pin rfl ((resetFalls_ready high rfl stage).trans (if_pos busy))
  · exact pin rfl ((resetFalls_ready high rfl stage).trans (if_neg free))
  · exact done_next (by simp [awake, stage]) (bootReady_boots stage up mode none_ kept serves few)
  · exact done_next (by simp [awake, stage]) (if_neg (by simp [stage]))

end Sys2Proof.Machine
end

section
/-! The slot that boots, what a device-cold reset keeps and how a partition starts (13 R401; 15 R451 to R462; 18 R509, R518,
R519). -/

namespace Sys2Proof.Machine

/-! ### Slots -/

section
variable {s t : State} (fw : t.mgmt.fw = s.mgmt.fw) (i : Nat)
include fw

theorem fwSlot_congr : fwSlot t i = fwSlot s i := by rw [fwSlot, fwSlot, fw]

theorem slotIntact_congr : slotIntact t i = slotIntact s i := by rw [slotIntact, slotIntact, fwSlot_congr fw]

theorem fwBytesAt_congr (o n : Nat) : fwBytesAt t i o n = fwBytesAt s i o n := by
  have byte : fwByteAt t i = fwByteAt s i := by
    funext a
    rw [fwByteAt, fwByteAt, fwSlot_congr fw]
  rw [fwBytesAt, fwBytesAt, byte]

theorem slotSvn_congr : slotSvn t i = slotSvn s i := by
  rw [slotSvn, slotSvn, slotIntact_congr fw, fwBytesAt_congr fw]

theorem compOk_congr (bs : Bytes) (c : Nat) : compOk t i bs c = compOk s i bs c := by
  simp only [compOk, fwBytesAt_congr fw]

theorem colophonHash_congr (slot : t.mgmt.slot = s.mgmt.slot) : colophonHash t = colophonHash s := by
  simp only [colophonHash, slot, slotIntact_congr fw, fwBytesAt_congr fw]

theorem slotCheck_congr (fuses : t.fuses = s.fuses) : slotCheck t i = slotCheck s i := by
  have min_ : svnMin t = svnMin s := by rw [svnMin, svnMin, fuses]
  have key (k : Nat) : keyHash t k = keyHash s k := by rw [keyHash, keyHash, fuses]
  simp only [slotCheck, min_, key, fuses, slotIntact_congr fw, slotSvn_congr fw, fwBytesAt_congr fw, compOk_congr fw]

end

/-! ### The slot that boots -/

/-- The configuration that boot stage 1 takes. -/
def bootConfigured (s : State) : State :=
  let s := { s with pmode := s.mgmt.pmodeNext }
  let shares := mofList 0 0 ((List.range 4).map (pshareDefault (nparts s)))
  let s := updPower s (fun x => { x with share := shares, staged := shares })
  updMgmt s (fun m => { m with owner := if (hpPart s m.ownerNext).isSome then m.ownerNext else 0 })

/-- RECOVERY: no slot boots. -/
def bootRecovery (s : State) : State :=
  let s := { updMgmt s (fun m => { m with prefFailed := true, bothDown := false }) with pins := { s.pins with stage := .recovery } }
  (List.range (nparts s)).foldl (fun s p => updPart s p (fun x => { x with pstate := 5 })) s

/-- The slot chosen. -/
def bootChosen (s : State) (a : Nat) : State :=
  if slotCheck s a = 0 then bootFrom s a false
  else
    let t := slotFailed s a (slotCheck s a)
    if slotCheck t (1 - a) = 0 then bootFrom t (1 - a) true else bootRecovery (slotFailed t (1 - a) (slotCheck t (1 - a)))

theorem startBoot_eq (s : State) : startBoot s = driveFault (bootChosen (bootConfigured s) s.mgmt.bootPref) := by
  unfold startBoot bootChosen bootRecovery bootConfigured
  rfl

section
variable (s : State) (i : Nat) (failed : Bool)

theorem bootFrom_pins : (bootFrom s i failed).pins = s.pins := rfl
theorem bootFrom_fw : (bootFrom s i failed).mgmt.fw = s.mgmt.fw := rfl

theorem bootFrom_measures : (bootFrom s i failed).mgmt.measures.length = 7 ∧
    (bootFrom s i failed).mgmt.measures[1]? = some (colophonHash (bootFrom s i failed)) := by
  exact ⟨rfl, congrArg some (colophonHash_congr rfl rfl)⟩

end

theorem driveFault_stage (s : State) : (driveFault s).pins.stage = s.pins.stage := rfl

theorem nparts_driveFault (s : State) : nparts (driveFault s) = nparts s := rfl

theorem bootConfigured_check (s : State) (i : Nat) : slotCheck (bootConfigured s) i = slotCheck s i :=
  slotCheck_congr rfl i rfl

theorem reports_slotFailed (s : State) (i check : Nat) : Reports s (slotFailed s i check) := reports_record ..

theorem Reports.mgmt {s t : State} (r : Reports s t) : t.mgmt = s.mgmt := by rw [r.frame]

theorem Reports.fw {s t : State} (r : Reports s t) : t.mgmt.fw = s.mgmt.fw := by rw [r.mgmt]

theorem Reports.fuses {s t : State} (r : Reports s t) : t.fuses = s.fuses := by rw [r.frame]

theorem Reports.pins {s t : State} (r : Reports s t) : t.pins = s.pins := by rw [r.frame]

theorem slotFailed_check (s : State) (i check k : Nat) : slotCheck (slotFailed s i check) k = slotCheck s k :=
  slotCheck_congr (by rw [(reports_slotFailed s i check).mgmt]) k (reports_slotFailed s i check).fuses

/-- Every partition of a list BLOCKED. -/
def blockParts (ps : List Nat) (s : State) : State := ps.foldl (fun s p => updPart s p (fun x => { x with pstate := 5 })) s

theorem blockParts_frame (ps : List Nat) (s : State) : ∃ m, blockParts ps s = { s with parts := m } := by
  induction ps generalizing s with
  | nil => exact ⟨s.parts, rfl⟩
  | cons p ps ih =>
    obtain ⟨m, frame⟩ := ih (updPart s p (fun x => { x with pstate := 5 }))
    exact ⟨m, frame⟩

theorem blockParts_blocked {p : Nat} (ps : List Nat) (s : State) (blocked : p ∈ ps ∨ (part s p).pstate = 5) :
    (part (blockParts ps s) p).pstate = 5 := by
  induction ps generalizing s with
  | nil => exact blocked.resolve_left (List.not_mem_nil)
  | cons q ps ih =>
    refine ih (updPart s q (fun x => { x with pstate := 5 })) ?_
    rw [part_updPart]
    by_cases same : p = q
    · exact .inr (by rw [if_pos same])
    · rw [if_neg same]
      exact blocked.imp_left fun mem => (List.mem_cons.1 mem).resolve_left same

/-- RECOVERY before the partitions are BLOCKED. -/
def recovering (s : State) : State :=
  { updMgmt s (fun m => { m with prefFailed := true, bothDown := false }) with pins := { s.pins with stage := .recovery } }

theorem bootRecovery_eq (s : State) : bootRecovery s = blockParts (List.range (nparts s)) (recovering s) := rfl

theorem bootRecovery_frame (s : State) : ∃ m, bootRecovery s = { recovering s with parts := m } :=
  bootRecovery_eq s ▸ blockParts_frame _ _

theorem nparts_bootRecovery (s : State) : nparts (bootRecovery s) = nparts s := by
  obtain ⟨m, frame⟩ := bootRecovery_frame s
  rw [frame]
  rfl

theorem bootRecovery_stage (s : State) : (bootRecovery s).pins.stage = .recovery := by
  obtain ⟨m, frame⟩ := bootRecovery_frame s
  rw [frame]
  rfl

theorem part_driveFault (s : State) (p : Nat) : part (driveFault s) p = part s p := rfl

theorem bootRecovery_blocked (s : State) {p : Nat} (hp : p < nparts s) : (part (bootRecovery s) p).pstate = 5 :=
  blockParts_blocked _ _ (.inl (List.mem_range.2 hp))

theorem bootChosen_keeps (s : State) (a : Nat) : (bootChosen s a).pmode = s.pmode ∧ (bootChosen s a).fuses = s.fuses ∧
    (bootChosen s a).mgmt.fw = s.mgmt.fw := by
  have first := reports_slotFailed s a (slotCheck s a)
  unfold bootChosen
  split
  · exact ⟨rfl, rfl, rfl⟩
  · dsimp only
    split
    · exact ⟨first.pmode, first.fuses, (bootFrom_fw _ _ _).trans first.fw⟩
    · generalize slotFailed s a (slotCheck s a) = t at first
      have second := reports_slotFailed t (1 - a) (slotCheck t (1 - a))
      obtain ⟨m, frame⟩ := bootRecovery_frame (slotFailed t (1 - a) (slotCheck t (1 - a)))
      rw [frame]
      exact ⟨second.pmode.trans first.pmode, second.fuses.trans first.fuses, second.fw.trans first.fw⟩

section
variable {s : State} {i : Nat} (pref : s.mgmt.bootPref = i)
include pref

theorem startBoot_preferred (ok : slotCheck s i = 0) : startBoot s = driveFault (bootFrom (bootConfigured s) i false) := by
  rw [startBoot_eq, pref, bootChosen, if_pos ((bootConfigured_check s i).trans ok)]

section
variable (bad : slotCheck s i ≠ 0)
include bad

/-- The preferred slot has failed its checks. -/
def prefRecorded (s : State) (i : Nat) : State := slotFailed (bootConfigured s) i (slotCheck s i)

theorem startBoot_other (ok : slotCheck s (1 - i) = 0) :
    startBoot s = driveFault (bootFrom (prefRecorded s i) (1 - i) true) := by
  rw [startBoot_eq, pref, bootChosen, if_neg (by rw [bootConfigured_check]; exact bad)]
  simp only [slotFailed_check, bootConfigured_check, ok, if_true]
  rfl

theorem startBoot_none (bad' : slotCheck s (1 - i) ≠ 0) : startBoot s =
    driveFault (bootRecovery (slotFailed (prefRecorded s i) (1 - i) (slotCheck s (1 - i)))) := by
  rw [startBoot_eq, pref, bootChosen, if_neg (by rw [bootConfigured_check]; exact bad)]
  simp only [slotFailed_check, bootConfigured_check, bad', if_false]
  rfl

end

end

/-! ### Starting a partition -/

section
variable {s : State} {h p : Nat} (mine : hpPart s h = some p)
include mine

theorem partStart_starts (init : (part s p).pstate = 1) :
    partStart s h = (partPorts s p).foldl tryEnable (updPart s p (fun x => { x with pstate := 2 })) := by
  rw [partStart, mine]
  exact if_pos init

theorem partStart_ignored (other : (part s p).pstate ≠ 1) : partStart s h = writeIgnored s h 0x0010010 1 0 := by
  rw [partStart, mine]
  exact if_neg other

/-- A STARTED partition whose image has been tried. -/
def imageTried (s : State) (p : Nat) : State := loadImage (updPart s p (fun x => { x with pstate := 3, barFail := 0 })) p

section
variable (started : (part s p).pstate = 2) (armed : (xport s p).arm = true)
include started armed

theorem partBarrier_joins (ok : (xport (imageTried s p) p).result = 1) :
    partBarrier s h = beginJoin (markProven (imageTried s p) p) p true := by
  rw [partBarrier, mine]
  exact (if_pos ⟨started, armed⟩).trans (if_pos ok)

theorem partBarrier_holds (failed : (xport (imageTried s p) p).result ≠ 1) :
    partBarrier s h = toHold (imageTried s p) p 1 := by
  rw [partBarrier, mine]
  exact (if_pos ⟨started, armed⟩).trans (if_neg failed)

end

theorem partBarrier_ignored (other : (part s p).pstate ≠ 2 ∨ (xport s p).arm = false) :
    partBarrier s h = writeIgnored s h 0x0010010 2 0 := by
  rw [partBarrier, mine]
  exact if_neg fun ⟨started, armed⟩ => other.elim (absurd started) (fun off => by simp [off] at armed)

end

/-! ### A device-cold reset -/

theorem mem_coldMem (s : State) (powerUp : Bool) (c : Nat × Byte) : c ∈ (resetCold s powerUp).ms.mem ↔
    powerUp = false ∧ c ∈ s.ms.mem ∧ dumpBase s ≤ c.1 ∧ c.1 < dumpBase s + dumpSize s := by
  cases powerUp with
  | true => exact ⟨fun mem => absurd mem List.not_mem_nil, fun ⟨no, _⟩ => absurd no (by decide)⟩
  | false =>
    show c ∈ s.ms.mem.filter (fun c => decide (dumpBase s ≤ c.1) && decide (c.1 < dumpBase s + dumpSize s)) ↔ _
    simp

/-- Settles O51. -/
theorem bootAndStart : Obligations.BootAndStart := by
  unfold Obligations.BootAndStart
  refine ⟨fun s i pref => ⟨fun ok => ?_, fun bad ok => ?_, fun bad bad' => ?_, ?_⟩, fun s powerUp => ?_, fun s h p can => ?_⟩
  · rw [startBoot_preferred pref ok]
    obtain ⟨seven, colophon⟩ := bootFrom_measures (bootConfigured s) i false
    refine ⟨rfl, rfl, rfl, rfl, ?_, rfl, seven, ?_⟩
    · exact slotSvn_congr rfl i
    · exact colophon
  · rw [startBoot_other pref bad ok]
    refine ⟨rfl, rfl, rfl, ?_⟩
    rw [driveFault_stage, bootFrom_pins, prefRecorded, (reports_slotFailed ..).pins]
    rfl
  · rw [startBoot_none pref bad bad']
    refine ⟨?_, fun p hp => ?_⟩
    · rw [driveFault_stage, bootRecovery_stage]
    · rw [nparts_driveFault, nparts_bootRecovery] at hp
      rw [part_driveFault]
      exact bootRecovery_blocked _ hp
  · rw [startBoot_eq]
    exact bootChosen_keeps (bootConfigured s) s.mgmt.bootPref
  · refine ⟨rfl, rfl, rfl, rfl, rfl, rfl, rfl, rfl, rfl, rfl, rfl, rfl, rfl, rfl, rfl, rfl, mem_coldMem s powerUp, ?_⟩
    cases powerUp with
    | true => exact ⟨rfl, rfl, fun _ => rfl, nofun⟩
    | false => exact ⟨rfl, rfl, nofun, fun _ => rfl⟩
  · have hawake := can.awake
    have mine := can.part
    have write {off v : Nat} {f : State → State} : hostWrite s h off v f = f s := hostWrite_ready can.hostCan can.isReady
    exact ⟨fun init => done_next hawake (write.trans (partStart_starts mine init)),
      fun other => done_next hawake (write.trans (partStart_ignored mine other)),
      fun started armed => ⟨fun ok => done_next hawake (write.trans (partBarrier_joins mine started armed ok)),
        fun failed => done_next hawake (write.trans (partBarrier_holds mine started armed failed))⟩,
      fun other => done_next hawake (write.trans (partBarrier_ignored mine other))⟩

end Sys2Proof.Machine
end

section
/-! ECC outcomes, row remaps and the temperature of a stack (06 R172, R176 to R183; 13 R394). -/

namespace Sys2Proof.Machine

/-! ### What a charge leaves of the memory -/

/-- `t` has `s`'s mode, memory, poison and remap tables. -/
structure KeepsRows (s t : State) : Prop where
  pmode : t.pmode = s.pmode
  mem : t.ms.mem = s.ms.mem
  poison : ∀ g ∈ s.ms.poison, g ∈ t.ms.poison
  rows : ∀ i, (channel t i).rows = (channel s i).rows

namespace KeepsRows

theorem refl (s : State) : KeepsRows s s := ⟨rfl, rfl, fun _ => id, fun _ => rfl⟩

theorem trans {s t u : State} (a : KeepsRows s t) (b : KeepsRows t u) : KeepsRows s u where
  pmode := b.pmode.trans a.pmode
  mem := b.mem.trans a.mem
  poison g hg := b.poison g (a.poison g hg)
  rows i := (b.rows i).trans (a.rows i)

theorem of_ms {s t : State} (pmode : t.pmode = s.pmode) (ms : t.ms = s.ms) : KeepsRows s t where
  pmode := pmode
  mem := by rw [ms]
  poison g := by rw [ms]; exact id
  rows i := by rw [channel, channel, ms]

theorem stackPart {s t : State} (k : KeepsRows s t) (i : Nat) : stackPart t i = Machine.stackPart s i := by
  simp only [Machine.stackPart, nstacks, nparts, k.pmode]

theorem foldl {α : Type} {g : State → α → State} (hg : ∀ s a, KeepsRows s (g s a)) (l : List α) (s : State) :
    KeepsRows s (l.foldl g s) := by
  induction l generalizing s with
  | nil => exact refl s
  | cons a l ih => exact (hg s a).trans (ih (g s a))

end KeepsRows

theorem Reports.keepsRows {s t : State} (r : Reports s t) : KeepsRows s t := .of_ms r.pmode r.ms

theorem SnapsOnly.keepsRows {s t : State} (k : SnapsOnly s t) : KeepsRows s t := .of_ms (by rw [k.frame]) k.ms

section
variable (s : State)

theorem keepsRows_updFaults (f : Faults → Faults) : KeepsRows s (updFaults s f) := .of_ms rfl rfl

theorem keepsRows_updPort (j : Nat) (f : Port → Port) : KeepsRows s (updPort s j f) := .of_ms rfl rfl

theorem keepsRows_raise (p reason : Nat) (step : Option Nat) (unit : Nat) : KeepsRows s (raise s p reason step unit) := .of_ms rfl rfl

theorem keepsRows_strikeReq (p : Nat) (health : Bool) (unit : Nat) : KeepsRows s (strikeReq s p health unit) := .of_ms rfl rfl

theorem keepsRows_record (p src oper ev : Nat) (detail : Bytes) : KeepsRows s (record s p src oper ev detail) :=
  (reports_record ..).keepsRows

theorem channel_updChannel (i k : Nat) (f : Channel → Channel) :
    channel (updChannel s i f) k = if k = i then f (channel s i) else channel s k :=
  mget_mset ..

theorem keepsRows_updChannel (i : Nat) {f : Channel → Channel} (keeps : ∀ c, (f c).rows = c.rows) :
    KeepsRows s (updChannel s i f) where
  pmode := rfl
  mem := rfl
  poison _ := id
  rows k := by
    rw [channel_updChannel]
    split
    · next same => rw [keeps, same]
    · rfl

theorem keepsRows_failChannel (i : Nat) : KeepsRows s (failChannel s i) := by
  have failing : KeepsRows s (updChannel s i fun x => { x with state := 1 }) := keepsRows_updChannel s i fun _ => rfl
  unfold failChannel
  split
  · exact .refl s
  · dsimp only
    split
    · exact failing.trans (keepsRows_raise ..)
    · exact failing.trans (keepsRows_strikeReq ..)

theorem keepsRows_retireCore (c : Nat) (hard : Bool) : KeepsRows s (retireCore s c hard) := by
  unfold retireCore
  split
  · exact .refl s
  · split
    · have retired : KeepsRows s { s with retiredCores := sins s.retiredCores c } := .of_ms rfl rfl
      exact (retired.trans (keepsRows_record ..)).trans (reports_stickyDev ..).keepsRows
    · split
      · exact keepsRows_updFaults ..
      · dsimp only
        split
        · exact keepsRows_updFaults ..
        · exact keepsRows_strikeReq ..

theorem keepsRows_stickyPort (j bit : Nat) : KeepsRows s (stickyPort s j bit) := by
  have marked : KeepsRows s (updPort s j fun x => { x with err := (port s j).err ||| 2 ^ bit }) := keepsRows_updPort ..
  unfold stickyPort
  dsimp only
  split
  · exact .refl s
  · split
    · exact marked.trans (reports_stickyCause ..).keepsRows
    · exact marked

theorem keepsRows_linkLoss (j last : Nat) : KeepsRows s (linkLoss s j last) := by
  have kept (f : Port → Port) (p oper ev : Nat) (detail : Bytes) :
      KeepsRows s (record (stickyPort (updPort s j f) j 1) p (ucPort j) oper ev detail) :=
    ((keepsRows_updPort s j f).trans (keepsRows_stickyPort _ j 1)).trans (keepsRows_record ..)
  unfold linkLoss
  dsimp only
  split
  · split
    · exact (kept ..).trans (keepsRows_raise ..)
    · exact kept ..
  · exact kept ..

theorem keepsRows_portGo (j new : Nat) : KeepsRows s (portGo s j new) := by
  unfold portGo
  extract_lets x old loss gone
  have kept : KeepsRows s gone := keepsRows_updPort ..
  split
  · exact .refl s
  · split
    · exact kept.trans (keepsRows_linkLoss ..)
    · exact kept

theorem keepsRows_retirePort (j : Nat) : KeepsRows s (retirePort s j) := by
  unfold retirePort
  split
  · exact .refl s
  · exact (((keepsRows_stickyPort s j 3).trans (keepsRows_record ..)).trans (keepsRows_portGo _ j 9)).trans (keepsRows_updPort ..)

theorem keepsRows_askRetrain (j reason : Nat) : KeepsRows s (askRetrain s j reason) := by
  have sent (t : State) (ctype : Nat) (payload : Bytes) : KeepsRows t (sendLctl t j ctype payload) := .of_ms rfl rfl
  unfold askRetrain
  dsimp only
  split
  · exact (keepsRows_updPort ..).trans (sent ..)
  · exact .refl s

theorem keepsRows_retireUnit (u : Nat) : KeepsRows s (retireUnit s u) := by
  unfold retireUnit
  dsimp only
  split
  · exact keepsRows_retireCore ..
  · exact keepsRows_failChannel ..
  · exact keepsRows_strikeReq ..
  · split
    · exact (keepsRows_updPort ..).trans (keepsRows_askRetrain ..)
    · exact (keepsRows_retirePort ..).trans (keepsRows_updFaults ..)
  · exact .refl s

theorem keepsRows_crossed (u old new thr : Nat) : KeepsRows s (crossed s u old new thr) := by
  have recorded := keepsRows_record s (unitPart s u) u 0 0x0053 (leBytes 2 thr ++ leBytes 2 new)
  unfold crossed
  split
  · refine recorded.trans ?_
    dsimp only
    split
    · split
      · exact (snapsOnly_updSnap ..).keepsRows
      · exact .refl _
    · split
      · exact keepsRows_retireUnit ..
      · exact .refl _
  · exact .refl s

theorem keepsRows_charge (u weight : Nat) : KeepsRows s (charge s u weight) := by
  unfold charge setAcc
  exact (((keepsRows_updFaults s _).trans (keepsRows_crossed ..)).trans (keepsRows_crossed ..)).trans (keepsRows_crossed ..)

/-! ### Granules written as uncorrectable -/

/-- A granule marked poisoned. -/
def markPoisoned (g : Nat) : State := updMs s (fun m => { m with poison := sins m.poison g })

theorem keepsRows_markPoisoned (g : Nat) : KeepsRows s (markPoisoned s g) :=
  ⟨rfl, rfl, fun _ hx => mem_sins.2 (.inr hx), fun _ => rfl⟩

theorem writeBad_eq (g : Nat) : writeBad s g false = charge (record (markPoisoned (cowHook s (g / 8192)) g)
    (stackPart s (channelOf s (g * 64) / 32)) (ucChannel (channelOf s (g * 64))) 0 0x0022 (leBytes 8 (g * 64)))
    (ucChannel (channelOf s (g * 64))) 96 := by
  rw [← ((snapsOnly_cowHook s (g / 8192)).keepsRows.trans (keepsRows_markPoisoned _ g)).stackPart]
  rfl

theorem keepsRows_writeBad (g : Nat) : KeepsRows s (writeBad s g false) := by
  rw [writeBad_eq]
  exact (((snapsOnly_cowHook s _).keepsRows.trans (keepsRows_markPoisoned ..)).trans (keepsRows_record ..)).trans
    (keepsRows_charge ..)

theorem writeBad_poisons (g : Nat) : g ∈ (writeBad s g false).ms.poison := by
  rw [writeBad_eq]
  exact ((keepsRows_record ..).trans (keepsRows_charge ..)).poison g (mem_sins.2 (.inl rfl))

/-- Granules that read uncorrectable, written so. -/
def writeUnmet (gs : List Nat) : State := gs.foldl (fun s g => writeBad (unmeet s g) g false) s

theorem keepsRows_unmeet (g : Nat) : KeepsRows s (unmeet s g) := ⟨rfl, rfl, fun _ => id, fun _ => rfl⟩

theorem keepsRows_writeUnmet (gs : List Nat) : KeepsRows s (writeUnmet s gs) :=
  .foldl (fun s g => (keepsRows_unmeet s g).trans (keepsRows_writeBad ..)) gs s

end

theorem writeUnmet_poisons {gs : List Nat} {g : Nat} (mem : g ∈ gs) (s : State) : g ∈ (writeUnmet s gs).ms.poison := by
  induction gs generalizing s with
  | nil => exact absurd mem List.not_mem_nil
  | cons k gs ih =>
    rcases List.mem_cons.1 mem with rfl | later
    · exact (keepsRows_writeUnmet _ gs).poison g (writeBad_poisons ..)
    · exact ih later _

/-! ### Row remaps -/

section
variable (s : State) (i pa : Nat)

/-- The granules of a row that read uncorrectable. -/
def badGranules (x : Place) : List Nat := (rowGranules s x).filter (fun g => s.ms.meets.contains (g, .uncorrectable))

/-- A row joins its channel's remap table, and its granule is recorded no longer. -/
def addRow (row : Bool × Nat × Nat × Nat) : State :=
  updMs (updChannel s i (fun c => { c with rows := c.rows ++ [row] })) (fun m => { m with recorded := sdel m.recorded (pa / 64) })

theorem addRow_rows (row : Bool × Nat × Nat × Nat) : (channel (addRow s i pa row) i).rows = (channel s i).rows ++ [row] :=
  congrArg Channel.rows (mget_mset_same s.ms.channels _ i _)

theorem addRow_mem (row : Bool × Nat × Nat × Nat) : (addRow s i pa row).ms.mem = s.ms.mem := rfl

theorem addRow_poison (row : Bool × Nat × Nat × Nat) : (addRow s i pa row).ms.poison = s.ms.poison := rfl

theorem addRow_stackPart (row : Bool × Nat × Nat × Nat) (k : Nat) : stackPart (addRow s i pa row) k = stackPart s k := rfl

/-- A row that joins the remap table of its channel, before the remap is recorded. -/
def rowJoined : State := addRow (writeUnmet s (badGranules s (placeOf s pa))) i pa (placeOf s pa).row

theorem rowJoined_rows : (channel (rowJoined s i pa) i).rows = (channel s i).rows ++ [(placeOf s pa).row] := by
  rw [rowJoined, addRow_rows, (keepsRows_writeUnmet ..).rows]

theorem rowJoined_mem : (rowJoined s i pa).ms.mem = s.ms.mem := by
  rw [rowJoined, addRow_mem, (keepsRows_writeUnmet ..).mem]

theorem rowJoined_poison {g : Nat} (row : g ∈ rowGranules s (placeOf s pa)) (bad : (g, EccOutcome.uncorrectable) ∈ s.ms.meets) :
    g ∈ (rowJoined s i pa).ms.poison := by
  have mem : g ∈ badGranules s (placeOf s pa) := List.mem_filter.2 ⟨row, by simpa using bad⟩
  rw [rowJoined, addRow_poison]
  exact writeUnmet_poisons mem s

theorem rowJoined_stackPart (k : Nat) : stackPart (rowJoined s i pa) k = stackPart s k := by
  rw [rowJoined, addRow_stackPart, (keepsRows_writeUnmet ..).stackPart]

theorem remapRow_room (room : (channel s i).remapped < 8192) : remapRow s i pa false =
    charge (record (rowJoined s i pa) (stackPart s (i / 32)) (ucChannel i) 0 0x0024
      (leBytes 8 pa ++ leBytes 2 ((channel s i).remapped + 1))) (ucChannel i) 64 := by
  have count : (channel s i).remapped + 1 = (channel (rowJoined s i pa) i).remapped := by
    rw [Channel.remapped, Channel.remapped, rowJoined_rows, List.length_append]
    rfl
  rw [count, ← rowJoined_stackPart s i pa]
  exact if_pos room

theorem remapRow_full (full : 8192 ≤ (channel s i).remapped) : remapRow s i pa false = failChannel s i :=
  if_neg (Nat.not_lt.2 full)

end

/-! ### The patrol's outcomes -/

theorem mget_of_forall {α : Type} {p : α → Prop} {m : Map α} {d : α} {k : Nat} (initial : p d) (entries : ∀ c ∈ m, p c.2) :
    p (mget m d k) := by
  induction m with
  | nil => exact initial
  | cons c m ih =>
    rw [mget]
    split
    · exact entries c List.mem_cons_self
    · exact ih fun c mem => entries c (List.mem_cons_of_mem _ mem)

section
variable {s : State} (clean : NoneInjected s) (g : Nat)
include clean

theorem channel_uninjected (i : Nat) : (channel s i).inject = false := by
  obtain ⟨none_injected, -⟩ := clean
  exact mget_of_forall (p := fun c : Channel => c.inject = false) rfl fun c mem => by
    simpa using List.any_eq_false.1 none_injected c mem

theorem touchGranule_clean : touchGranule s g = s := by
  unfold touchGranule
  simp only [channel_uninjected clean, clean.2]
  rfl

theorem scrubGranule_clean (o : EccOutcome) : scrubGranule s g o = readGranule s g o := by
  rw [scrubGranule, touchGranule_clean clean]

theorem scrubGranule_uncorrectable (first : g ∉ s.ms.recorded) : scrubGranule s g .uncorrectable =
    writeBad (updMs s (fun m => { m with recorded := sins m.recorded g })) g false := by
  have again : s.ms.recorded.contains g = false := by simpa using first
  rw [scrubGranule_clean clean]
  exact if_neg (by rw [again]; exact Bool.false_ne_true)

end

/-! ### The temperature of a stack -/

section
variable (s : State) (k temp : Nat)

/-- A stack whose temperature and admission are noted. -/
def tempNoted : State :=
  updStack s k (fun x => { x with temp := temp, admitA := admission (regF s .dev 0x0800504 0 9) temp })

/-- A stack whose throttling is shown. -/
def tempShown : State :=
  if 0 < (64 - admission (regF s .dev 0x0800504 0 9) temp) / 4 then stickyPower (tempNoted s k temp) 6 else tempNoted s k temp

theorem stackTemp_mild (mild : temp < 400 ∨ (stack s k).selfRefresh = true) : stackTemp s k temp = tempShown s k temp := by
  refine if_neg fun ⟨hot, fresh⟩ => ?_
  rcases mild with low | held
  · omega
  · simp [held] at fresh

theorem stackTemp_hot (hot : 400 ≤ temp) (fresh : (stack s k).selfRefresh = false) :
    stackTemp s k temp = stackHot (tempShown s k temp) k temp :=
  if_pos ⟨hot, by rw [fresh]; rfl⟩

end

/-- Settles O32. -/
theorem eccAndTemperature : Obligations.EccAndTemperature := by
  unfold Obligations.EccAndTemperature
  intro s k ch line a b c d temp hawake
  refine ⟨fun here held => ?_, fun here scrubbed => ?_, fun missing => if_neg (by rw [missing]; exact Bool.false_ne_true),
    fun g clean => ⟨?_, ?_, ?_, fun first => ?_⟩, fun here room => ?_, fun here full => ?_,
    fun missing => if_neg (by rw [missing]; exact Bool.false_ne_true),
    fun mild => done_next hawake (stackTemp_mild s k temp.toNat mild),
    fun hot fresh => done_next hawake (stackTemp_hot s k temp.toNat hot fresh)⟩
  · exact (if_pos here).trans (done_next hawake (if_pos held))
  · exact (if_pos here).trans (done_next hawake (if_neg (by rw [scrubbed]; exact Bool.false_ne_true)))
  · exact scrubGranule_clean clean g .clean
  · exact scrubGranule_clean clean g .corrected
  · exact scrubGranule_clean clean g .transient
  · exact (scrubGranule_uncorrectable clean g first).trans (writeBad_eq _ g)
  · exact ⟨rowJoined s ch (256 * line), (if_pos here).trans (done_next hawake (remapRow_room s ch _ room)), rowJoined_rows ..,
      rowJoined_mem .., fun g row bad => rowJoined_poison s ch (256 * line) row bad⟩
  · exact (if_pos here).trans (done_next hawake (remapRow_full s ch _ full))

end Sys2Proof.Machine
end
